-- ==== Sys2Proof/Word.lean ====
section
/-! DEFINITION. The words of the SJ-24A: lane and uniform registers of 64 bits, code words of 32 bits, lane masks of 32
bits, and the register numbers of the encodings (spec/00_scope.md R6, R7; spec/03_instruction_encoding.md R69, R77). -/

namespace Sys2Proof

/-- A 64-bit register, memory word or special register (R45, R50). -/
abbrev Word := BitVec 64

/-- A code word (R69). -/
abbrev CodeWord := BitVec 32

/-- A mask of the 32 lanes; bit i stands for lane i (R8, R57). -/
abbrev Mask := BitVec 32

/-- A byte of memory (R6). -/
abbrev Byte := BitVec 8

/-- A vector register number, v0 to v127 (R77). -/
abbrev VReg := BitVec 7

/-- A uniform register number, s0 to s255 (R77). -/
abbrev UReg := BitVec 8

/-- An accumulator tile number, m0 to m15, or a tile flag number (R77). -/
abbrev TReg := BitVec 4

end Sys2Proof
end

