-- ==== Sys2Proof/Config.lean ====
section
/-! DEFINITION. What an implementation fixes and the free values: each is an opaque constant with no body, so that nothing
can be proved of its value (spec/00_scope.md R9, R10). Their uses are logged in notes/assumptions. -/

namespace Sys2Proof.Config

/-- An undefined value (R9) of a register read or written where the spec leaves it open (R228, R275, R283): applied to the
step counter, the register's number and the lane. -/
opaque freeWord : Nat → Nat → Nat → Word

/-- A choice the spec leaves open between two outcomes (R10, R186): applied to the step counter, a register's number and the
lane; true takes the new value. -/
opaque freeBool : Nat → Nat → Nat → Bool

/-- A byte the spec leaves open (R9, R10) in memory or scratchpad: applied to the step counter and the address. -/
opaque freeByte : Nat → Nat → Byte

/-- The bank row of an LLC slice that holds a word, and the row of an LPDDR-5X device (R338): how addresses map to rows is not stated. -/
opaque llcRow : Nat → Nat
opaque memRow : Nat → Nat

/-- The bus address at which an endpoint's BAR2 begins: the host places it (R426, R434). -/
opaque bar2 : Nat → Word

/-- The device memory page, by its number, in which a pair's die keeps the PRP list of a command (R434, R436): the spec names no place. -/
opaque prpPage : Nat → Nat → Nat

/-- The number of dies of a package (R1). -/
def dies : Nat := 24

/-- The number of cores of a die (R3). -/
def coresPerDie : Nat := 64

/-- The number of clusters of a die (R3). -/
def clustersPerDie : Nat := 8

/-- The number of lanes of a group (R5). -/
def lanes : Nat := 32

end Sys2Proof.Config
end

