-- ==== Sys2Proof/Syntax.lean ====
section
/-! DEFINITION. The instructions of the SJ-24A and the events of the part: one constructor of `Instr` for each row of the
opcode table. The operand records follow the formats of spec/03_instruction_encoding.md (R72 to R79) and the tables of the
instruction chapters; a stall count W and a prefix belong to the whole instruction (`Coded`). -/

namespace Sys2Proof

/-! ### Element types, sources, modifiers -/

/-- The element types that T and a type code name together (R79). -/
inductive Elem where
  | i64 | n64 | f64 | i32 | n32 | f32 | i16 | n16 | f16 | bf16 | i8 | n8 | e4m3 | e5m2
deriving DecidableEq, Repr, Inhabited

/-- The access and sub-element widths that T alone names (R74, R225). -/
inductive Width where
  | w8 | w16 | w32 | w64
deriving DecidableEq, Repr, Inhabited

/-- The second source of a lane instruction: a vector register, or a uniform register when BS = 1 (R110, R138). -/
inductive VSrc where
  | vec (r : VReg)
  | uni (r : UReg)
deriving DecidableEq, Repr, Inhabited

/-- The second source of a uniform instruction: a register or a sign-extended immediate (R73, R126). -/
inductive USrc where
  | reg (r : UReg)
  | imm (k : BitVec 8)
deriving DecidableEq, Repr, Inhabited

/-- The count of a lane shift (R114). -/
inductive ShiftCount where
  | reg (b : VSrc)
  | imm (k : BitVec 8)
deriving DecidableEq, Repr, Inhabited

/-- The integer conditions of VCMP, VCMPV and SCMP (R114). -/
inductive ICond where
  | eq | ne | lt | le | gt | ge
deriving DecidableEq, Repr, Inhabited

/-- The floating-point conditions of FCMP and FCMPV (R141). -/
inductive FCond where
  | eq | ne | lt | le | gt | ge | un | ord
deriving DecidableEq, Repr, Inhabited

/-- The conditions of the short SCMP: the last four compare as N32 (R132). -/
inductive SCond where
  | eq | ne | lt | le | gt | ge | ltn | len | gtn | gen
deriving DecidableEq, Repr, Inhabited

/-- The branch conditions (R167). -/
inductive BCond where
  | always | sc | nsc | none | any | all
deriving DecidableEq, Repr, Inhabited

/-- The modes of VMOV (R121). -/
inductive MovMode where
  | copy
  | ext (j : BitVec 3)
  | ins (j : BitVec 3)
deriving DecidableEq, Repr, Inhabited

/-- The modes of the long VMOVS (R121). -/
inductive MovSMode where
  | copy
  | splat (j : BitVec 3)
deriving DecidableEq, Repr, Inhabited

/-- The modes of VSHFI (R155). -/
inductive ShufMode where
  | xor | up | dn | bc
deriving DecidableEq, Repr, Inhabited

/-- The directions of QSWP (R155). -/
inductive SwapDir where
  | h | v | d
deriving DecidableEq, Repr, Inhabited

/-- The kinds of VVOTE (R155). -/
inductive VoteKind where
  | all | any | eq
deriving DecidableEq, Repr, Inhabited

/-- The operators of VRED and VSCAN (R155). -/
inductive RedOp where
  | add | min | max | and | or | xor
deriving DecidableEq, Repr, Inhabited

/-- The destination of VRED (R155). -/
inductive RedDst where
  | uni (r : UReg)
  | vec (r : VReg)
deriving DecidableEq, Repr, Inhabited

/-- The operators of the atomics (R131, R233). -/
inductive AtomOp where
  | add | min | max | and | or | xor | xchg | inc | fadd
deriving DecidableEq, Repr, Inhabited

/-- The order field of a memory access (R131, R225). -/
inductive Order where
  | none | acq | rel | acqrel
deriving DecidableEq, Repr, Inhabited

/-- The scope field of a memory access (R131, R225). -/
inductive Scope where
  | grp | blk | cast | die
deriving DecidableEq, Repr, Inhabited

/-- The special registers that R50 lists. -/
inductive SpecReg where
  | exec | sc | fpm | fpst | lcnt | bseq | bdone | mcnt | hlp | sbchk | rcvf | creg | splits
  | grpid | blkid | castid | pourid | coreid | clusid | dieid | nodeid | nblk | ngrp
  | tcause | taddr | toff | tmask | svpl0 | svpl1
  | wakewhy | cyc | dgst | rstat | parks
  | lb0 | lb1 | lb2 | lb3 | le0 | le1 | le2 | le3 | lc0 | lc1 | lc2 | lc3
deriving DecidableEq, Repr, Inhabited

/-! ### Operands of the short words (R72, R73, R88, R90) -/

/-- Short lane word with three vector registers. -/
structure ShV where (d a b : VReg) deriving DecidableEq, Repr, Inhabited
/-- Short lane word whose B is a uniform register. -/
structure ShS where (d a : VReg) (b : UReg) deriving DecidableEq, Repr, Inhabited
/-- Short lane word whose B is an imm8. -/
structure ShI where (d a : VReg) (k : BitVec 8) deriving DecidableEq, Repr, Inhabited
/-- Short VMOVS, whose VA is 0. -/
structure ShMovS where (d : VReg) (b : UReg) deriving DecidableEq, Repr, Inhabited
/-- Short scalar ALU word: SD is destination and first source. -/
structure ShU where (d : UReg) (b : USrc) deriving DecidableEq, Repr, Inhabited
/-- Short SCMP. -/
structure ShCmp where (a : UReg) (b : USrc) (cond : SCond) deriving DecidableEq, Repr, Inhabited
/-- BRS. -/
structure ShBr where (cond : BCond) (disp : BitVec 8) deriving DecidableEq, Repr, Inhabited
/-- A short word that names SD alone. -/
structure ShReg where (d : UReg) deriving DecidableEq, Repr, Inhabited
/-- Short WAITCNT and MWAIT: a count of 0 to 127. -/
structure ShCount where (n : BitVec 7) deriving DecidableEq, Repr, Inhabited

/-! ### Operands of the long lane words -/

/-- Two sources (R110, R138). -/
structure LaneBin where (d a : VReg) (b : VSrc) (e : Elem) deriving DecidableEq, Repr, Inhabited
/-- Three sources. -/
structure LaneTri where (d a : VReg) (b : VSrc) (c : VReg) (e : Elem) deriving DecidableEq, Repr, Inhabited
/-- Three sources and F5[4] (FFMA NP, FDOT pair). -/
structure LaneTriX where (d a : VReg) (b : VSrc) (c : VReg) (e : Elem) (x : Bool) deriving DecidableEq, Repr, Inhabited
/-- One source. -/
structure LaneUn where (d a : VReg) (e : Elem) deriving DecidableEq, Repr, Inhabited
/-- One source and F5[4] (VUNPK hi, FRND x). -/
structure LaneUnX where (d a : VReg) (e : Elem) (x : Bool) deriving DecidableEq, Repr, Inhabited
/-- A lane shift. -/
structure LaneShift where (d a : VReg) (k : ShiftCount) (e : Elem) deriving DecidableEq, Repr, Inhabited
/-- VCMP. -/
structure LaneCmp where (d : UReg) (a : VReg) (b : VSrc) (cond : ICond) (any : Bool) (e : Elem) deriving DecidableEq, Repr, Inhabited
/-- VCMPV. -/
structure LaneCmpV where (d a : VReg) (b : VSrc) (cond : ICond) (e : Elem) deriving DecidableEq, Repr, Inhabited
/-- FCMP. -/
structure LaneFCmp where (d : UReg) (a : VReg) (b : VSrc) (cond : FCond) (any : Bool) (e : Elem) deriving DecidableEq, Repr, Inhabited
/-- FCMPV. -/
structure LaneFCmpV where (d a : VReg) (b : VSrc) (cond : FCond) (e : Elem) deriving DecidableEq, Repr, Inhabited
/-- VMOV. -/
structure LaneMov where (d a : VReg) (mode : MovMode) (e : Elem) deriving DecidableEq, Repr, Inhabited
/-- Long VMOVS. -/
structure LaneMovS where (d : VReg) (b : UReg) (mode : MovSMode) (e : Elem) deriving DecidableEq, Repr, Inhabited
/-- VIDX. -/
structure LaneIdx where (d : VReg) (k : BitVec 8) (e : Elem) deriving DecidableEq, Repr, Inhabited
/-- VPACK. -/
structure LanePack where (d a b : VReg) (e : Elem) deriving DecidableEq, Repr, Inhabited
/-- FCVT, ICVT, FTOI: result type e, source type s, position POS (R147). -/
structure LaneCvt where (d a b : VReg) (e s : Elem) (pos : BitVec 3) (x : Bool) deriving DecidableEq, Repr, Inhabited
/-- VSHFI. -/
structure ShufImm where (d a : VReg) (k : BitVec 5) (mode : ShufMode) (e : Elem) deriving DecidableEq, Repr, Inhabited
/-- QSWP. -/
structure QuadSwap where (d a : VReg) (dir : SwapDir) deriving DecidableEq, Repr, Inhabited
/-- QBC. -/
structure QuadBc where (d a : VReg) (k : BitVec 2) deriving DecidableEq, Repr, Inhabited
/-- VBAL. -/
structure Ballot where (d : UReg) (a : VReg) (e : Elem) deriving DecidableEq, Repr, Inhabited
/-- VVOTE. -/
structure Vote where (a : VReg) (kind : VoteKind) (e : Elem) deriving DecidableEq, Repr, Inhabited
/-- VRED. -/
structure Reduce where (d : RedDst) (a : VReg) (op : RedOp) (e : Elem) deriving DecidableEq, Repr, Inhabited
/-- VSCAN. -/
structure Scan where (d a : VReg) (op : RedOp) (excl : Bool) (e : Elem) deriving DecidableEq, Repr, Inhabited
/-- VCONF. -/
structure LaneMono where (d a : VReg) deriving DecidableEq, Repr, Inhabited
/-- VISECT: sd and s(d+1). -/
structure Isect where (d : UReg) (a b : VReg) deriving DecidableEq, Repr, Inhabited
/-- VMRANK. -/
structure Rank where (d : VReg) (b : UReg) deriving DecidableEq, Repr, Inhabited
/-- LD and ST (R225). -/
structure MemAcc where (d a : VReg) (c : UReg) (disp : BitVec 8) (t : Width) (ord : Order) (scope : Scope) (x : Bool) deriving DecidableEq, Repr, Inhabited
/-- LDS, STS, LDC and STC (R225). -/
structure ScrAcc where (d a : VReg) (c : UReg) (disp : BitVec 8) (t : Width) (ord : Order) (pair x : Bool) deriving DecidableEq, Repr, Inhabited
/-- ATOM: `wide` is T = 10 (R225, R233). -/
structure LaneAtom where (d a b : VReg) (c : UReg) (disp : BitVec 4) (op : AtomOp) (wide : Bool) (ord : Order) (scope : Scope) (x : Bool) deriving DecidableEq, Repr, Inhabited
/-- ATOMS. -/
structure ScrAtom where (d a b : VReg) (c : UReg) (disp : BitVec 4) (op : AtomOp) (wide : Bool) (ord : Order) (chk x : Bool) deriving DecidableEq, Repr, Inhabited
/-- ATOMC. -/
structure WinAtom where (d a b : VReg) (c : UReg) (disp : BitVec 4) (op : AtomOp) (wide : Bool) (ord : Order) (x : Bool) deriving DecidableEq, Repr, Inhabited
/-- LDF. -/
structure FaultLd where (d a : VReg) (b c : UReg) (disp : BitVec 8) (t : Width) (x : Bool) deriving DecidableEq, Repr, Inhabited
/-- The remote updates (R393); `bind` is the binding pair's register when BND = 1. -/
structure Remote where (d a : VReg) (c : UReg) (disp : BitVec 8) (e : Elem) (bind : Option UReg) deriving DecidableEq, Repr, Inhabited
/-- RARR. -/
structure RemArr where (b : UReg) deriving DecidableEq, Repr, Inhabited
/-- RGET of 8 (n + 1) bytes. -/
structure RemGet where (d a : VReg) (c b : UReg) (n : BitVec 3) deriving DecidableEq, Repr, Inhabited
/-- CRRD. -/
structure CrRead where (d a : VReg) (c : UReg) (disp : BitVec 8) (e : Elem) deriving DecidableEq, Repr, Inhabited
/-- MMA (R259). -/
structure Mma where (md : TReg) (va vb : VReg) (flag : Option TReg) (noacc spec bx : Bool) (e : Elem) deriving DecidableEq, Repr, Inhabited
/-- OADD (R259, R264). -/
structure Oadd where (md : TReg) (va : VReg) (sb : UReg) (flag : Option TReg) (spec : Bool) (e : Elem) deriving DecidableEq, Repr, Inhabited
/-- MLD and MST (R268). -/
structure TileMem where (md : TReg) (a : VReg) (c : UReg) (disp : BitVec 8) deriving DecidableEq, Repr, Inhabited
/-- MZERO. -/
structure TileOne where (md : TReg) deriving DecidableEq, Repr, Inhabited
/-- MSTS: the narrow type e and its own SAT bit (R268). -/
structure TileSts where (md : TReg) (a : VReg) (c : UReg) (disp : BitVec 8) (e : Elem) (sat : Bool) deriving DecidableEq, Repr, Inhabited
/-- HPACK (R271). -/
structure Hpack where (d : VReg) (ms : TReg) (k : BitVec 8) (hi : Bool) deriving DecidableEq, Repr, Inhabited
/-- PLSETV. -/
structure PlSetV where (a : VReg) deriving DecidableEq, Repr, Inhabited
/-- PLGET. -/
structure PlGet where (d : VReg) deriving DecidableEq, Repr, Inhabited

/-! ### Operands of the long uniform words -/

/-- Destination, first source and a register or immediate (R126, R127). -/
structure UniBin where (d a : UReg) (b : USrc) (e : Elem) deriving DecidableEq, Repr, Inhabited
/-- Destination and source. -/
structure UniUn where (d a : UReg) (e : Elem) deriving DecidableEq, Repr, Inhabited
/-- SBFX and SBFI. -/
structure UniTri where (d a b : UReg) (e : Elem) deriving DecidableEq, Repr, Inhabited
/-- Long SCMP. -/
structure UniCmp where (a b : UReg) (cond : ICond) (e : Elem) deriving DecidableEq, Repr, Inhabited
/-- Long SMOV. -/
structure UniMov where (d : UReg) (b : USrc) (e : Elem) deriving DecidableEq, Repr, Inhabited
/-- SMOVI: `signed` for type I8. -/
structure UniMovI where (d : UReg) (k : BitVec 8) (signed : Bool) deriving DecidableEq, Repr, Inhabited
/-- SINSI at byte p. -/
structure UniIns where (d : UReg) (k : BitVec 8) (p : BitVec 3) deriving DecidableEq, Repr, Inhabited
/-- SLD and SST (R131). -/
structure UniMem where (d a : UReg) (disp : BitVec 8) (t : Width) (ord : Order) (scope : Scope) (x : Bool) deriving DecidableEq, Repr, Inhabited
/-- SATOM (R131). -/
structure UniAtom where (d a b : UReg) (op : AtomOp) (wide : Bool) (ord : Order) (scope : Scope) (x : Bool) deriving DecidableEq, Repr, Inhabited
/-- BR. -/
structure Branch where (cond : BCond) (disp : BitVec 24) deriving DecidableEq, Repr, Inhabited
/-- BRD. -/
structure BranchDiv where (a : UReg) (not : Bool) (disp : BitVec 24) deriving DecidableEq, Repr, Inhabited
/-- JMP. -/
structure JumpAbs where (abs : BitVec 24) deriving DecidableEq, Repr, Inhabited
/-- One uniform source. -/
structure OneU where (a : UReg) deriving DecidableEq, Repr, Inhabited
/-- One uniform destination. -/
structure DestU where (d : UReg) deriving DecidableEq, Repr, Inhabited
/-- A uniform destination and source. -/
structure TwoU where (d a : UReg) deriving DecidableEq, Repr, Inhabited
/-- A uniform destination and two sources. -/
structure ThreeU where (d a b : UReg) deriving DecidableEq, Repr, Inhabited
/-- Two uniform sources. -/
structure SrcTwo where (a b : UReg) deriving DecidableEq, Repr, Inhabited
/-- CALL. -/
structure CallRel where (d : UReg) (disp : BitVec 24) deriving DecidableEq, Repr, Inhabited
/-- LOOP. -/
structure LoopOp where (a : UReg) (disp : BitVec 24) deriving DecidableEq, Repr, Inhabited
/-- LBREAK. -/
structure CondOnly where (cond : BCond) deriving DecidableEq, Repr, Inhabited
/-- RCV: the mask operand when MASK = 1 (R166). -/
structure Rcv where (mask : Option UReg) deriving DecidableEq, Repr, Inhabited
/-- RCVW: the timeout and the mask operand. -/
structure Rcvw where (a : UReg) (mask : Option UReg) deriving DecidableEq, Repr, Inhabited
/-- An unsigned imm8. -/
structure Imm8 where (k : BitVec 8) deriving DecidableEq, Repr, Inhabited
/-- PLSET. -/
structure PlaneImm where (p : BitVec 3) deriving DecidableEq, Repr, Inhabited
/-- PLMASK. -/
structure PlaneMask where (a : UReg) (p : BitVec 3) deriving DecidableEq, Repr, Inhabited
/-- WAITCNT and MWAIT: 0 to 127. -/
structure Count where (n : BitVec 7) deriving DecidableEq, Repr, Inhabited
/-- BAR and CBAR. -/
structure BarNo where (k : BitVec 3) deriving DecidableEq, Repr, Inhabited
/-- BARV; `b` is absent with ONE = 1 (R235, R239). -/
structure PhaseArr where (d a : UReg) (b : Option UReg) (cw : Bool) deriving DecidableEq, Repr, Inhabited
/-- BWAITP. -/
structure PhaseWait where (a b : UReg) (cw : Bool) deriving DecidableEq, Repr, Inhabited
/-- FENCE. -/
structure ScopeOnly where (scope : Scope) deriving DecidableEq, Repr, Inhabited
/-- WAITA; `b` holds the timeout when TMO = 1. -/
structure WaitLine where (d a : UReg) (b : Option UReg) deriving DecidableEq, Repr, Inhabited
/-- MBSEND. -/
structure MbSend where (a b : UReg) (m : BitVec 4) deriving DecidableEq, Repr, Inhabited
/-- MBRECV and MBPOP. -/
structure MbTake where (d : UReg) (m : BitVec 4) deriving DecidableEq, Repr, Inhabited
/-- MBPUSH. -/
structure MbPush where (b : UReg) (m : BitVec 4) deriving DecidableEq, Repr, Inhabited
/-- MBSTEAL. -/
structure MbSteal where (d a : UReg) (m : BitVec 4) deriving DecidableEq, Repr, Inhabited
/-- SLEEP. -/
structure Sleep where (a : UReg) (mb : Bool) deriving DecidableEq, Repr, Inhabited
/-- LTILE: `st` for LTILE.st. -/
structure Ladle where (a : UReg) (st : Bool) deriving DecidableEq, Repr, Inhabited
/-- LGATH and LSCAT. -/
structure LadleZ where (a : UReg) (z : Bool) deriving DecidableEq, Repr, Inhabited
/-- LCBLD of version v. -/
structure LcBld where (a : UReg) (v : BitVec 8) deriving DecidableEq, Repr, Inhabited
/-- SLOAD and SSTORE on pair q. -/
structure Storage where (d a b : UReg) (q : BitVec 7) deriving DecidableEq, Repr, Inhabited
/-- CKPT. -/
structure Ckpt where (d a : UReg) (dirty : Bool) deriving DecidableEq, Repr, Inhabited
/-- ARRINIT. -/
structure ArrInit where (a b c : UReg) deriving DecidableEq, Repr, Inhabited
/-- MCLR. -/
structure MClr where (a b : UReg) deriving DecidableEq, Repr, Inhabited
/-- HPROBE. -/
structure Hprobe where (n : BitVec 3) (a : UReg) deriving DecidableEq, Repr, Inhabited
/-- HINS and HDEL; `famB` for `.b`. -/
structure Hlist where (n : BitVec 3) (a b : UReg) (famB : Bool) deriving DecidableEq, Repr, Inhabited
/-- HADV and HBIND. -/
structure HslotTwo where (d : UReg) (n : BitVec 3) (a : UReg) deriving DecidableEq, Repr, Inhabited
/-- HSWAP. -/
structure Hswap where (d : UReg) (n : BitVec 3) deriving DecidableEq, Repr, Inhabited
/-- HFENCE: the slot with DRAIN = 1. -/
structure Hfence where (drain : Option (BitVec 3)) deriving DecidableEq, Repr, Inhabited
/-- HSTAT. -/
structure Hstat where (n : BitVec 3) (a : UReg) deriving DecidableEq, Repr, Inhabited
/-- GETSR. -/
structure GetSr where (d : UReg) (r : SpecReg) deriving DecidableEq, Repr, Inhabited
/-- SETSR. -/
structure SetSr where (r : SpecReg) (a : UReg) deriving DecidableEq, Repr, Inhabited
/-- POUR to queue q. -/
structure Pour where (d a : UReg) (q : BitVec 5) deriving DecidableEq, Repr, Inhabited
/-- DGON: KEEP. -/
structure FlagOnly where (x : Bool) deriving DecidableEq, Repr, Inhabited
/-- DGFOLD. -/
structure DgFold where (a b : UReg) (clr : Bool) deriving DecidableEq, Repr, Inhabited

/-! ### Operands of the events -/

/-- A cache: the L1 of a core (die * 64 + core) or the cache of a cluster (die * 8 + cluster) (R303). -/
inductive CacheId where
  | l1 (core : Nat)
  | cc (cluster : Nat)
  | ic (core : Nat)
deriving DecidableEq, Repr, Inhabited

/-- A storage place that a soft error can strike (R221, R300, R336): a memoryWord lies in LPDDR-5X, an llcWord in the SRAM of an LLC slice. -/
inductive StorageUnit where
  | vecHalf (g lane reg : Nat) (hi : Bool)
  | uniHalf (g reg : Nat) (hi : Bool)
  | tileElem (g tile row col : Nat)
  | scratchWord (b addr : Nat)
  | mailboxEntry (core m k : Nat)
  | l1Word (core addr : Nat)
  | icacheWord (core addr : Nat)
  | shadowWord (g tile row col : Nat)
  | clusterWord (cluster addr : Nat)
  | clusterTag (cluster addr : Nat)
  | llcWord (addr : Nat)
  | memoryWord (addr : Nat)
  /-- A port's error, handled like a unit's (R468). -/
  | port (p : Nat)
deriving DecidableEq, Repr, Inhabited

/-- A unit that a targeted self-test tests (R222, R224, R301, R302, R338, R468). -/
inductive TestUnit where
  | granule (core g : Nat)
  | core (core : Nat)
  | clusterSet (cluster set : Nat)
  | clusterFabric (cluster : Nat)
  | llcRow (die row : Nat)
  | memoryRow (die row : Nat)
  | port (p : Nat)
deriving DecidableEq, Repr, Inhabited

/-- A fabric frame as a port receives it: the wire checks that R453 names, the transport header of R450 and the payload. -/
structure Frame where
  (fcsOk fecOk : Bool) (dstAddr : BitVec 128) (udpDst : BitVec 16) (w0 w1 w2 w3 : Word) (payload : List Byte) (check : BitVec 32)
deriving DecidableEq, Repr, Inhabited


/-- The rows of the opcode table: the short words, the long lane and uniform instructions, and the events of the part. -/
inductive Instr where
  /-- VADD_SHORT: Short lane word: packed 2x32 integer add of two vector registers (R124). -/
  | vaddShort (o : ShV)
  /-- VSUB_SHORT: Short lane word: packed 2x32 integer subtract (R124). -/
  | vsubShort (o : ShV)
  /-- VADDI: Short lane word: adds a sign-extended imm8 to each 32-bit sub-element (R124). -/
  | vaddi (o : ShI)
  /-- VMUL_SHORT: Short lane word: packed 2x32 integer multiply (R124). -/
  | vmulShort (o : ShV)
  /-- VAND_SHORT: Short lane word: bitwise AND (R124). -/
  | vandShort (o : ShV)
  /-- VOR_SHORT: Short lane word: bitwise OR (R124). -/
  | vorShort (o : ShV)
  /-- VXOR_SHORT: Short lane word: bitwise exclusive OR (R124). -/
  | vxorShort (o : ShV)
  /-- VSHLI: Short lane word: shifts each 32-bit sub-element left by an unsigned imm8 (R124). -/
  | vshli (o : ShI)
  /-- VSHRI: Short lane word: logical right shift by an unsigned imm8 (R124). -/
  | vshri (o : ShI)
  /-- VSRAI: Short lane word: arithmetic right shift by an unsigned imm8 (R124). -/
  | vsrai (o : ShI)
  /-- VMIN_SHORT: Short lane word: signed 32-bit minimum (R124). -/
  | vminShort (o : ShV)
  /-- VMAX_SHORT: Short lane word: signed 32-bit maximum (R124). -/
  | vmaxShort (o : ShV)
  /-- VADDS: Short lane word: adds a broadcast uniform register to each sub-element (R124). -/
  | vadds (o : ShS)
  /-- VMULS: Short lane word: multiplies by a broadcast uniform register (R124). -/
  | vmuls (o : ShS)
  /-- FADD_SHORT: Short lane word: packed F32 add (R151). -/
  | faddShort (o : ShV)
  /-- FSUB_SHORT: Short lane word: packed F32 subtract (R151). -/
  | fsubShort (o : ShV)
  /-- FMUL_SHORT: Short lane word: packed F32 multiply (R151). -/
  | fmulShort (o : ShV)
  /-- FADDS: Short lane word: F32 add of a broadcast uniform register (R151). -/
  | fadds (o : ShS)
  /-- FMULS: Short lane word: F32 multiply by a broadcast uniform register (R151). -/
  | fmuls (o : ShS)
  /-- FMIN_SHORT: Short lane word: F32 minimumNumber (R151). -/
  | fminShort (o : ShV)
  /-- FMAX_SHORT: Short lane word: F32 maximumNumber (R151). -/
  | fmaxShort (o : ShV)
  /-- FFMA_SHORT: Short lane word: F32 fused multiply-add VD := VA x VB + VD (R151). -/
  | ffmaShort (o : ShV)
  /-- LDS_SHORT: Short lane word: 8-byte scratchpad load at lane address plus imm8 x 8 (R232). -/
  | ldsShort (o : ShI)
  /-- STS_SHORT: Short lane word: 8-byte scratchpad store at lane address plus imm8 x 8 (R232). -/
  | stsShort (o : ShI)
  /-- VMOVS_SHORT: Short lane word: copies a uniform register into a vector register in every lane (R121). -/
  | vmovsShort (o : ShMovS)
  /-- SMOV_SHORT: Short uniform word: moves a register or sign-extended imm8 into a uniform register (R132). -/
  | smovShort (o : ShU)
  /-- SADD_SHORT: Short uniform word: 32-bit add, sign-extended result (R132). -/
  | saddShort (o : ShU)
  /-- SSUB_SHORT: Short uniform word: 32-bit subtract (R132). -/
  | ssubShort (o : ShU)
  /-- SMUL_SHORT: Short uniform word: 32-bit multiply (R132). -/
  | smulShort (o : ShU)
  /-- SAND_SHORT: Short uniform word: 64-bit bitwise AND (R132). -/
  | sandShort (o : ShU)
  /-- SOR_SHORT: Short uniform word: 64-bit bitwise OR (R132). -/
  | sorShort (o : ShU)
  /-- SXOR_SHORT: Short uniform word: 64-bit exclusive OR (R132). -/
  | sxorShort (o : ShU)
  /-- SSHL_SHORT: Short uniform word: 32-bit left shift (R132). -/
  | sshlShort (o : ShU)
  /-- SSHR_SHORT: Short uniform word: 32-bit logical right shift (R132). -/
  | sshrShort (o : ShU)
  /-- SSRA_SHORT: Short uniform word: 32-bit arithmetic right shift (R132). -/
  | ssraShort (o : ShU)
  /-- SMIN_SHORT: Short uniform word: signed 32-bit minimum (R132). -/
  | sminShort (o : ShU)
  /-- SMAX_SHORT: Short uniform word: signed 32-bit maximum (R132). -/
  | smaxShort (o : ShU)
  /-- SMINN: Short uniform word: unsigned 32-bit minimum (R132). -/
  | sminn (o : ShU)
  /-- SMAXN: Short uniform word: unsigned 32-bit maximum (R132). -/
  | smaxn (o : ShU)
  /-- SCMP_SHORT: Short uniform word: 32-bit compare under the F5 condition, writing SC (R132). -/
  | scmpShort (o : ShCmp)
  /-- BRS: Short branch: moves the whole split by an imm8 word displacement when the condition holds (R169). -/
  | brs (o : ShBr)
  /-- MSAVE: Writes the split's EXEC into a uniform register (R133). -/
  | msave (o : ShReg)
  /-- MLOAD: Sets EXEC from a uniform register masked by OWNED (R133). -/
  | mload (o : ShReg)
  /-- MAND: ANDs EXEC with a uniform register (R133). -/
  | mand (o : ShReg)
  /-- MANDN: ANDs EXEC with the complement of a uniform register (R133). -/
  | mandn (o : ShReg)
  /-- MOR: ORs a uniform register into EXEC within OWNED (R133). -/
  | mor (o : ShReg)
  /-- MXOR: Exclusive-ORs a uniform register into EXEC within OWNED (R133). -/
  | mxor (o : ShReg)
  /-- WAITCNT_SHORT: Short form: holds the split until LCNT is at most the count (R236). -/
  | waitcntShort (o : ShCount)
  /-- BWAIT_SHORT: Short form: waits for closed batches up to the named number and delivers ladle errors (R237). -/
  | bwaitShort (o : ShReg)
  /-- BCLOSE_SHORT: Short form: closes the open batch and returns its number (R237). -/
  | bcloseShort (o : ShReg)
  /-- MWAIT_SHORT: Short form: holds the split until MCNT is at most the count (R258). -/
  | mwaitShort (o : ShCount)
  /-- NOP: Plane-invariant no-operation occupying the uniform pipe for 1 + W cycles (R91). -/
  | nop
  /-- VADD: Long lane integer add at any width, with optional saturation (R115). -/
  | vadd (o : LaneBin)
  /-- VSUB: Long lane integer subtract (R115). -/
  | vsub (o : LaneBin)
  /-- VMUL: Long lane integer multiply, low half (R115). -/
  | vmul (o : LaneBin)
  /-- VMULH: Lane integer multiply, high half (R115). -/
  | vmulh (o : LaneBin)
  /-- VMAD: Lane integer multiply-add with one Fit of the exact sum (R115). -/
  | vmad (o : LaneTri)
  /-- VAND: Long lane bitwise AND (R115). -/
  | vand (o : LaneBin)
  /-- VOR: Long lane bitwise OR (R115). -/
  | vor (o : LaneBin)
  /-- VXOR: Long lane bitwise exclusive OR (R115). -/
  | vxor (o : LaneBin)
  /-- VNOT: Lane bitwise NOT (R115). -/
  | vnot (o : LaneUn)
  /-- VSHL: Lane left shift by a register or immediate count (R116). -/
  | vshl (o : LaneShift)
  /-- VSHR: Lane logical right shift (R116). -/
  | vshr (o : LaneShift)
  /-- VSRA: Lane arithmetic right shift (R116). -/
  | vsra (o : LaneShift)
  /-- VROT: Lane rotate left by count mod width (R116). -/
  | vrot (o : LaneShift)
  /-- VMIN: Long lane integer minimum (R115). -/
  | vmin (o : LaneBin)
  /-- VMAX: Long lane integer maximum (R115). -/
  | vmax (o : LaneBin)
  /-- VABS: Lane integer absolute value (R115). -/
  | vabs (o : LaneUn)
  /-- VNEG: Lane integer negation (R115). -/
  | vneg (o : LaneUn)
  /-- VCLZ: Lane count of leading zeros (R117). -/
  | vclz (o : LaneUn)
  /-- VPOPC: Lane population count (R117). -/
  | vpopc (o : LaneUn)
  /-- VBREV: Lane bit reversal (R117). -/
  | vbrev (o : LaneUn)
  /-- VBFX: Lane bit-field extract under a 64-bit control value (R118). -/
  | vbfx (o : LaneBin)
  /-- VBFI: Lane bit-field insert into the destination (R118). -/
  | vbfi (o : LaneBin)
  /-- VSEL: Lane bitwise select by a mask register (R119). -/
  | vsel (o : LaneTri)
  /-- VCMP: Lane integer compare writing a lane mask to a uniform register per plane issue (R120). -/
  | vcmp (o : LaneCmp)
  /-- VCMPV: Lane integer compare writing all-ones or zero per sub-element (R120). -/
  | vcmpv (o : LaneCmpV)
  /-- VMOV: Lane copy, extract or insert of sub-elements (R121). -/
  | vmov (o : LaneMov)
  /-- VMOVS: Long form copy or splat of a uniform register into vector lanes (R121). -/
  | vmovs (o : LaneMovS)
  /-- VIDX: Writes lane-and-sub-element indices plus a signed start value (R122). -/
  | vidx (o : LaneIdx)
  /-- VPACK: Narrows two registers into one with Fit (R123). -/
  | vpack (o : LanePack)
  /-- VUNPK: Widens the low or high half of a register by extension (R123). -/
  | vunpk (o : LaneUnX)
  /-- FADD: Long lane floating-point add (R142). -/
  | fadd (o : LaneBin)
  /-- FSUB: Long lane floating-point subtract (R142). -/
  | fsub (o : LaneBin)
  /-- FMUL: Long lane floating-point multiply (R142). -/
  | fmul (o : LaneBin)
  /-- FFMA: Long lane fused multiply-add, optionally negating the product (R142). -/
  | ffma (o : LaneTriX)
  /-- FMIN: Long lane minimumNumber (R143). -/
  | fmin (o : LaneBin)
  /-- FMAX: Long lane maximumNumber (R143). -/
  | fmax (o : LaneBin)
  /-- FABS: Clears the sign bit (R144). -/
  | fabs (o : LaneUn)
  /-- FNEG: Inverts the sign bit (R144). -/
  | fneg (o : LaneUn)
  /-- FCMP: Floating-point compare writing a lane mask to a uniform register (R146). -/
  | fcmp (o : LaneFCmp)
  /-- FCMPV: Floating-point compare writing per-sub-element masks (R146). -/
  | fcmpv (o : LaneFCmpV)
  /-- FCLASS: Writes the one-hot class of each floating-point code (R144). -/
  | fclass (o : LaneUn)
  /-- FSCALE: Multiplies by two to an integer power (R142). -/
  | fscale (o : LaneBin)
  /-- FRND: Rounds to an integral value in the same format (R145). -/
  | frnd (o : LaneUnX)
  /-- FCVT: Converts between floating-point formats with packing (R149). -/
  | fcvt (o : LaneCvt)
  /-- ICVT: Converts integers to floating point (R149). -/
  | icvt (o : LaneCvt)
  /-- FTOI: Converts floating point to integers, clamping (R149). -/
  | ftoi (o : LaneCvt)
  /-- FDOT: Dot product by the exact window sum into F32 (R150). -/
  | fdot (o : LaneTriX)
  /-- FRCP: Reciprocal truncated to 16 significant bits (R39). -/
  | frcp (o : LaneUn)
  /-- FRSQ: Reciprocal square root (R38). -/
  | frsq (o : LaneUn)
  /-- FEXP2: Base-2 exponential (R38). -/
  | fexp2 (o : LaneUn)
  /-- FLOG2: Base-2 logarithm (R38). -/
  | flog2 (o : LaneUn)
  /-- FSIN: sin(pi x) (R38). -/
  | fsin (o : LaneUn)
  /-- FCOS: cos(pi x) (R38). -/
  | fcos (o : LaneUn)
  /-- FTANH: Hyperbolic tangent (R38). -/
  | ftanh (o : LaneUn)
  /-- VSHF: Shuffles sub-elements from lanes named by an index operand (R156). -/
  | vshf (o : LaneBin)
  /-- VSHFI: Shuffles by an immediate xor, up, down or broadcast pattern (R156). -/
  | vshfi (o : ShufImm)
  /-- QSWP: Swaps registers within quads horizontally, vertically or diagonally (R157). -/
  | qswp (o : QuadSwap)
  /-- QBC: Broadcasts one lane of each quad (R157). -/
  | qbc (o : QuadBc)
  /-- VBAL: Ballot of non-zero lanes into a uniform register (R158). -/
  | vbal (o : Ballot)
  /-- VVOTE: All, any or equal vote into SC (R158). -/
  | vvote (o : Vote)
  /-- VRED: Reduction over participating lanes (R159). -/
  | vred (o : Reduce)
  /-- VSCAN: Inclusive or exclusive prefix scan over lanes (R160). -/
  | vscan (o : Scan)
  /-- VCONF: Conflict mask and leader of equal values (R161). -/
  | vconf (o : LaneMono)
  /-- VISECT: Intersection masks and merge advances of two sorted id lists (R162). -/
  | visect (o : Isect)
  /-- VTOPK: Keeps the best key-payload pairs of two registers across lanes (R163). -/
  | vtopk (o : LaneUn)
  /-- VMRANK: Counts mask bits below each lane (R164). -/
  | vmrank (o : Rank)
  /-- LD: Lane load from virtual memory at the scope's level (R230). -/
  | ld (o : MemAcc)
  /-- ST: Lane store to virtual memory (R230). -/
  | st (o : MemAcc)
  /-- LDS: Long scratchpad load, optionally paired (R231). -/
  | lds (o : ScrAcc)
  /-- STS: Long scratchpad store, optionally paired (R231). -/
  | sts (o : ScrAcc)
  /-- LDC: Load through the cast window (R231). -/
  | ldc (o : ScrAcc)
  /-- STC: Store through the cast window (R231). -/
  | stc (o : ScrAcc)
  /-- ATOM: Lane atomic on virtual memory (R233). -/
  | atom (o : LaneAtom)
  /-- ATOMS: Lane atomic on scratchpad, optionally index-checked (R233). -/
  | atoms (o : ScrAtom)
  /-- ATOMC: Lane atomic through the cast window (R233). -/
  | atomc (o : WinAtom)
  /-- LDF: Fault-free gather load recording failed lanes in a uniform mask (R230). -/
  | ldf (o : FaultLd)
  /-- RADD: Sends bound remote integer adds, one per lane (R402). -/
  | radd (o : Remote)
  /-- RMIN: Sends remote minimum updates (R402). -/
  | rmin (o : Remote)
  /-- RMAX: Sends remote maximum updates (R402). -/
  | rmax (o : Remote)
  /-- ROR: Sends remote OR updates (R402). -/
  | ror (o : Remote)
  /-- RWO: Sends remote write-once granule writes (R404). -/
  | rwo (o : Remote)
  /-- RARR: Sends one bound arrival per active lane (R404). -/
  | rarr (o : RemArr)
  /-- RGET: Sends remote read requests whose replies fill a local mould (R405). -/
  | rget (o : RemGet)
  /-- CRADD: Sends bound contributions to a crucible line (R406). -/
  | cradd (o : Remote)
  /-- CRRD: Reads a crucible line as a snapshot and rounds it to F32 or F64 (R407). -/
  | crrd (o : CrRead)
  /-- MMA: Queues a 32x32xK matrix multiply-accumulate on a tile (R262). -/
  | mma (o : Mma)
  /-- OADD: Queues the addition of an outlier list into a tile (R265). -/
  | oadd (o : Oadd)
  /-- MLD: Loads tile rows from scratchpad (R269). -/
  | mld (o : TileMem)
  /-- MST: Stores tile rows to scratchpad (R269). -/
  | mst (o : TileMem)
  /-- MZERO: Zeroes tile rows (R269). -/
  | mzero (o : TileOne)
  /-- HPACK: Packs positive-sign bits of tile rows into hash id words (R271). -/
  | hpack (o : Hpack)
  /-- MSTS: Stores tile rows to scratchpad converted to a narrower type (R270). -/
  | msts (o : TileSts)
  /-- PLSETV: Sets each lane's plane from a vector register (R182). -/
  | plsetv (o : PlSetV)
  /-- PLGET: Writes each lane's plane number into a vector register (R182). -/
  | plget (o : PlGet)
  /-- SADD: Long uniform add (R128). -/
  | sadd (o : UniBin)
  /-- SSUB: Long uniform subtract (R128). -/
  | ssub (o : UniBin)
  /-- SMUL: Long uniform multiply (R128). -/
  | smul (o : UniBin)
  /-- SMULH: Uniform multiply, high half (R128). -/
  | smulh (o : UniBin)
  /-- SDIV: Uniform division on the quarter's divider (R128). -/
  | sdiv (o : UniBin)
  /-- SREM: Uniform remainder on the quarter's divider (R128). -/
  | srem (o : UniBin)
  /-- SAND: Long uniform AND (R128). -/
  | sand (o : UniBin)
  /-- SOR: Long uniform OR (R128). -/
  | sor (o : UniBin)
  /-- SXOR: Long uniform exclusive OR (R128). -/
  | sxor (o : UniBin)
  /-- SNOT: Uniform NOT (R128). -/
  | snot (o : UniUn)
  /-- SSHL: Long uniform left shift (R128). -/
  | sshl (o : UniBin)
  /-- SSHR: Long uniform logical right shift (R128). -/
  | sshr (o : UniBin)
  /-- SSRA: Long uniform arithmetic right shift (R128). -/
  | ssra (o : UniBin)
  /-- SMIN: Long uniform minimum (R128). -/
  | smin (o : UniBin)
  /-- SMAX: Long uniform maximum (R128). -/
  | smax (o : UniBin)
  /-- SCLZ: Uniform count of leading zeros (R128). -/
  | sclz (o : UniUn)
  /-- SCTZ: Uniform count of trailing zeros (R128). -/
  | sctz (o : UniUn)
  /-- SPOPC: Uniform population count (R128). -/
  | spopc (o : UniUn)
  /-- SBFX: Uniform bit-field extract (R128). -/
  | sbfx (o : UniTri)
  /-- SBFI: Uniform bit-field insert (R128). -/
  | sbfi (o : UniTri)
  /-- SSEL: Selects between two operands by the split's SC (R129). -/
  | ssel (o : UniBin)
  /-- SCMP: Long uniform compare writing SC (R129). -/
  | scmp (o : UniCmp)
  /-- SMOV: Long uniform move of a register or immediate (R130). -/
  | smov (o : UniMov)
  /-- SMOVI: Moves an 8-bit immediate, sign- or zero-extended (R130). -/
  | smovi (o : UniMovI)
  /-- SINSI: Inserts an immediate byte at a position of a uniform register (R130). -/
  | sinsi (o : UniIns)
  /-- SLD: Uniform load from die-local virtual memory (R131). -/
  | sld (o : UniMem)
  /-- SST: Uniform store to die-local virtual memory (R131). -/
  | sst (o : UniMem)
  /-- SATOM: Uniform atomic on die-local virtual memory (R131). -/
  | satom (o : UniAtom)
  /-- BR: Long conditional branch of the whole split (R169). -/
  | br (o : Branch)
  /-- BRD: Divergent branch that divides the split by a lane mask (R170). -/
  | brd (o : BranchDiv)
  /-- JMP: Jumps to an absolute word offset (R169). -/
  | jmp (o : JumpAbs)
  /-- JMPR: Jumps to an offset held in a register (R169). -/
  | jmpr (o : OneU)
  /-- CALL: Writes a link word and branches by displacement (R171). -/
  | call (o : CallRel)
  /-- CALLR: Writes a link word and jumps to a register target (R171). -/
  | callr (o : TwoU)
  /-- RET: Returns through a link word after checking loop depth (R172). -/
  | ret (o : OneU)
  /-- LOOP: Pushes a hardware loop level with a count (R173). -/
  | loop (o : LoopOp)
  /-- LBREAK: Conditionally pops the top loop level and leaves the loop (R175). -/
  | lbreak (o : CondOnly)
  /-- RCV: Waits until a lane set is reconverged into the split (R177). -/
  | rcv (o : Rcv)
  /-- RCVW: Reconvergence wait with a timeout (R177). -/
  | rcvw (o : Rcvw)
  /-- EXIT: Removes the active lanes from the group for good (R179). -/
  | exit
  /-- TRAP: Raises SOFT_TRAP with an immediate code (R190). -/
  | trap (o : Imm8)
  /-- TRET: Returns from the trap handler, restoring planes, EXEC, SC and loop stack (R193). -/
  | tret
  /-- PLSET: Sets the plane of every active lane (R181). -/
  | plset (o : PlaneImm)
  /-- PLMASK: Sets the plane of the active lanes in a mask (R181). -/
  | plmask (o : PlaneMask)
  /-- MSKOP: Saves EXEC and replaces selected bits from another mask (R180). -/
  | mskop (o : ThreeU)
  /-- QHLP: Sets helper lanes for partly active quads (R65). -/
  | qhlp
  /-- WAITCNT: Long form: waits until LCNT is at most the count (R236). -/
  | waitcnt (o : Count)
  /-- BCLOSE: Long form: closes the open batch (R237). -/
  | bclose (o : DestU)
  /-- BWAIT: Long form: waits for closed batches and delivers ladle and riddle errors (R237). -/
  | bwait (o : OneU)
  /-- MWAIT: Long form: waits for matrix operations and delivers matrix errors (R258). -/
  | mwait (o : Count)
  /-- BAR: Registers lanes at a block barrier and waits for its phase (R238). -/
  | bar (o : BarNo)
  /-- CBAR: Registers lanes at a cast barrier and waits for its phase (R299). -/
  | cbar (o : BarNo)
  /-- BARV: Performs one arrival on a phase-barrier word (R239). -/
  | barv (o : PhaseArr)
  /-- BWAITP: Waits until a phase-barrier word's phase changes (R239). -/
  | bwaitp (o : PhaseWait)
  /-- FENCE: Waits until the group's earlier accesses are performed at a scope (R240). -/
  | fence (o : ScopeOnly)
  /-- FENCEE: Orders earlier stores at die scope before later ladle commands (R240). -/
  | fencee
  /-- WAITA: Waits for an arrival line to reach DONE or a flag, optionally with timeout (R412). -/
  | waita (o : WaitLine)
  /-- ARRST: Reads an arrival line's status as a snapshot (R413). -/
  | arrst (o : TwoU)
  /-- RFLUSH: Waits until every packet of the group is acknowledged or failed (R414). -/
  | rflush
  /-- MBSEND: Appends an entry at the bottom of a mailbox of any core of the die (R241). -/
  | mbsend (o : MbSend)
  /-- MBRECV: Takes the oldest entry of an own mailbox (R241). -/
  | mbrecv (o : MbTake)
  /-- MBPUSH: Appends an entry at the bottom of an own mailbox (R241). -/
  | mbpush (o : MbPush)
  /-- MBPOP: Takes the newest entry of an own mailbox (R241). -/
  | mbpop (o : MbTake)
  /-- MBSTEAL: Takes the oldest entry of a mailbox of any core of the die (R241). -/
  | mbsteal (o : MbSteal)
  /-- SLEEP: Holds the split for a number of clk, optionally ending on a mailbox wake (R242). -/
  | sleep (o : Sleep)
  /-- LTILE: Ladle tile copy between memory and scratchpad, load or store (R249). -/
  | ltile (o : Ladle)
  /-- LGATH: Ladle gather of indexed memory rows into scratchpad (R249). -/
  | lgath (o : LadleZ)
  /-- LSCAT: Ladle scatter of scratchpad rows to indexed memory rows, optionally reducing (R249). -/
  | lscat (o : LadleZ)
  /-- LCBLD: Loads a lattice codebook version into the ladle (R253). -/
  | lcbld (o : LcBld)
  /-- TSEND: Sends a tile or signal to a set of grid ranks as bound contributions (R457). -/
  | tsend (o : OneU)
  /-- SLOAD: Submits an NVMe read into a device buffer bound to an arrival line (R436). -/
  | sload (o : Storage)
  /-- SSTORE: Submits an NVMe write from a device buffer bound to an arrival line (R436). -/
  | sstore (o : Storage)
  /-- CKPT: Starts a checkpoint of the named dies to a safe tier (R465). -/
  | ckpt (o : Ckpt)
  /-- SPEC: Opens a speculation tag over tiles and queues their shadow copy (R273). -/
  | spec (o : TwoU)
  /-- SPCOMMIT: Closes a tag and queues making its shadows the real tiles (R273). -/
  | spcommit (o : OneU)
  /-- SPDROP: Closes a tag and queues discarding its shadows (R273). -/
  | spdrop (o : OneU)
  /-- TFSET: Reads and selectively sets tile flags (R266). -/
  | tfset (o : ThreeU)
  /-- ARRINIT: Sends the initialisation of an arrival line and its tag array (R410). -/
  | arrinit (o : ArrInit)
  /-- CRCLR: Sends the clearing of a crucible line (R410). -/
  | crclr (o : OneU)
  /-- MCLR: Sends the clearing of written bits over a mould range (R410). -/
  | mclr (o : MClr)
  /-- HPROBE: Probes retrieval-table buckets for queries and writes ranked id lists (R377). -/
  | hprobe (o : Hprobe)
  /-- HINS: Inserts a list of rows into the buckets of a family (R378). -/
  | hins (o : Hlist)
  /-- HDEL: Deletes a list of rows from the buckets of a family (R378). -/
  | hdel (o : Hlist)
  /-- HADV: Advances the rehash cursor after earlier updates are applied (R379). -/
  | hadv (o : HslotTwo)
  /-- HSWAP: Makes family B the active family and ends the rehash (R380). -/
  | hswap (o : Hswap)
  /-- HFENCE: Waits for the group's riddle updates, optionally draining old versions (R381). -/
  | hfence (o : Hfence)
  /-- HSTAT: Writes a snapshot of a slot's live descriptor to scratchpad (R382). -/
  | hstat (o : Hstat)
  /-- HBIND: Binds or unbinds a table set to a die table slot (R375). -/
  | hbind (o : HslotTwo)
  /-- GETSR: Reads a special register into a uniform register (R137). -/
  | getsr (o : GetSr)
  /-- SETSR: Writes a special register from a uniform register (R137). -/
  | setsr (o : SetSr)
  /-- POUR: Appends a device launch to a launch queue (R346). -/
  | pour (o : Pour)
  /-- DGON: Enables store digesting, optionally clearing the digest (R461). -/
  | dgon (o : FlagOnly)
  /-- DGOFF: Disables store digesting (R461). -/
  | dgoff
  /-- DGFOLD: Sends the digest as a bound remote add (R462). -/
  | dgfold (o : DgFold)
  /-- DGCHK: Compares a digest word and traps on mismatch (R462). -/
  | dgchk (o : SrcTwo)
  /-- YIELD: Waits at a pending pre-emption of the block, else does nothing (R360). -/
  | yield
  /-- TRAP_ENTRY: Enters the handler for a trapped split once its fixed-latency results are written (R191). -/
  | trapEntry (g : Nat) (e : Nat)
  /-- SPLIT_MERGE: Two splits at the same offset with identical loop stacks merge (R62). -/
  | splitMerge (g : Nat) (e : Nat) (f : Nat)
  /-- SPLIT_PROMOTION: A candidate split whose wait count reaches 256 is promoted (R198). -/
  | splitPromotion (g : Nat) (e : Nat)
  /-- RCVW_TIMEOUT: A reconvergence wait reaches its expiry and completes with RCVF set (R177). -/
  | rcvwTimeout (g : Nat) (e : Nat)
  /-- SLEEP_EXPIRY: A SLEEP's time ends and its split becomes READY (R242). -/
  | sleepExpiry (g : Nat) (e : Nat)
  /-- WAITA_TIMEOUT: A WAITA with timeout expires without an answer (R412). -/
  | waitaTimeout (g : Nat) (e : Nat)
  /-- LOAD_COMPLETION: A load issue's destinations are all written and LCNT falls (R228). -/
  | loadCompletion (g : Nat) (k : Nat)
  /-- LADLE_PIECE: A 64-byte ladle request completes its read, decode and write (R244). -/
  | ladlePiece (core : Nat) (k : Nat) (j : Nat)
  /-- MATRIX_OP_START: The engine starts the next queued operation of a group (R257). -/
  | matrixOpStart (core : Nat)
  /-- MATRIX_OP_COMPLETION: A matrix operation completes, writing its elements and flags and lowering MCNT (R257). -/
  | matrixOpCompletion (core : Nat)
  /-- CAST_WINDOW_MESSAGE: A cast-window access message is served at the owning bank (R295). -/
  | castWindowMessage (g : Nat) (k : Nat) (j : Nat)
  /-- CAST_WINDOW_REPLY: A cast-window reply reaches the issuing core (R294). -/
  | castWindowReply (g : Nat) (k : Nat) (j : Nat)
  /-- MAILBOX_OPERATION: A mailbox applies one operation per 2.0 GHz cycle in priority order (R215). -/
  | mailboxOperation (core : Nat) (m : Nat)
  /-- CORE_CLOCK_GATE: The core gates its clock after 16 idle clk (R209). -/
  | coreClockGate (core : Nat)
  /-- CORE_WAKE: A waking event restarts a gated core and records WAKEWHY (R210). -/
  | coreWake (core : Nat) (why : BitVec 8)
  /-- GROUP_UNPARK: A parked group whose event fired is moved into the pool (R207). -/
  | groupUnpark (g : Nat)
  /-- FORCED_PARK: After 4,096 clk of waiting, a resident group of the block is parked (R207). -/
  | forcedPark (g : Nat)
  /-- PLACEMENT_DECISION: A die places the first pending cast or pre-empted block that fits (R350). -/
  | placementDecision (die : Nat)
  /-- DRAIN_RESERVATION: A cast waiting 100 us reserves a cluster for its admission (R292). -/
  | drainReservation (die : Nat)
  /-- LAUNCH_TAKE: The dispatcher takes a launch record from a queue, numbers and checks it (R341). -/
  | launchTake (q : Nat)
  /-- LAUNCH_START: The dispatcher starts the best eligible launch, handing ranges to dies (R348). -/
  | launchStart
  /-- PRIORITY_AGING: Each ms of eligible waiting raises the effective priority by one (R348). -/
  | priorityAging (l : Nat)
  /-- BLOCK_PREEMPT: A block is stopped, drained and saved into a save slot (R356). -/
  | blockPreempt (b : Nat)
  /-- DIE_END_REPORT: A die with no block of a launch left reports to the dispatching die (R343). -/
  | dieEndReport (die : Nat) (l : Nat)
  /-- COMPLETION_ARRIVAL: Each die of the mask contributes one arrival to the completion line (R343). -/
  | completionArrival (die : Nat) (l : Nat)
  /-- PAGE_WALK: The walker completes a table walk and installs a TLB entry (R324). -/
  | pageWalk (core : Nat) (asid : Nat) (va : Nat)
  /-- STALE_ACCESS_RETRY: A slice rejects an access of another generation; the lane re-walks and retries (R325). -/
  | staleAccessRetry (core : Nat) (asid : Nat) (va : Nat)
  /-- FAULT_QUEUE_APPEND: The device appends a served fault entry to the fault queue (R332). -/
  | faultQueueAppend (die : Nat) (k : Nat)
  /-- CACHE_LINE_FETCH: A cache fetches a line from the next level up (R309). -/
  | cacheLineFetch (c : CacheId) (line : Nat)
  /-- CACHE_LINE_DROP: A cache drops a clean copy (R309). -/
  | cacheLineDrop (c : CacheId) (line : Nat)
  /-- CACHE_WRITE_BACK: The dirty bytes of a word, named by its address / 8, are written back to the next level up (R309). -/
  | cacheWriteBack (c : CacheId) (word : Nat)
  /-- BUCKET_INSERT: An insert is applied to a bucket at its home under the overflow policy (R370). -/
  | bucketInsert (die : Nat) (k : Nat)
  /-- BUCKET_DELETE: A deletion empties the slots holding a row in a bucket and its chain (R371). -/
  | bucketDelete (die : Nat) (k : Nat)
  /-- BUCKET_SNAPSHOT: A probe reads a bucket with its chain as one snapshot (R385). -/
  | bucketSnapshot (die : Nat) (k : Nat)
  /-- RIDDLE_COMMAND_COMPLETION: A riddle command completes and reports by batch or phase barrier (R374). -/
  | riddleCommandCompletion (die : Nat) (k : Nat)
  /-- RADD_PACKET: A remote add packet is applied at its home (R402). -/
  | raddPacket (p : Nat)
  /-- RMIN_PACKET: A remote minimum packet is applied at its home (R402). -/
  | rminPacket (p : Nat)
  /-- RMAX_PACKET: A remote maximum packet is applied at its home (R402). -/
  | rmaxPacket (p : Nat)
  /-- ROR_PACKET: A remote OR packet is applied at its home (R402). -/
  | rorPacket (p : Nat)
  /-- RWO_PACKET: A write-once packet is applied to a mould granule (R403). -/
  | rwoPacket (p : Nat)
  /-- RARR_PACKET: An arrival packet without data is counted on its line (R404). -/
  | rarrPacket (p : Nat)
  /-- CRADD_PACKET: A crucible contribution is applied by CrucibleAdd (R41). -/
  | craddPacket (p : Nat)
  /-- RGET_REQUEST: The source home reads the bytes and sends a reply (R405). -/
  | rgetRequest (p : Nat)
  /-- RGET_REPLY: An RGET reply writes granules into the requester's mould (R405). -/
  | rgetReply (p : Nat)
  /-- LADLE_PIECE_PACKET: A bound LSCAT or TSEND piece is applied at its home (R408). -/
  | ladlePiecePacket (p : Nat)
  /-- TSEND_SIGNAL: A TSEND signal counts one arrival on a line (R457). -/
  | tsendSignal (p : Nat)
  /-- CHECKPOINT_FRAME: A checkpoint frame is written once into the safe region (R465). -/
  | checkpointFrame (p : Nat)
  /-- CHECKPOINT_MARK: A checkpoint mark counts an unsent frame (R465). -/
  | checkpointMark (p : Nat)
  /-- ARRINIT_PACKET: The home initialises an arrival line and clears its tag array (R410). -/
  | arrinitPacket (p : Nat)
  /-- CRCLR_PACKET: The home zeroes a crucible line (R410). -/
  | crclrPacket (p : Nat)
  /-- MCLR_PACKET: The home clears written bits over a mould range (R410). -/
  | mclrPacket (p : Nat)
  /-- WAITA_WATCH: A remote home watches a line and answers when the condition holds (R412). -/
  | waitaWatch (p : Nat)
  /-- ARRST_READ: A remote home answers a line status read (R413). -/
  | arrstRead (p : Nat)
  /-- RESPONSE_ACKNOWLEDGED: An acknowledgement clears the matching packet at the sender (R415). -/
  | responseAcknowledged (p : Nat)
  /-- RESPONSE_RETRY_LATER: A retry-later answer doubles the packet's wait (R417). -/
  | responseRetryLater (p : Nat)
  /-- RESPONSE_STALE: A stale answer makes the sender re-translate and resend (R417). -/
  | responseStale (p : Nat)
  /-- RESPONSE_REJECT: A reject answer records REMOTE_REJECT with its reason (R418). -/
  | responseReject (p : Nat)
  /-- RESPONSE_LINE_ANSWER: A line answer ends a remote WAITA or ARRST (R412). -/
  | responseLineAnswer (p : Nat)
  /-- RETRANSMIT_TIMEOUT: A packet's wait passes and it is sent again, or fails after LIMIT attempts (R416). -/
  | retransmitTimeout (p : Nat)
  /-- FRAME_RECEIVE: A port receives a frame, dropping it or forwarding it to the home die (R453). -/
  | frameReceive (port : Nat) (f : Frame)
  /-- NVME_COMPLETION: An SSD completion entry is taken and counted on the command's line (R437). -/
  | nvmeCompletion (pair : Nat) (entry : BitVec 128)
  /-- CHECKPOINT_CUT: A die takes its checkpoint cut, writing back caches and reading dirty bits (R465). -/
  | checkpointCut (die : Nat)
  /-- CHECKPOINT_STREAM: The checkpoint engine sends a frame or mark for one frame (R465). -/
  | checkpointStream (die : Nat)
  /-- DBELL_WRITE: A host doorbell write wakes a core (R427). -/
  | dbellWrite (core : Nat)
  /-- QDOOR_WRITE: A queue doorbell write makes the dispatcher read TAIL (R344). -/
  | qdoorWrite (q : Nat)
  /-- MAILBOX_CLR: Writing CLR empties a mailbox ring (R217). -/
  | mailboxClr (core : Nat) (m : Nat)
  /-- GENSET_WRITE: Publishes a new generation of an ASID to every die (R326). -/
  | gensetWrite (die : Nat) (v : Word)
  /-- GENSET_COMPLETE: A publication completes and BUSY clears (R326). -/
  | gensetComplete (die : Nat)
  /-- FLTDONE_WRITE: The fault service answers a fault entry with a verdict (R334). -/
  | fltdoneWrite (die : Nat) (v : Word)
  /-- HSLOT_UNBIND: Writing UNBIND unbinds a table slot (R362). -/
  | hslotUnbind (die : Nat) (n : Nat)
  /-- PREEMPT_GO: Pre-empts every placed block of a launch on the die (R355). -/
  | preemptGo (die : Nat) (pour : BitVec 32)
  /-- PREEMPT_HOLD: With GO, holds the launch's blocks off the die (R355). -/
  | preemptHold (die : Nat) (pour : BitVec 32)
  /-- PREEMPT_RELEASE: Lets a held launch be placed again (R355). -/
  | preemptRelease (die : Nat) (pour : BitVec 32)
  /-- HFLUSH_WRITE: Starts a package-wide write-back of an ASID's dirty bytes (R431). -/
  | hflushWrite (die : Nat) (v : Word)
  /-- HFLUSH_COMPLETE: The write-back ends and BUSY clears (R431). -/
  | hflushComplete (die : Nat)
  /-- WATCH_ARM: Arming a watch slot evaluates it at once (R432). -/
  | watchArm (w : Nat) (v : Word)
  /-- DIE_DRAIN: Setting DRAIN pre-empts the die's blocks and passes its work on (R440). -/
  | dieDrain (die : Nat)
  /-- DIE_UNDRAIN: Clearing DRAIN returns the die to placement (R440). -/
  | dieUndrain (die : Nat)
  /-- FIRMWARE_SWITCH: Switches to staged firmware if its check passes (R441). -/
  | firmwareSwitch (die : Nat)
  /-- LINK_WITHDRAW: Withdraws or returns a mesh link for recalibration (R441). -/
  | linkWithdraw (die : Nat) (links : BitVec 4)
  /-- SPLIT_MODE_WRITE: Writes host-assisted mode bits, pending until idle (R443). -/
  | splitModeWrite (die : Nat) (v : Word)
  /-- MODE_CHANGE_EFFECT: A pending mode change takes effect when its function is idle (R443). -/
  | modeChangeEffect (die : Nat) (n : Nat)
  /-- PLCORE_WRITE: The host chooses cores for the head of pending work (R443). -/
  | plcoreWrite (die : Nat) (v : Word)
  /-- ERRVERD_WRITE: The host writes an error verdict in host-assisted classification (R443). -/
  | errverdWrite (die : Nat) (v : Word)
  /-- REGISTER_WRITE: A write to an MMIO register without behaviour of its own (R307). -/
  | registerWrite (die : Nat) (off : Nat) (v : Word)
  /-- HOST_APERTURE_ACCESS: A host or peer request through BAR2 is performed at the home slice (R428): a write of its data, or with none a
  read of the aligned 8-byte word. -/
  | hostApertureAccess (endpoint : Nat) (off : Nat) (data : List Byte)
  /-- SOFT_ERROR: A storage error is detected, corrected or poisoned, and logged (R221). -/
  | softError (u : StorageUnit) (fatal : Bool)
  /-- SCRUB: Periodic scrubbing corrects single-bit errors in die memory (R336). -/
  | scrub (addr : Nat)
  /-- SELF_TEST: A targeted self-test of a unit ends with a verdict (R442). -/
  | selfTest (u : TestUnit) (pass : Bool)
  /-- LINK_STATE_CHANGE: A fabric port link trains or goes down (R447). -/
  | linkStateChange (port : Nat) (up : Bool)
  /-- SERVICE_LEVEL_RISE: The package service level rises during bring-up (R438). -/
  | serviceLevelRise
  /-- THERMAL_STEP: A die's core clock steps down or up with junction temperature (R444). -/
  | thermalStep (die : Nat) (up : Bool)
  /-- FIXED_LATENCY_RESULT: A fixed-latency result (lane ALU, uniform ALU, divider, special function, cross-lane) is written to its register latency clk after issue, clearing the pending write (R185). -/
  | fixedLatencyResult (g : Nat) (k : Nat)
  /-- MESH_PACKET_DROP: A mesh packet or acknowledgement is dropped by a CRC failure, a full input buffer or a withdrawn link (R391). -/
  | meshPacketDrop (p : Nat) (resp : Bool)
  /-- DIE_RESET: A die is reset, clearing its locks, table-slot versions, CYC and (via firmware) retirement records (R223). -/
  | dieReset (die : Nat)
  /-- PACKAGE_RESET: The package is reset: every slice holds generation 0 for every ASID and the pour-id count restarts (R326). -/
  | packageReset
  /-- PCIE_LINK_STATE_CHANGE: A host PCIe x16 link trains up or goes down (R426). -/
  | pcieLinkStateChange (endpoint : Nat) (up : Bool)
deriving DecidableEq, Repr, Inhabited

/-- A prefix word's fields (R76): the rounding mode code, the saturation code and the flush bit. -/
structure Prefix where (rm : BitVec 3) (sat : BitVec 2) (ftz : Bool) deriving DecidableEq, Repr, Inhabited

/-- A whole instruction as it stands in code: an optional prefix, the stall count W and the instruction (R70, R83). -/
structure Coded where (pre : Option Prefix) (w : BitVec 2) (instr : Instr) deriving DecidableEq, Repr, Inhabited

end Sys2Proof
end

