-- ==== Sys2Proof/WellFormed.lean ====
section
/-! DEFINITION. Which instructions are well formed: the type codes, field limits and field combinations that the
instruction chapters allow (spec/03_instruction_encoding.md R77 to R82 and each instruction's own table). -/

namespace Sys2Proof

/-- The sub-element width in bits (R79). -/
def Elem.w : Elem → Nat
  | .i64 | .n64 | .f64 => 64
  | .i32 | .n32 | .f32 => 32
  | .i16 | .n16 | .f16 | .bf16 => 16
  | .i8 | .n8 | .e4m3 | .e5m2 => 8

/-- The number of sub-elements of a 64-bit register (R13, R114). -/
def Elem.n (e : Elem) : Nat := 64 / e.w

/-- An integer type, I or N (R79). -/
def Elem.isInt : Elem → Bool
  | .i64 | .n64 | .i32 | .n32 | .i16 | .n16 | .i8 | .n8 => true
  | _ => false

/-- A signed integer type (R79). -/
def Elem.isSigned : Elem → Bool
  | .i64 | .i32 | .i16 | .i8 => true
  | _ => false

/-- An arithmetic type of the lane pipe (R139). -/
def Elem.isArithFp : Elem → Bool
  | .f64 | .f32 | .f16 | .bf16 => true
  | _ => false

/-- Any floating-point type (R147). -/
def Elem.isFp (e : Elem) : Bool := !e.isInt

/-- An operand type of FDOT (R141). -/
def Elem.isDotFp : Elem → Bool
  | .f32 | .f16 | .bf16 | .e4m3 | .e5m2 => true
  | _ => false

/-- An operand type of MMA and OADD (R259). -/
def Elem.isMma : Elem → Bool
  | .f16 | .bf16 | .i8 | .e4m3 | .e5m2 => true
  | _ => false

/-- A narrow type of MSTS (R268). -/
def Elem.isNarrow : Elem → Bool
  | .i16 | .n16 | .f16 | .bf16 | .i8 | .n8 | .e4m3 | .e5m2 => true
  | _ => false

/-- A sub-element index lies below n (R114). -/
def MovMode.fits (n : Nat) : MovMode → Bool
  | .copy => true
  | .ext j => decide (j.toNat < n)
  | .ins j => decide (j.toNat < n)

/-- A sub-element index lies below n (R114). -/
def MovSMode.fits (n : Nat) : MovSMode → Bool
  | .copy => true
  | .splat j => decide (j.toNat < n)

/-- The limit of POS (R148); where the conversion does not narrow, B is unused (R80). -/
def LaneCvt.posOk (o : LaneCvt) : Bool :=
  if o.e.w < o.s.w then decide (o.pos.toNat < o.s.w / o.e.w / 2)
  else if o.s.w < o.e.w then decide (o.pos.toNat < o.e.w / o.s.w) && o.b == 0
  else o.pos == 0 && o.b == 0

/-- The types an operator of VRED and VSCAN accepts (R155). -/
def redOk (op : RedOp) (e : Elem) : Bool :=
  e.isInt || (e.isArithFp && (op == .add || op == .min || op == .max))

/-- The orders of a load (R225). -/
def Order.okLoad : Order → Bool
  | .none | .acq => true
  | _ => false

/-- The orders of a store (R225). -/
def Order.okStore : Order → Bool
  | .none | .rel => true
  | _ => false

/-- PAIR requires T = 10 and an even D (R225). -/
def ScrAcc.pairOk (o : ScrAcc) : Bool := !o.pair || (o.t == .w64 && o.d.getLsbD 0 == false)

/-- X of an atomic is the signedness of min and max alone (R131, R225). -/
def AtomOp.xOk (op : AtomOp) (x : Bool) : Bool := !x || op == .min || op == .max

def LaneAtom.xOk (o : LaneAtom) : Bool := o.op.xOk o.x
def ScrAtom.xOk (o : ScrAtom) : Bool := o.op.xOk o.x
def WinAtom.xOk (o : WinAtom) : Bool := o.op.xOk o.x
def UniAtom.xOk (o : UniAtom) : Bool := o.op.xOk o.x

/-- A binding pair's register is not s255 (R394). -/
def Remote.bindOk (o : Remote) : Bool := o.bind != some 255

/-- A remote operation that must be bound (R393). -/
def Remote.bound (o : Remote) : Bool := o.bind.isSome && o.bindOk

/-- Fragment bases are multiples of 4, and BX goes with an 8-bit floating type (R255, R259). -/
def Mma.ok (o : Mma) : Bool :=
  o.e.isMma && o.va.toNat % 4 == 0 && o.vb.toNat % 4 == 0 && (!o.bx || o.e == .e4m3 || o.e == .e5m2)

/-- As `Mma.ok` for OADD (R259). -/
def Oadd.ok (o : Oadd) : Bool := o.e.isMma && o.va.toNat % 4 == 0

/-- The types of MSTS (R268). -/
def TileSts.ok (o : TileSts) : Bool := o.e.isNarrow

/-- The prefix classes of R81. -/
inductive PrefixClass where
  | intArith | fp | special | matrix | uni
deriving DecidableEq, Repr

/-- Which prefix fields a class may carry (R81). -/
def PrefixClass.allows (c : PrefixClass) (p : Prefix) : Bool :=
  decide (p.sat.toNat ≤ 2) && match c with
    | .intArith | .uni => p.rm == 0 && !p.ftz
    | .fp | .special | .matrix => decide (p.rm.toNat ≤ 5)


/-- An instruction's operands lie within the limits its chapter states; events have none. -/
def Instr.wf : Instr → Bool
  | .vaddShort _ => true
  | .vsubShort _ => true
  | .vaddi _ => true
  | .vmulShort _ => true
  | .vandShort _ => true
  | .vorShort _ => true
  | .vxorShort _ => true
  | .vshli _ => true
  | .vshri _ => true
  | .vsrai _ => true
  | .vminShort _ => true
  | .vmaxShort _ => true
  | .vadds _ => true
  | .vmuls _ => true
  | .faddShort _ => true
  | .fsubShort _ => true
  | .fmulShort _ => true
  | .fadds _ => true
  | .fmuls _ => true
  | .fminShort _ => true
  | .fmaxShort _ => true
  | .ffmaShort _ => true
  | .ldsShort _ => true
  | .stsShort _ => true
  | .vmovsShort _ => true
  | .smovShort _ => true
  | .saddShort _ => true
  | .ssubShort _ => true
  | .smulShort _ => true
  | .sandShort _ => true
  | .sorShort _ => true
  | .sxorShort _ => true
  | .sshlShort _ => true
  | .sshrShort _ => true
  | .ssraShort _ => true
  | .sminShort _ => true
  | .smaxShort _ => true
  | .sminn _ => true
  | .smaxn _ => true
  | .scmpShort _ => true
  | .brs _ => true
  | .msave _ => true
  | .mload _ => true
  | .mand _ => true
  | .mandn _ => true
  | .mor _ => true
  | .mxor _ => true
  | .waitcntShort _ => true
  | .bwaitShort _ => true
  | .bcloseShort _ => true
  | .mwaitShort _ => true
  | .nop => true
  | .vadd o => o.e.isInt
  | .vsub o => o.e.isInt
  | .vmul o => o.e.isInt
  | .vmulh o => o.e.isInt
  | .vmad o => o.e.isInt
  | .vand o => o.e.isInt
  | .vor o => o.e.isInt
  | .vxor o => o.e.isInt
  | .vnot o => o.e.isInt
  | .vshl o => o.e.isInt
  | .vshr o => o.e.isInt
  | .vsra o => o.e.isInt
  | .vrot o => o.e.isInt
  | .vmin o => o.e.isInt
  | .vmax o => o.e.isInt
  | .vabs o => o.e.isSigned
  | .vneg o => o.e.isInt
  | .vclz o => o.e.isInt
  | .vpopc o => o.e.isInt
  | .vbrev o => o.e.isInt
  | .vbfx o => o.e.isInt
  | .vbfi o => o.e.isInt
  | .vsel o => o.e.isInt
  | .vcmp o => o.e.isInt
  | .vcmpv o => o.e.isInt
  | .vmov o => o.e.isInt && o.mode.fits o.e.n
  | .vmovs o => o.e.isInt && o.mode.fits o.e.n
  | .vidx o => o.e.isInt
  | .vpack o => o.e.isInt && o.e.w != 64
  | .vunpk o => o.e.isInt
  | .fadd o => o.e.isArithFp
  | .fsub o => o.e.isArithFp
  | .fmul o => o.e.isArithFp
  | .ffma o => o.e.isArithFp
  | .fmin o => o.e.isArithFp
  | .fmax o => o.e.isArithFp
  | .fabs o => o.e.isArithFp
  | .fneg o => o.e.isArithFp
  | .fcmp o => o.e.isArithFp
  | .fcmpv o => o.e.isArithFp
  | .fclass o => o.e.isArithFp
  | .fscale o => o.e.isArithFp
  | .frnd o => o.e.isArithFp
  | .fcvt o => o.e.isFp && o.s.isFp && o.e != o.s && !o.x && o.posOk
  | .icvt o => o.e.isFp && o.s.isInt && !o.x && o.posOk
  | .ftoi o => o.e.isInt && o.s.isFp && o.posOk
  | .fdot o => o.e.isDotFp
  | .frcp o => o.e == .f32
  | .frsq o => o.e == .f32
  | .fexp2 o => o.e == .f32
  | .flog2 o => o.e == .f32
  | .fsin o => o.e == .f32
  | .fcos o => o.e == .f32
  | .ftanh o => o.e == .f32
  | .vshf o => o.e.isInt
  | .vshfi o => o.e.isInt
  | .qswp _ => true
  | .qbc _ => true
  | .vbal o => o.e.isInt
  | .vvote o => o.e.isInt
  | .vred o => redOk o.op o.e
  | .vscan o => redOk o.op o.e
  | .vconf _ => true
  | .visect o => o.d != 255
  | .vtopk o => o.e == .i32 || o.e == .n32 || o.e == .f32
  | .vmrank _ => true
  | .ld o => o.ord.okLoad && !(o.x && o.t == .w64)
  | .st o => o.ord.okStore && !o.x
  | .lds o => o.pairOk && o.ord.okLoad && !(o.x && o.t == .w64)
  | .sts o => o.pairOk && o.ord.okStore && !o.x
  | .ldc o => o.pairOk && o.ord.okLoad && !(o.x && o.t == .w64)
  | .stc o => o.pairOk && o.ord.okStore && !o.x
  | .atom o => o.xOk
  | .atoms o => o.xOk && !(o.chk && o.c == 255)
  | .atomc o => o.xOk
  | .ldf o => !(o.x && o.t == .w64)
  | .radd o => o.e.isInt && (o.e.w == 32 || o.e.w == 64) && o.bound
  | .rmin o => (o.e.isInt || o.e.isArithFp) && (o.e.w == 32 || o.e.w == 64) && o.bindOk
  | .rmax o => (o.e.isInt || o.e.isArithFp) && (o.e.w == 32 || o.e.w == 64) && o.bindOk
  | .ror o => o.e.isInt && (o.e.w == 32 || o.e.w == 64) && o.bindOk
  | .rwo o => o.e.isInt && o.e.w == 64 && o.bindOk
  | .rarr o => o.b != 255
  | .rget o => o.b != 255
  | .cradd o => (o.e.isArithFp || o.e == .i64) && o.bound
  | .crrd o => o.e == .f32 || o.e == .f64
  | .mma o => o.ok
  | .oadd o => o.ok
  | .mld _ => true
  | .mst _ => true
  | .mzero _ => true
  | .hpack o => decide (4 ≤ o.k.toNat) && decide (o.k.toNat ≤ 22)
  | .msts o => o.ok
  | .plsetv _ => true
  | .plget _ => true
  | .sadd o => o.e.isInt && (o.e.w == 32 || o.e.w == 64)
  | .ssub o => o.e.isInt && (o.e.w == 32 || o.e.w == 64)
  | .smul o => o.e.isInt && (o.e.w == 32 || o.e.w == 64)
  | .smulh o => o.e.isInt && (o.e.w == 32 || o.e.w == 64)
  | .sdiv o => o.e.isInt && (o.e.w == 32 || o.e.w == 64)
  | .srem o => o.e.isInt && (o.e.w == 32 || o.e.w == 64)
  | .sand o => o.e.isInt && (o.e.w == 32 || o.e.w == 64)
  | .sor o => o.e.isInt && (o.e.w == 32 || o.e.w == 64)
  | .sxor o => o.e.isInt && (o.e.w == 32 || o.e.w == 64)
  | .snot o => o.e.isInt && (o.e.w == 32 || o.e.w == 64)
  | .sshl o => o.e.isInt && (o.e.w == 32 || o.e.w == 64)
  | .sshr o => o.e.isInt && (o.e.w == 32 || o.e.w == 64)
  | .ssra o => o.e.isInt && (o.e.w == 32 || o.e.w == 64)
  | .smin o => o.e.isInt && (o.e.w == 32 || o.e.w == 64)
  | .smax o => o.e.isInt && (o.e.w == 32 || o.e.w == 64)
  | .sclz o => o.e.isInt && (o.e.w == 32 || o.e.w == 64)
  | .sctz o => o.e.isInt && (o.e.w == 32 || o.e.w == 64)
  | .spopc o => o.e.isInt && (o.e.w == 32 || o.e.w == 64)
  | .sbfx o => o.e.isInt && (o.e.w == 32 || o.e.w == 64)
  | .sbfi o => o.e.isInt && (o.e.w == 32 || o.e.w == 64)
  | .ssel o => o.e.isInt && (o.e.w == 32 || o.e.w == 64)
  | .scmp o => o.e.isInt && (o.e.w == 32 || o.e.w == 64)
  | .smov o => o.e.isInt && (o.e.w == 32 || o.e.w == 64)
  | .smovi _ => true
  | .sinsi _ => true
  | .sld o => o.ord.okLoad
  | .sst o => o.ord.okStore && !o.x
  | .satom o => o.xOk && o.op != .fadd
  | .br _ => true
  | .brd _ => true
  | .jmp _ => true
  | .jmpr _ => true
  | .call _ => true
  | .callr _ => true
  | .ret _ => true
  | .loop o => decide (0 < o.disp.toInt)
  | .lbreak _ => true
  | .rcv _ => true
  | .rcvw _ => true
  | .exit => true
  | .trap _ => true
  | .tret => true
  | .plset _ => true
  | .plmask _ => true
  | .mskop _ => true
  | .qhlp => true
  | .waitcnt _ => true
  | .bclose _ => true
  | .bwait _ => true
  | .mwait _ => true
  | .bar _ => true
  | .cbar _ => true
  | .barv _ => true
  | .bwaitp _ => true
  | .fence _ => true
  | .fencee => true
  | .waita _ => true
  | .arrst o => o.d != 255
  | .rflush => true
  | .mbsend _ => true
  | .mbrecv _ => true
  | .mbpush _ => true
  | .mbpop _ => true
  | .mbsteal _ => true
  | .sleep _ => true
  | .ltile o => decide (o.a.toNat ≤ 248)
  | .lgath o => decide (o.a.toNat ≤ 248)
  | .lscat o => decide (o.a.toNat ≤ 248)
  | .lcbld _ => true
  | .tsend o => decide (o.a.toNat ≤ 248)
  | .sload o => decide (o.a.toNat ≤ 253) && o.b != 255
  | .sstore o => decide (o.a.toNat ≤ 253) && o.b != 255
  | .ckpt o => decide (o.a.toNat ≤ 252)
  | .spec _ => true
  | .spcommit _ => true
  | .spdrop _ => true
  | .tfset _ => true
  | .arrinit _ => true
  | .crclr _ => true
  | .mclr _ => true
  | .hprobe o => decide (o.a.toNat ≤ 252)
  | .hins _ => true
  | .hdel _ => true
  | .hadv _ => true
  | .hswap _ => true
  | .hfence _ => true
  | .hstat _ => true
  | .hbind _ => true
  | .getsr _ => true
  | .setsr _ => true
  | .pour _ => true
  | .dgon _ => true
  | .dgoff => true
  | .dgfold o => o.b != 255
  | .dgchk _ => true
  | .yield => true
  | .trapEntry _ _ => true
  | .splitMerge _ _ _ => true
  | .splitPromotion _ _ => true
  | .rcvwTimeout _ _ => true
  | .sleepExpiry _ _ => true
  | .waitaTimeout _ _ => true
  | .loadCompletion _ _ => true
  | .ladlePiece _ _ _ => true
  | .matrixOpStart _ => true
  | .matrixOpCompletion _ => true
  | .castWindowMessage _ _ _ => true
  | .castWindowReply _ _ _ => true
  | .mailboxOperation _ _ => true
  | .coreClockGate _ => true
  | .coreWake _ _ => true
  | .groupUnpark _ => true
  | .forcedPark _ => true
  | .placementDecision _ => true
  | .drainReservation _ => true
  | .launchTake _ => true
  | .launchStart => true
  | .priorityAging _ => true
  | .blockPreempt _ => true
  | .dieEndReport _ _ => true
  | .completionArrival _ _ => true
  | .pageWalk _ _ _ => true
  | .staleAccessRetry _ _ _ => true
  | .faultQueueAppend _ _ => true
  | .cacheLineFetch _ _ => true
  | .cacheLineDrop _ _ => true
  | .cacheWriteBack _ _ => true
  | .bucketInsert _ _ => true
  | .bucketDelete _ _ => true
  | .bucketSnapshot _ _ => true
  | .riddleCommandCompletion _ _ => true
  | .raddPacket _ => true
  | .rminPacket _ => true
  | .rmaxPacket _ => true
  | .rorPacket _ => true
  | .rwoPacket _ => true
  | .rarrPacket _ => true
  | .craddPacket _ => true
  | .rgetRequest _ => true
  | .rgetReply _ => true
  | .ladlePiecePacket _ => true
  | .tsendSignal _ => true
  | .checkpointFrame _ => true
  | .checkpointMark _ => true
  | .arrinitPacket _ => true
  | .crclrPacket _ => true
  | .mclrPacket _ => true
  | .waitaWatch _ => true
  | .arrstRead _ => true
  | .responseAcknowledged _ => true
  | .responseRetryLater _ => true
  | .responseStale _ => true
  | .responseReject _ => true
  | .responseLineAnswer _ => true
  | .retransmitTimeout _ => true
  | .frameReceive _ _ => true
  | .nvmeCompletion _ _ => true
  | .checkpointCut _ => true
  | .checkpointStream _ => true
  | .dbellWrite _ => true
  | .qdoorWrite _ => true
  | .mailboxClr _ _ => true
  | .gensetWrite _ _ => true
  | .gensetComplete _ => true
  | .fltdoneWrite _ _ => true
  | .hslotUnbind _ _ => true
  | .preemptGo _ _ => true
  | .preemptHold _ _ => true
  | .preemptRelease _ _ => true
  | .hflushWrite _ _ => true
  | .hflushComplete _ => true
  | .watchArm _ _ => true
  | .dieDrain _ => true
  | .dieUndrain _ => true
  | .firmwareSwitch _ => true
  | .linkWithdraw _ _ => true
  | .splitModeWrite _ _ => true
  | .modeChangeEffect _ _ => true
  | .plcoreWrite _ _ => true
  | .errverdWrite _ _ => true
  | .registerWrite _ _ _ => true
  | .hostApertureAccess _ _ _ => true
  | .softError _ _ => true
  | .scrub _ => true
  | .selfTest _ _ => true
  | .linkStateChange _ _ => true
  | .serviceLevelRise => true
  | .thermalStep _ _ => true
  | .fixedLatencyResult _ _ => true
  | .meshPacketDrop _ _ => true
  | .dieReset _ => true
  | .packageReset => true
  | .pcieLinkStateChange _ _ => true

end Sys2Proof
end

