-- ==== Sys2Proof/Machine/Bits.lean ====
section
/-! DEFINITION. Bits, sub-elements, lane masks, sorted tables and the check functions: the helpers of spec/00_scope.md
R6 to R8 and of spec/01_number_formats.md R14, R43 and R44. -/

namespace Sys2Proof.Machine

/-! ### Tables: plain data keyed by a number, in one canonical form -/

/-- A table keyed by numbers; in canonical form its keys rise strictly and it lists no default value. -/
abbrev Tab (α : Type) := List (Nat × α)

/-- The value listed at a key, if any. -/
def Tab.find? {α : Type} : Tab α → Nat → Option α
  | [], _ => none
  | (k, v) :: t, i => if k = i then some v else Tab.find? t i

/-- The table without a key. -/
def Tab.erase {α : Type} : Tab α → Nat → Tab α
  | [], _ => []
  | (k, v) :: t, i => if k = i then Tab.erase t i else (k, v) :: Tab.erase t i

/-- The table with a key listed, at its place in the order of keys. -/
def Tab.insert {α : Type} : Tab α → Nat → α → Tab α
  | [], i, x => [(i, x)]
  | (k, v) :: t, i, x =>
    if i < k then (i, x) :: (k, v) :: t
    else if i = k then (i, x) :: t
    else (k, v) :: Tab.insert t i x

/-- The value at a key, where an unlisted key holds d. -/
def Tab.getD {α : Type} (t : Tab α) (d : α) (i : Nat) : α := (t.find? i).getD d

/-- The table after a write at a key, where an unlisted key holds d: writing d removes the entry. -/
def Tab.setD {α : Type} [DecidableEq α] (t : Tab α) (d : α) (i : Nat) (x : α) : Tab α :=
  if x = d then t.erase i else t.insert i x

/-- Changes the value at a key that is listed. -/
def Tab.modify {α : Type} : Tab α → Nat → (α → α) → Tab α
  | [], _, _ => []
  | (k, v) :: t, i, f => if k = i then (k, f v) :: t else (k, v) :: Tab.modify t i f

/-- The first listed entry for which f holds. -/
def Tab.first? {α : Type} : Tab α → (Nat → α → Bool) → Option (Nat × α)
  | [], _ => none
  | (k, v) :: t, f => if f k v then some (k, v) else Tab.first? t f

/-- The keys, in order. -/
def Tab.keys {α : Type} (t : Tab α) : List Nat := t.map (·.1)

/-- Keys rise strictly. -/
def Tab.sorted {α : Type} : Tab α → Bool
  | [] => true
  | (k, _) :: t => (match t with | [] => true | (k', _) :: _ => decide (k < k')) && Tab.sorted t

/-- The canonical form: keys rise strictly and the default value d is not listed. -/
def Tab.wf {α : Type} [DecidableEq α] (d : α) (t : Tab α) : Bool := Tab.sorted t && t.all fun p => decide (p.2 ≠ d)

/-- Puts an element before the first one that does not come before it. -/
def insertBy {α : Type} (le : α → α → Bool) (x : α) : List α → List α
  | [] => [x]
  | y :: ys => if le x y then x :: y :: ys else y :: insertBy le x ys

/-- A list sorted by an order. -/
def sortBy {α : Type} (le : α → α → Bool) : List α → List α
  | [] => []
  | x :: xs => insertBy le x (sortBy le xs)

/-! ### Masks -/

/-- The lanes of a mask, in ascending order (R7). -/
def lanesOf (m : Mask) : List Nat := (List.range 32).filter fun i => m.getLsbD i

/-- The mask of one lane. -/
def laneBit (i : Nat) : Mask := 1#32 <<< i

/-- Below(i): the mask of lanes 0 to i-1 (R8). -/
def belowMask (i : Nat) : Mask := BitVec.ofNat 32 (2 ^ i - 1)

/-- The mask of the lanes for which f holds. -/
def maskOf (f : Nat → Bool) : Mask :=
  (List.range 32).foldl (fun m i => if f i then m ||| laneBit i else m) 0

/-- Popcount (R8), on the low n bits. -/
def popcountNat (n x : Nat) : Nat := (List.range n).foldl (fun c i => if x.testBit i then c + 1 else c) 0

/-- Popcount of a lane mask. -/
def popMask (m : Mask) : Nat := popcountNat 32 m.toNat

/-- The lowest lane of a mask; 32 when it is empty. -/
def lowest (m : Mask) : Nat := (lanesOf m).headD 32

/-! ### Numbers and sub-elements -/

/-- Sext(x, n): the low n bits read as two's complement (R8). -/
def sext (n x : Nat) : Int :=
  let y := x % 2 ^ n
  if n ≠ 0 ∧ 2 ^ (n - 1) ≤ y then (y : Int) - (2 ^ n : Nat) else y

/-- The low n bits of an integer (R7). -/
def wrapNat (n : Nat) (x : Int) : Nat := (x % (2 ^ n : Nat)).toNat

/-- A 64-bit word that holds an integer modulo 2^64. -/
def wordOfInt (x : Int) : Word := BitVec.ofInt 64 x

/-- Sub-element j of width w (R6, R48). -/
def elemAt (w j : Nat) (x : Word) : Nat := (x.toNat >>> (w * j)) % 2 ^ w

/-- The word whose sub-element j of width w is the low w bits of f j (R6, R48). -/
def packElems (w : Nat) (f : Nat → Nat) : Word :=
  BitVec.ofNat 64 ((List.range (64 / w)).foldl (fun a j => a ||| ((f j % 2 ^ w) <<< (w * j))) 0)

/-- A word with sub-element j of width w replaced. -/
def setElem (w j : Nat) (x : Word) (v : Nat) : Word :=
  packElems w fun k => if k = j then v else elemAt w k x

/-- A sub-element read as its integer type says. -/
def readInt (signed : Bool) (w v : Nat) : Int := if signed then sext w v else ((v % 2 ^ w : Nat) : Int)

/-- RotL on 64 bits (R8). -/
def rotL64 (x : Word) (n : Nat) : Word := x.rotateLeft (n % 64)

/-- The saturation settings of a prefix (R14, R20). -/
inductive Sat where
  | off | quiet | flagged
deriving DecidableEq, Repr, Inhabited

/-- Fit (R14, R111): the w-bit result of an exact integer, wrapped, or clamped to the range of the format; and whether it was clamped. -/
def fit (signed : Bool) (w : Nat) (sat : Sat) (x : Int) : Nat × Bool :=
  if sat = .off then (wrapNat w x, false)
  else
    let hi : Int := if signed then ((2 ^ (w - 1) : Nat) : Int) - 1 else ((2 ^ w : Nat) : Int) - 1
    let lo : Int := if signed then -((2 ^ (w - 1) : Nat) : Int) else 0
    if hi < x then (wrapNat w hi, true)
    else if x < lo then (wrapNat w lo, true)
    else (wrapNat w x, false)

/-- The number of leading zero bits of a w-bit value. -/
def clz (w v : Nat) : Nat := if v = 0 then w else w - 1 - Nat.log2 v

/-- The number of trailing zero bits of a w-bit value. -/
def ctz (w v : Nat) : Nat := ((List.range w).find? fun i => v.testBit i).getD w

/-- The bits of a w-bit value in reverse order. -/
def bitRev (w v : Nat) : Nat :=
  (List.range w).foldl (fun a i => if v.testBit i then a ||| (1 <<< (w - 1 - i)) else a) 0

/-- Bits [h:l] of a number (R7). -/
def bits (x h l : Nat) : Nat := (x >>> l) % 2 ^ (h + 1 - l)

/-- Bits [h:l] of a word. -/
def wbits (x : Word) (h l : Nat) : Nat := bits x.toNat h l

/-- The low half of a word as a lane mask. -/
def maskLow (x : Word) : Mask := x.setWidth 32

/-! ### Bytes -/

/-- Byte k of a number, in little-endian order (R6). -/
def byteAt (x k : Nat) : Byte := BitVec.ofNat 8 (x >>> (8 * k))

/-- The n little-endian bytes of a number (R6). -/
def bytesOf (n x : Nat) : List Byte := (List.range n).map (byteAt x)

/-- The number that little-endian bytes hold (R6). -/
def ofBytes : List Byte → Nat
  | [] => 0
  | b :: bs => b.toNat + 256 * ofBytes bs

/-! ### Mixing and check functions -/

/-- Mix64 (R43). -/
def mix64 (z : Word) : Word :=
  let z := z ^^^ (z >>> 30)
  let z := z * 0xBF58476D1CE4E5B9#64
  let z := z ^^^ (z >>> 27)
  let z := z * 0x94D049BB133111EB#64
  z ^^^ (z >>> 31)

/-- One bit of CRC-32C (R44). -/
def crcBit (c : BitVec 32) : BitVec 32 := if c.getLsbD 0 then (c >>> 1) ^^^ 0x82F63B78#32 else c >>> 1

/-- One byte of CRC-32C (R44). -/
def crcByte (c : BitVec 32) (b : Byte) : BitVec 32 :=
  let c := c ^^^ b.setWidth 32
  crcBit (crcBit (crcBit (crcBit (crcBit (crcBit (crcBit (crcBit c)))))))

/-- Crc32c of a byte sequence (R44). -/
def crc32c (bs : List Byte) : BitVec 32 := (bs.foldl crcByte 0xFFFFFFFF#32) ^^^ 0xFFFFFFFF#32

end Sys2Proof.Machine
end

