-- ==== Sys2Proof/Machine/Float.lean ====
section
/-! DEFINITION. Floating point: the formats of spec/01_number_formats.md R15 to R17, the rounding of R18 to R26 on exact dyadic
numbers, the window sum of R33 and R34, the reduction tree of R36 and R37, and the crucible arithmetic of R40 to R42. -/

namespace Sys2Proof.Machine

/-! ### Formats, values, flags -/

/-- The floating-point formats (R15). -/
inductive Fmt where
  | f64 | f32 | f16 | bf16 | e5m2 | e4m3 | e2m1
deriving DecidableEq, Repr, Inhabited

/-- The format that an element type names; integer types name none. -/
def Fmt.ofElem : Elem → Option Fmt
  | .f64 => some .f64 | .f32 => some .f32 | .f16 => some .f16 | .bf16 => some .bf16
  | .e4m3 => some .e4m3 | .e5m2 => some .e5m2
  | _ => none

/-- Exponent bits (R15). -/
def Fmt.eb : Fmt → Nat
  | .f64 => 11 | .f32 => 8 | .f16 => 5 | .bf16 => 8 | .e5m2 => 5 | .e4m3 => 4 | .e2m1 => 2

/-- Fraction bits (R15). -/
def Fmt.fb : Fmt → Nat
  | .f64 => 52 | .f32 => 23 | .f16 => 10 | .bf16 => 7 | .e5m2 => 2 | .e4m3 => 3 | .e2m1 => 1

/-- Exponent bias (R15). -/
def Fmt.bias : Fmt → Nat
  | .f64 => 1023 | .f32 => 127 | .f16 => 15 | .bf16 => 127 | .e5m2 => 15 | .e4m3 => 7 | .e2m1 => 1

/-- Width in bits. -/
def Fmt.w (f : Fmt) : Nat := 1 + f.eb + f.fb

/-- The exponent of the smallest normal (R15). -/
def Fmt.emin (f : Fmt) : Int := 1 - (f.bias : Int)

/-- The exponent of the smallest subnormal (R15). -/
def Fmt.esub (f : Fmt) : Int := 1 - (f.bias : Int) - f.fb

/-- Whether the format has infinities (R15). -/
def Fmt.hasInf : Fmt → Bool
  | .e4m3 | .e2m1 => false
  | _ => true

/-- The largest exponent of a finite value (R15). -/
def Fmt.emax (f : Fmt) : Int := if f.hasInf then (2 ^ f.eb : Nat) - 2 - (f.bias : Int) else (2 ^ f.eb : Nat) - 1 - (f.bias : Int)

/-- The code of the largest finite magnitude (R15). -/
def Fmt.maxCode : Fmt → Nat
  | .f64 => 0x7FEFFFFFFFFFFFFF | .f32 => 0x7F7FFFFF | .f16 => 0x7BFF | .bf16 => 0x7F7F | .e5m2 => 0x7B | .e4m3 => 0x7E | .e2m1 => 7

/-- The code of +infinity; E4M3 gives its NaN (R20). -/
def Fmt.infCode : Fmt → Nat
  | .f64 => 0x7FF0000000000000 | .f32 => 0x7F800000 | .f16 => 0x7C00 | .bf16 => 0x7F80 | .e5m2 => 0x7C | .e4m3 => 0x7F | .e2m1 => 7

/-- The canonical quiet NaN (R16); E2M1 has none and encodes NaN as +0 (R17). -/
def Fmt.nanCode : Fmt → Nat
  | .f64 => 0x7FF8000000000000 | .f32 => 0x7FC00000 | .f16 => 0x7E00 | .bf16 => 0x7FC0 | .e5m2 => 0x7E | .e4m3 => 0x7F | .e2m1 => 0

/-- The sign bit's weight. -/
def Fmt.signBit (f : Fmt) : Nat := 2 ^ (f.w - 1)

/-- A code with a sign put on a magnitude. -/
def Fmt.signed (f : Fmt) (neg : Bool) (mag : Nat) : Nat := if neg then mag + f.signBit else mag

/-- A finite value: sign, significand and power of two. A zero keeps its sign (R22). -/
structure Dy where
  (neg : Bool) (m : Nat) (e : Int)
deriving DecidableEq, Repr, Inhabited

/-- A floating-point value as an operation reads it; a NaN says whether it is signalling (R16). -/
inductive Fv where
  | nan (sig : Bool)
  | inf (neg : Bool)
  | fin (d : Dy)
deriving DecidableEq, Repr, Inhabited

/-- Five flags as FPST holds them: NX UF OF DZ NV from bit 4 to bit 0 (R24). -/
abbrev FpFlags := BitVec 5

/-- Invalid. -/
def fNV : FpFlags := 0b00001#5
/-- Divide-by-zero. -/
def fDZ : FpFlags := 0b00010#5
/-- Overflow. -/
def fOF : FpFlags := 0b00100#5
/-- Underflow. -/
def fUF : FpFlags := 0b01000#5
/-- Inexact. -/
def fNX : FpFlags := 0b10000#5

/-- A flag when a condition holds. -/
def flagIf (b : Bool) (f : FpFlags) : FpFlags := if b then f else 0

/-- The rounding modes (R18). -/
inductive Rm where
  | rne | rtz | rdn | rup | rna
deriving DecidableEq, Repr, Inhabited

/-- The mode a code names; 000, 110 and 111 name none (R18, R19). -/
def Rm.ofCode (c : Nat) : Option Rm :=
  if c = 1 then some .rne else if c = 2 then some .rtz else if c = 3 then some .rdn
  else if c = 4 then some .rup else if c = 5 then some .rna else none

/-- The settings an operation works under: mode, saturation, effective flush, DAZ (R19 to R23). -/
structure FpCtx where
  (rm : Rm) (sat : Sat) (ftz daz : Bool)
deriving DecidableEq, Repr, Inhabited

/-- The bit length of a number. -/
def bitLen (m : Nat) : Nat := if m = 0 then 0 else Nat.log2 m + 1

/-- The exponent of the leading bit of a non-zero finite value. -/
def Dy.lead (d : Dy) : Int := d.e + (bitLen d.m : Int) - 1

/-- Decodes a code of a format (R15). -/
def Fmt.decode (f : Fmt) (code : Nat) : Fv :=
  let neg := code.testBit (f.w - 1)
  let fr := code % 2 ^ f.fb
  let ex := (code >>> f.fb) % 2 ^ f.eb
  let top := ex = 2 ^ f.eb - 1
  if f.hasInf ∧ top then (if fr = 0 then .inf neg else .nan (!fr.testBit (f.fb - 1)))
  else if f = .e4m3 ∧ top ∧ fr = 7 then .nan false
  else if ex = 0 then .fin ⟨neg, fr, f.esub⟩
  else .fin ⟨neg, fr + 2 ^ f.fb, (ex : Int) - f.bias - f.fb⟩

/-- Whether a code is subnormal. -/
def Fmt.isSub (f : Fmt) (code : Nat) : Bool := (code >>> f.fb) % 2 ^ f.eb == 0 && code % 2 ^ f.fb != 0

/-- Whether flushing and DAZ apply to a format (R21). -/
def Fmt.flushes : Fmt → Bool
  | .f64 | .f32 | .f16 | .bf16 => true
  | _ => false

/-- Reads an operand under DAZ (R21). -/
def Fmt.read (f : Fmt) (daz : Bool) (code : Nat) : Fv :=
  if daz && f.flushes && f.isSub code then .fin ⟨code.testBit (f.w - 1), 0, 0⟩ else f.decode code

/-! ### Rounding -/

/-- Whether the truncated significand is raised by one (R18): q the kept part, r the part dropped out of 2^sh. -/
def roundUp (rm : Rm) (neg : Bool) (q r sh : Nat) : Bool :=
  if r = 0 then false
  else match rm with
    | .rne => decide (2 ^ sh < 2 * r) || (2 * r == 2 ^ sh && q % 2 == 1)
    | .rna => decide (2 ^ sh ≤ 2 * r)
    | .rtz => false
    | .rdn => neg
    | .rup => !neg

/-- Rounds a finite value to a multiple of 2^k; and whether it changed (R18). -/
def Dy.roundAt (rm : Rm) (k : Int) (d : Dy) : Dy × Bool :=
  if k ≤ d.e then (d, false)
  else
    -- a shift past the significand keeps nothing and drops less than half, so two bits past it suffice
    let sh := min (k - d.e).toNat (bitLen d.m + 2)
    let q := d.m >>> sh
    let r := d.m % 2 ^ sh
    (⟨d.neg, if roundUp rm d.neg q r sh then q + 1 else q, k⟩, r != 0)

/-- The code of a finite value that the format represents. -/
def Fmt.encode (f : Fmt) (d : Dy) : Nat :=
  if d.m = 0 then f.signed d.neg 0
  else
    let at_ (k : Int) : Nat := if k ≤ d.e then d.m <<< (d.e - k).toNat else d.m >>> (k - d.e).toNat
    if d.lead < f.emin then f.signed d.neg (at_ f.esub)
    else f.signed d.neg ((((d.lead - f.emin).toNat) <<< f.fb) + at_ (d.lead - f.fb))

/-- Overflow of a finite result (R20). -/
def Fmt.overflow (f : Fmt) (c : FpCtx) (neg : Bool) : Nat × FpFlags :=
  match c.sat with
  | .quiet => (f.signed neg f.maxCode, fNX)
  | .flagged => (f.signed neg f.maxCode, fOF ||| fNX)
  | .off =>
    let toInf := match c.rm with
      | .rne | .rna => true
      | .rtz => false
      | .rdn => neg
      | .rup => !neg
    (if toInf then (if f = .e4m3 then f.nanCode else f.signed neg f.infCode) else f.signed neg f.maxCode, fOF ||| fNX)

/-- An exact infinity delivered in a format (R20). -/
def Fmt.ofInf (f : Fmt) (c : FpCtx) (neg : Bool) : Nat × FpFlags :=
  if f = .e4m3 then
    match c.sat with
    | .off => (f.nanCode, fNV)
    | .quiet => (f.signed neg f.maxCode, fNX)
    | .flagged => (f.signed neg f.maxCode, fOF ||| fNX)
  else (f.signed neg f.infCode, 0)

/-- Round (R26): the code of an exact value in a format, and the flags it raises. A NaN raises nothing here: the operation that
read or made it has raised invalid. -/
def Fmt.round (f : Fmt) (c : FpCtx) : Fv → Nat × FpFlags
  | .nan _ => (f.nanCode, 0)
  | .inf neg => f.ofInf c neg
  | .fin d =>
    if d.m = 0 then (f.signed d.neg 0, 0)
    else
      let (q, x) := d.roundAt c.rm (d.lead - f.fb)
      if f.emax < q.lead ∨ (f = .e4m3 ∧ q.lead = f.emax ∧ f.signed false f.maxCode < f.encode ⟨false, q.m, q.e⟩) then f.overflow c d.neg
      else if q.lead < f.emin then
        if c.ftz && f.flushes then (f.signed d.neg 0, fUF ||| fNX)
        else
          let (s, y) := d.roundAt c.rm f.esub
          (f.encode s, if y then fUF ||| fNX else 0)
      else (f.encode q, flagIf x fNX)

/-! ### Exact operations: the value and whether they raise invalid -/

/-- Whether a value is a signalling NaN. -/
def Fv.isSig : Fv → Bool
  | .nan s => s
  | _ => false

/-- Whether a value is a NaN. -/
def Fv.isNan : Fv → Bool
  | .nan _ => true
  | _ => false

/-- The negated value. -/
def Fv.neg : Fv → Fv
  | .nan s => .nan s
  | .inf n => .inf (!n)
  | .fin d => .fin ⟨!d.neg, d.m, d.e⟩

/-- The significand of a finite value as an integer at power k, for k at most its power. -/
def Dy.intAt (d : Dy) (k : Int) : Int :=
  let v : Int := ((d.m <<< (d.e - k).toNat : Nat) : Int)
  if d.neg then -v else v

/-- The exact sum of two finite values with the sign rule of R22. -/
def Dy.add (rm : Rm) (a b : Dy) : Dy :=
  if a.m = 0 ∧ b.m = 0 then ⟨if a.neg = b.neg then a.neg else rm = .rdn, 0, 0⟩
  else if a.m = 0 then b
  else if b.m = 0 then a
  else
    let k := min a.e b.e
    let s := a.intAt k + b.intAt k
    if s = 0 then ⟨rm = .rdn, 0, 0⟩ else ⟨s < 0, s.natAbs, k⟩

/-- The exact sum of two values. -/
def Fv.add (rm : Rm) (a b : Fv) : Fv × FpFlags :=
  match a, b with
  | .nan _, _ => (.nan false, flagIf (a.isSig || b.isSig) fNV)
  | _, .nan s => (.nan false, flagIf s fNV)
  | .inf x, .inf y => if x = y then (.inf x, 0) else (.nan false, fNV)
  | .inf x, .fin _ => (.inf x, 0)
  | .fin _, .inf y => (.inf y, 0)
  | .fin x, .fin y => (.fin (x.add rm y), 0)

/-- The exact product of two values. -/
def Fv.mul (a b : Fv) : Fv × FpFlags :=
  match a, b with
  | .nan _, _ => (.nan false, flagIf (a.isSig || b.isSig) fNV)
  | _, .nan s => (.nan false, flagIf s fNV)
  | .inf x, .inf y => (.inf (x != y), 0)
  | .inf x, .fin d => if d.m = 0 then (.nan false, fNV) else (.inf (x != d.neg), 0)
  | .fin d, .inf y => if d.m = 0 then (.nan false, fNV) else (.inf (d.neg != y), 0)
  | .fin x, .fin y => (.fin ⟨x.neg != y.neg, x.m * y.m, x.e + y.e⟩, 0)

/-- The exact fused a * b + c. -/
def Fv.fma (rm : Rm) (a b c : Fv) : Fv × FpFlags :=
  let (p, f) := a.mul b
  let (r, g) := p.add rm c
  (r, f ||| g ||| flagIf c.isSig fNV)

/-- Compares two finite values: less, equal. -/
def Dy.cmp (a b : Dy) : Bool × Bool :=
  let k := min a.e b.e
  (decide (a.intAt k < b.intAt k), a.intAt k == b.intAt k)

/-- Compares two values: unordered, less, equal. The zeros are equal. -/
def Fv.cmp (a b : Fv) : Bool × Bool × Bool :=
  match a, b with
  | .nan _, _ => (true, false, false)
  | _, .nan _ => (true, false, false)
  | .inf x, .inf y => (false, x && !y, x == y)
  | .inf x, .fin _ => (false, x, false)
  | .fin _, .inf y => (false, !y, false)
  | .fin x, .fin y => let (l, e) := x.cmp y; (false, l, e)

/-! ### The window sum -/

/-- The largest exponent of a leading bit among the non-zero finite terms. -/
def maxLead : List Dy → Option Int
  | [] => none
  | d :: ds =>
    let r := maxLead ds
    if d.m = 0 then r else match r with
      | none => some d.lead
      | some k => some (max d.lead k)

/-- Steps 2 to 4 of the window sum on finite terms (R33, R34): the exact sum of the truncated terms and whether bits were dropped. -/
def windowFin (rm : Rm) (ts : List Dy) : Dy × Bool :=
  match maxLead ts with
  | none => (⟨ts.all (·.neg), 0, 0⟩, false)
  | some em =>
    let k := em - 50
    let cut (d : Dy) : Int × Bool :=
      if k ≤ d.e then (d.intAt k, false)
      else
        let sh := min (k - d.e).toNat (bitLen d.m)
        let q : Int := ((d.m >>> sh : Nat) : Int)
        (if d.neg then -q else q, d.m % 2 ^ sh != 0)
    let r := ts.foldl (fun (a : Int × Bool) d => let (v, x) := cut d; (a.1 + v, a.2 || x)) (0, false)
    (if r.1 = 0 then ⟨rm = .rdn, 0, 0⟩ else ⟨r.1 < 0, r.1.natAbs, k⟩, r.2)

/-- WindowSum (R33, R34, R150): products of pairs and one addend. Infinities of both signs raise invalid only where no term is a NaN (log 118). -/
def windowSum (rm : Rm) (ps : List (Fv × Fv)) (addend : Fv) : Fv × FpFlags :=
  let prods := ps.map fun p => p.1.mul p.2
  let fl := prods.foldl (fun a p => a ||| p.2) (flagIf addend.isSig fNV)
  let ts := addend :: prods.map (·.1)
  if ts.any (·.isNan) then (.nan false, fl)
  else
    let pos := ts.any (· == .inf false)
    let neg := ts.any (· == .inf true)
    if pos && neg then (.nan false, fl ||| fNV)
    else if pos then (.inf false, fl)
    else if neg then (.inf true, fl)
    else
      let ds := ts.filterMap fun t => match t with | .fin d => some d | _ => none
      let (d, x) := windowFin rm ds
      (.fin d, fl ||| flagIf x fNX)

/-- A window sum rounded into F32 (R33); NaN operands have raised invalid already. A tiny result that only the truncation of step 3 makes inexact
raises inexact and not underflow (log 117). -/
def windowSumF32 (c : FpCtx) (ps : List (Fv × Fv)) (addend : Fv) : Nat × FpFlags :=
  let (v, f) := windowSum c.rm ps addend
  let (r, g) := Fmt.f32.round c v
  (r, f ||| g)

/-! ### The reduction tree -/

/-- A slot of the tree: absent, or a code of the format as read (R36). -/
abbrev Slot := Option Nat

/-- A value that passes a node alone (R36). -/
def Fmt.pass (f : Fmt) (x : Nat) : Nat × FpFlags :=
  match f.decode x with
  | .nan s => (f.nanCode, flagIf s fNV)
  | _ => (x, 0)

/-- A node of the tree (R36): DAZ is not applied to inputs here. -/
def Fmt.node (f : Fmt) (c : FpCtx) (a b : Slot) : Slot × FpFlags :=
  match a, b with
  | none, none => (none, 0)
  | some x, none => let (v, g) := f.pass x; (some v, g)
  | none, some y => let (v, g) := f.pass y; (some v, g)
  | some x, some y =>
    let (s, g) := (f.decode x).add c.rm (f.decode y)
    let (v, h) := f.round c s
    (some v, g ||| h)

/-- One level of the tree: adjacent pairs, lower lanes first (R36). -/
def Fmt.level (f : Fmt) (c : FpCtx) : List Slot → List Slot × FpFlags
  | [] => ([], 0)
  | [a] => ([a], 0)
  | a :: b :: t =>
    let (x, g) := f.node c a b
    let (xs, h) := f.level c t
    (x :: xs, g ||| h)

/-- The levels of the tree above 32 leaves, the leaves first, with the flags of all nodes. -/
def Fmt.levels (f : Fmt) (c : FpCtx) : Nat → List Slot → List (List Slot) × FpFlags
  | 0, l => ([l], 0)
  | n + 1, l =>
    let (u, g) := f.level c l
    let (us, h) := f.levels c n u
    (l :: us, g ||| h)

/-- A lane value as read under DAZ (R36). -/
def Fmt.leaf (f : Fmt) (daz : Bool) (x : Nat) : Nat :=
  if daz && f.flushes && f.isSub x then f.signed (x.testBit (f.w - 1)) 0 else x

/-- ReduceTree (R36). -/
def Fmt.reduceTree (f : Fmt) (c : FpCtx) (l : List Slot) : Nat × FpFlags :=
  let (ls, g) := f.levels c 5 (l.map (·.map (f.leaf c.daz)))
  match ls.getLast? with
  | some [some v] => (v, g)
  | _ => (0, g)

/-- The aligned blocks of lanes 0 to n-1, taken greedily from lane 0 (R37): (level, index at that level). -/
def scanBlocks (n : Nat) : List (Nat × Nat) :=
  ([5, 4, 3, 2, 1, 0].foldl (fun (a : List (Nat × Nat) × Nat) k =>
    if a.2 + 2 ^ k ≤ n then (a.1 ++ [(k, a.2 / 2 ^ k)], a.2 + 2 ^ k) else a) ([], 0)).1

/-- The inclusive prefix over the first n lanes (R37), from the levels of the tree, with the flags of its own additions. A NaN of lane 0 alone is
delivered as the canonical NaN (R16). -/
def Fmt.prefixOf (f : Fmt) (c : FpCtx) (ls : List (List Slot)) (n : Nat) : Slot × FpFlags :=
  (scanBlocks n).foldl (fun (a : Slot × FpFlags × Bool) b =>
    let x : Slot := ((ls.getD b.1 []).getD b.2 none)
    if a.2.2 then (match x with | some v => let (u, g) := f.pass v; (some u, a.2.1 ||| g, false) | none => (none, a.2.1, false))
    else let (v, g) := f.node c a.1 x; (v, a.2.1 ||| g, false)) (none, 0, true) |> fun a => (a.1, a.2.1)

/-- The flags of the tree nodes that a prefix over n lanes uses. -/
def Fmt.blockFlags (f : Fmt) (c : FpCtx) (leaves : List Slot) (n : Nat) : FpFlags :=
  (scanBlocks n).foldl (fun a b =>
    let part := (leaves.drop (b.2 * 2 ^ b.1)).take (2 ^ b.1)
    a ||| (f.levels c b.1 part).2) 0

/-! ### Crucible lines -/

/-- The product of a finite value and 2^160 truncated toward zero, and whether bits were dropped (R41). -/
def Dy.crucible (d : Dy) : Int × Bool :=
  let k : Int := -160
  if k ≤ d.e then (d.intAt k, false)
  else
    let sh := min (k - d.e).toNat (bitLen d.m)
    let q : Int := ((d.m >>> sh : Nat) : Int)
    (if d.neg then -q else q, d.m % 2 ^ sh != 0)

/-- The kinds of crucible contribution (R41). -/
inductive CrKind where
  | fp (f : Fmt)
  | i64
deriving DecidableEq, Repr, Inhabited

/-- The line with an integer added to V (R40, R41). -/
def crAddV (line : BitVec 512) (t : Int) : BitVec 512 :=
  ((line >>> 448) <<< 448) ||| BitVec.ofNat 512 (wrapNat 448 ((line.toNat % 2 ^ 448 : Nat) + t))

/-- The line with COUNT raised by one (R41). -/
def crCount (line : BitVec 512) : BitVec 512 :=
  (line.setWidth 480).setWidth 512 ||| (((line >>> 480).setWidth 32 + 1#32).setWidth 512 <<< 480)

/-- CrucibleAdd (R41). -/
def crucibleAdd (line : BitVec 512) (x : Nat) (kind : CrKind) : BitVec 512 :=
  let flag (n : Nat) : BitVec 512 := line ||| ((1#512) <<< n)
  crCount (match kind with
    | .i64 => crAddV line (sext 64 x * ((2 ^ 160 : Nat) : Int))
    | .fp f => match f.decode x with
      | .nan _ => flag 448
      | .inf false => flag 449
      | .inf true => flag 450
      | .fin d =>
        if f = .f64 ∧ d.m ≠ 0 ∧ 256 ≤ d.lead then flag 451
        else
          let (t, lost) := d.crucible
          crAddV (if lost then flag 452 else line) t)

/-- CrucibleRead (R42): the code and the flags of its rounding. -/
def crucibleRead (line : BitVec 512) (f : Fmt) (c : FpCtx) : Nat × FpFlags :=
  let nan := line.getLsbD 448
  let pinf := line.getLsbD 449
  let ninf := line.getLsbD 450
  if nan || (pinf && ninf) then (f.nanCode, 0)
  else if pinf then (f.infCode, 0)
  else if ninf then (f.signed true f.infCode, 0)
  else
    let v := sext 448 line.toNat
    f.round c (.fin ⟨v < 0, v.natAbs, -160⟩)

end Sys2Proof.Machine
end

