-- ==== Sys2Proof/Decode.lean ====
section
/-! DEFINITION. The decoder, total on any words and rejecting by name, and after it the encoder, both written from the
encoding tables (spec/03_instruction_encoding.md R69 to R93 and the tables of the instruction chapters). A decoded
instruction must encode back to the fields it was read from, which is how a non-zero unused field is refused (R80). -/

namespace Sys2Proof

/-! ### Words and their fields -/

/-- The fields of a short lane word (R72), P, LS and W apart. -/
structure ShortLane where (op : BitVec 5) (d a : BitVec 7) (b : BitVec 8) deriving DecidableEq, Repr, Inhabited

/-- The fields of a short uniform word (R73), P, LS and W apart. -/
structure ShortUni where (op : BitVec 5) (d b : BitVec 8) (bm : Bool) (f : BitVec 5) deriving DecidableEq, Repr, Inhabited

/-- The fields of a long head and its tail (R74, R75), P, LS and W apart. -/
structure Long where (op : BitVec 9) (d a : BitVec 8) (t : BitVec 2) (b c i : BitVec 8) (f : BitVec 5)
deriving DecidableEq, Repr, Inhabited

/-- The fields of one instruction, by format. -/
inductive Raw where
  | sl (f : ShortLane)
  | su (f : ShortUni)
  | ll (f : Long)
  | ul (f : Long)
deriving DecidableEq, Repr

/-- Bits [lo+n-1:lo] of a code word. -/
def CodeWord.field (w : CodeWord) (lo n : Nat) : BitVec n := w.extractLsb' lo n

/-- P of a word (R69). -/
def wordP (w : CodeWord) : Bool := w.getLsbD 31
/-- LS of a word (R69). -/
def wordLS (w : CodeWord) : BitVec 2 := CodeWord.field w 29 2
/-- W of a short word or head (R69). -/
def wordW (w : CodeWord) : BitVec 2 := CodeWord.field w 27 2

/-- The fields of a short lane word (R72). -/
def shortLaneOf (w : CodeWord) : ShortLane := ⟨CodeWord.field w 22 5, CodeWord.field w 15 7, CodeWord.field w 8 7, CodeWord.field w 0 8⟩
/-- The fields of a short uniform word (R73). -/
def shortUniOf (w : CodeWord) : ShortUni :=
  ⟨CodeWord.field w 22 5, CodeWord.field w 14 8, CodeWord.field w 6 8, w.getLsbD 5, CodeWord.field w 0 5⟩
/-- The fields of a head and a tail (R74, R75). -/
def longOf (h t : CodeWord) : Long :=
  ⟨CodeWord.field h 18 9, CodeWord.field h 10 8, CodeWord.field h 2 8, CodeWord.field h 0 2,
    CodeWord.field t 21 8, CodeWord.field t 13 8, CodeWord.field t 5 8, CodeWord.field t 0 5⟩

/-- A short lane word (R72). -/
def shortLaneWord (w : BitVec 2) (f : ShortLane) : CodeWord := ((((0b000#3 ++ w) ++ f.op) ++ f.d) ++ f.a) ++ f.b
/-- A short uniform word (R73). -/
def shortUniWord (w : BitVec 2) (f : ShortUni) : CodeWord :=
  (((((0b100#3 ++ w) ++ f.op) ++ f.d) ++ f.b) ++ BitVec.ofBool f.bm) ++ f.f
/-- A long head of pipe P (R74). -/
def headWord (p : Bool) (w : BitVec 2) (f : Long) : CodeWord := (((((BitVec.ofBool p ++ 0b01#2) ++ w) ++ f.op) ++ f.d) ++ f.a) ++ f.t
/-- A long tail of pipe P (R75). -/
def tailWord (p : Bool) (f : Long) : CodeWord := ((((BitVec.ofBool p ++ 0b11#2) ++ f.b) ++ f.c) ++ f.i) ++ f.f
/-- A prefix word of pipe P (R76). -/
def prefixWord (p : Bool) (q : Prefix) : CodeWord :=
  ((((BitVec.ofBool p ++ 0b10#2) ++ q.rm) ++ q.sat) ++ BitVec.ofBool q.ftz) ++ 0#23
/-- The fields of a prefix word, or none where [22:0] is not zero (R76). -/
def prefixOf (w : CodeWord) : Option Prefix :=
  if CodeWord.field w 0 23 = 0 then some ⟨CodeWord.field w 26 3, CodeWord.field w 24 2, w.getLsbD 23⟩ else none

/-! ### Field values -/

/-- A vector register field: values above 127 break the limit (R77). -/
def vregOf (x : BitVec 8) : Option VReg := if x.getLsbD 7 then none else some (x.setWidth 7)
def vfield (r : VReg) : BitVec 8 := r.setWidth 8
/-- A tile or tile flag field: values above 15 break the limit (R77). -/
def tregOf (x : BitVec 8) : Option TReg := if 16 ≤ x.toNat then none else some (x.setWidth 4)
def tfield (r : TReg) : BitVec 8 := r.setWidth 8

/-- F5 from bits [4], [3] and [2:0]. -/
def f5 (b4 b3 : Bool) (lo : BitVec 3) : BitVec 5 := (BitVec.ofBool b4 ++ BitVec.ofBool b3) ++ lo
def f5lo (f : BitVec 5) : BitVec 3 := f.extractLsb' 0 3

/-- The T code of an element type (R74, R79). -/
def Elem.t : Elem → BitVec 2
  | .i32 | .n32 | .f32 => 0b00
  | .i16 | .n16 | .f16 | .bf16 => 0b01
  | .i64 | .n64 | .f64 => 0b10
  | .i8 | .n8 | .e4m3 | .e5m2 => 0b11

/-- The type code of an element type (R79). -/
def Elem.code : Elem → BitVec 3
  | .i64 | .i32 | .i16 | .i8 => 0b000
  | .n64 | .n32 | .n16 | .n8 => 0b001
  | .f64 | .f32 | .f16 | .e4m3 => 0b010
  | .bf16 | .e5m2 => 0b011

/-- The element type that T and a type code name (R79). -/
def Elem.ofCode (t : BitVec 2) (c : BitVec 3) : Option Elem :=
  match t.toNat, c.toNat with
  | 0, 0 => some .i32 | 0, 1 => some .n32 | 0, 2 => some .f32
  | 1, 0 => some .i16 | 1, 1 => some .n16 | 1, 2 => some .f16 | 1, 3 => some .bf16
  | 2, 0 => some .i64 | 2, 1 => some .n64 | 2, 2 => some .f64
  | 3, 0 => some .i8 | 3, 1 => some .n8 | 3, 2 => some .e4m3 | 3, 3 => some .e5m2
  | _, _ => none

/-- The T code of a width (R74). -/
def Width.t : Width → BitVec 2
  | .w32 => 0b00 | .w16 => 0b01 | .w64 => 0b10 | .w8 => 0b11
def Width.ofT (t : BitVec 2) : Width :=
  match t.toNat with | 0 => .w32 | 1 => .w16 | 2 => .w64 | _ => .w8

def VSrc.field : VSrc → BitVec 8 | .vec r => vfield r | .uni r => r
def VSrc.bs : VSrc → Bool | .vec _ => false | .uni _ => true
def VSrc.of (bs : Bool) (x : BitVec 8) : Option VSrc := if bs then some (.uni x) else (vregOf x).map .vec

def USrc.bField : USrc → BitVec 8 | .reg r => r | .imm _ => 0
def USrc.iField : USrc → BitVec 8 | .reg _ => 0 | .imm k => k
def USrc.isImm : USrc → Bool | .reg _ => false | .imm _ => true

def ICond.code : ICond → BitVec 8 | .eq => 0 | .ne => 1 | .lt => 2 | .le => 3 | .gt => 4 | .ge => 5
def ICond.of (x : BitVec 8) : Option ICond :=
  match x.toNat with | 0 => some .eq | 1 => some .ne | 2 => some .lt | 3 => some .le | 4 => some .gt | 5 => some .ge | _ => none
def FCond.code : FCond → BitVec 8 | .eq => 0 | .ne => 1 | .lt => 2 | .le => 3 | .gt => 4 | .ge => 5 | .un => 6 | .ord => 7
def FCond.of (x : BitVec 8) : Option FCond :=
  match x.toNat with
  | 0 => some .eq | 1 => some .ne | 2 => some .lt | 3 => some .le | 4 => some .gt | 5 => some .ge | 6 => some .un | 7 => some .ord | _ => none
def SCond.code : SCond → BitVec 5
  | .eq => 0 | .ne => 1 | .lt => 2 | .le => 3 | .gt => 4 | .ge => 5 | .ltn => 6 | .len => 7 | .gtn => 8 | .gen => 9
def SCond.of (x : BitVec 5) : Option SCond :=
  match x.toNat with
  | 0 => some .eq | 1 => some .ne | 2 => some .lt | 3 => some .le | 4 => some .gt | 5 => some .ge
  | 6 => some .ltn | 7 => some .len | 8 => some .gtn | 9 => some .gen | _ => none
def BCond.code : BCond → BitVec 5 | .always => 0 | .sc => 1 | .nsc => 2 | .none => 3 | .any => 4 | .all => 5
def BCond.of (x : BitVec 5) : Option BCond :=
  match x.toNat with
  | 0 => some .always | 1 => some .sc | 2 => some .nsc | 3 => some .none | 4 => some .any | 5 => some .all | _ => Option.none
def ShufMode.code : ShufMode → BitVec 2 | .xor => 0 | .up => 1 | .dn => 2 | .bc => 3
def ShufMode.of (x : BitVec 2) : ShufMode := match x.toNat with | 0 => .xor | 1 => .up | 2 => .dn | _ => .bc
def RedOp.code : RedOp → BitVec 8 | .add => 0 | .min => 1 | .max => 2 | .and => 3 | .or => 4 | .xor => 5
def RedOp.of (x : BitVec 8) : Option RedOp :=
  match x.toNat with | 0 => some .add | 1 => some .min | 2 => some .max | 3 => some .and | 4 => some .or | 5 => some .xor | _ => none
def AtomOp.code : AtomOp → BitVec 4
  | .add => 0 | .min => 1 | .max => 2 | .and => 3 | .or => 4 | .xor => 5 | .xchg => 6 | .inc => 7 | .fadd => 8
def AtomOp.of (x : BitVec 4) : Option AtomOp :=
  match x.toNat with
  | 0 => some .add | 1 => some .min | 2 => some .max | 3 => some .and | 4 => some .or | 5 => some .xor
  | 6 => some .xchg | 7 => some .inc | 8 => some .fadd | _ => none
def Order.code : Order → BitVec 2 | .none => 0 | .acq => 1 | .rel => 2 | .acqrel => 3
def Order.of (x : BitVec 2) : Order := match x.toNat with | 0 => .none | 1 => .acq | 2 => .rel | _ => .acqrel
def Scope.code : Scope → BitVec 2 | .grp => 0 | .blk => 1 | .cast => 2 | .die => 3
def Scope.of (x : BitVec 2) : Scope := match x.toNat with | 0 => .grp | 1 => .blk | 2 => .cast | _ => .die

/-- F5 of a memory access: scope, order, X (R131, R225). -/
def memF5 (s : Scope) (o : Order) (x : Bool) : BitVec 5 := (s.code ++ o.code) ++ BitVec.ofBool x
def f5scope (f : BitVec 5) : Scope := Scope.of (f.extractLsb' 3 2)
def f5order (f : BitVec 5) : Order := Order.of (f.extractLsb' 1 2)

/-- The index of a special register (R50). -/
def SpecReg.index : SpecReg → BitVec 8
  | .exec => 0x00 | .sc => 0x01 | .fpm => 0x02 | .fpst => 0x03 | .lcnt => 0x04 | .bseq => 0x05 | .bdone => 0x06 | .mcnt => 0x07
  | .hlp => 0x08 | .sbchk => 0x09 | .rcvf => 0x0A | .creg => 0x0B | .splits => 0x0C
  | .grpid => 0x20 | .blkid => 0x21 | .castid => 0x22 | .pourid => 0x23 | .coreid => 0x24 | .clusid => 0x25 | .dieid => 0x26
  | .nodeid => 0x27 | .nblk => 0x28 | .ngrp => 0x29
  | .tcause => 0x30 | .taddr => 0x31 | .toff => 0x32 | .tmask => 0x33 | .svpl0 => 0x34 | .svpl1 => 0x35
  | .wakewhy => 0x38 | .cyc => 0x39 | .dgst => 0x3A | .rstat => 0x3B | .parks => 0x3C
  | .lb0 => 0x40 | .lb1 => 0x41 | .lb2 => 0x42 | .lb3 => 0x43 | .le0 => 0x44 | .le1 => 0x45 | .le2 => 0x46 | .le3 => 0x47
  | .lc0 => 0x48 | .lc1 => 0x49 | .lc2 => 0x4A | .lc3 => 0x4B

/-- The special register of an index, or none where R50 lists none. -/
def SpecReg.of (x : BitVec 8) : Option SpecReg :=
  match x.toNat with
  | 0x00 => some .exec | 0x01 => some .sc | 0x02 => some .fpm | 0x03 => some .fpst | 0x04 => some .lcnt | 0x05 => some .bseq
  | 0x06 => some .bdone | 0x07 => some .mcnt | 0x08 => some .hlp | 0x09 => some .sbchk | 0x0A => some .rcvf | 0x0B => some .creg
  | 0x0C => some .splits
  | 0x20 => some .grpid | 0x21 => some .blkid | 0x22 => some .castid | 0x23 => some .pourid | 0x24 => some .coreid
  | 0x25 => some .clusid | 0x26 => some .dieid | 0x27 => some .nodeid | 0x28 => some .nblk | 0x29 => some .ngrp
  | 0x30 => some .tcause | 0x31 => some .taddr | 0x32 => some .toff | 0x33 => some .tmask | 0x34 => some .svpl0 | 0x35 => some .svpl1
  | 0x38 => some .wakewhy | 0x39 => some .cyc | 0x3A => some .dgst | 0x3B => some .rstat | 0x3C => some .parks
  | 0x40 => some .lb0 | 0x41 => some .lb1 | 0x42 => some .lb2 | 0x43 => some .lb3 | 0x44 => some .le0 | 0x45 => some .le1
  | 0x46 => some .le2 | 0x47 => some .le3 | 0x48 => some .lc0 | 0x49 => some .lc1 | 0x4A => some .lc2 | 0x4B => some .lc3
  | _ => none

/-! ### Operand records to fields and back -/

def ShV.raw (op : BitVec 5) (o : ShV) : Raw := .sl ⟨op, o.d, o.a, vfield o.b⟩
def ShV.of (f : ShortLane) : Option ShV := (vregOf f.b).map fun b => ⟨f.d, f.a, b⟩
def ShS.raw (op : BitVec 5) (o : ShS) : Raw := .sl ⟨op, o.d, o.a, o.b⟩
def ShS.of (f : ShortLane) : Option ShS := some ⟨f.d, f.a, f.b⟩
def ShI.raw (op : BitVec 5) (o : ShI) : Raw := .sl ⟨op, o.d, o.a, o.k⟩
def ShI.of (f : ShortLane) : Option ShI := some ⟨f.d, f.a, f.b⟩
def ShMovS.raw (op : BitVec 5) (o : ShMovS) : Raw := .sl ⟨op, o.d, 0, o.b⟩
def ShMovS.of (f : ShortLane) : Option ShMovS := some ⟨f.d, f.b⟩

/-- B and BM of a short uniform word's second operand (R73). -/
def USrc.shortB : USrc → BitVec 8 | .reg r => r | .imm k => k
def USrc.ofShort (f : ShortUni) : USrc := if f.bm then .imm f.b else .reg f.b
def ShU.raw (op f : BitVec 5) (o : ShU) : Raw := .su ⟨op, o.d, o.b.shortB, o.b.isImm, f⟩
def ShU.of (f : ShortUni) : Option ShU := some ⟨f.d, USrc.ofShort f⟩
def ShCmp.raw (op : BitVec 5) (o : ShCmp) : Raw := .su ⟨op, o.a, o.b.shortB, o.b.isImm, o.cond.code⟩
def ShCmp.of (f : ShortUni) : Option ShCmp := (SCond.of f.f).map fun c => ⟨f.d, USrc.ofShort f, c⟩
def ShBr.raw (op : BitVec 5) (o : ShBr) : Raw := .su ⟨op, 0, o.disp, true, o.cond.code⟩
def ShBr.of (f : ShortUni) : Option ShBr := (BCond.of f.f).map fun c => ⟨c, f.b⟩
def ShReg.raw (op f : BitVec 5) (o : ShReg) : Raw := .su ⟨op, o.d, 0, false, f⟩
def ShReg.of (f : ShortUni) : Option ShReg := some ⟨f.d⟩
def ShCount.raw (op f : BitVec 5) (o : ShCount) : Raw := .su ⟨op, 0, o.n.setWidth 8, true, f⟩
def ShCount.of (f : ShortUni) : Option ShCount := (vregOf f.b).map fun n => ⟨n⟩

def LaneBin.raw (op : BitVec 9) (o : LaneBin) : Raw := .ll ⟨op, vfield o.d, vfield o.a, o.e.t, o.b.field, 0, 0, f5 false o.b.bs o.e.code⟩
def LaneBin.of (f : Long) : Option LaneBin := do
  return ⟨← vregOf f.d, ← vregOf f.a, ← VSrc.of (f.f.getLsbD 3) f.b, ← Elem.ofCode f.t (f5lo f.f)⟩
def LaneTri.raw (op : BitVec 9) (o : LaneTri) : Raw :=
  .ll ⟨op, vfield o.d, vfield o.a, o.e.t, o.b.field, vfield o.c, 0, f5 false o.b.bs o.e.code⟩
def LaneTri.of (f : Long) : Option LaneTri := do
  return ⟨← vregOf f.d, ← vregOf f.a, ← VSrc.of (f.f.getLsbD 3) f.b, ← vregOf f.c, ← Elem.ofCode f.t (f5lo f.f)⟩
def LaneTriX.raw (op : BitVec 9) (o : LaneTriX) : Raw :=
  .ll ⟨op, vfield o.d, vfield o.a, o.e.t, o.b.field, vfield o.c, 0, f5 o.x o.b.bs o.e.code⟩
def LaneTriX.of (f : Long) : Option LaneTriX := do
  return ⟨← vregOf f.d, ← vregOf f.a, ← VSrc.of (f.f.getLsbD 3) f.b, ← vregOf f.c, ← Elem.ofCode f.t (f5lo f.f), f.f.getLsbD 4⟩
def LaneUn.raw (op : BitVec 9) (o : LaneUn) : Raw := .ll ⟨op, vfield o.d, vfield o.a, o.e.t, 0, 0, 0, f5 false false o.e.code⟩
def LaneUn.of (f : Long) : Option LaneUn := do return ⟨← vregOf f.d, ← vregOf f.a, ← Elem.ofCode f.t (f5lo f.f)⟩
def LaneUnX.raw (op : BitVec 9) (o : LaneUnX) : Raw := .ll ⟨op, vfield o.d, vfield o.a, o.e.t, 0, 0, 0, f5 o.x false o.e.code⟩
def LaneUnX.of (f : Long) : Option LaneUnX := do
  return ⟨← vregOf f.d, ← vregOf f.a, ← Elem.ofCode f.t (f5lo f.f), f.f.getLsbD 4⟩
def ShiftCount.bField : ShiftCount → BitVec 8 | .reg b => b.field | .imm _ => 0
def ShiftCount.iField : ShiftCount → BitVec 8 | .reg _ => 0 | .imm k => k
def ShiftCount.isImm : ShiftCount → Bool | .reg _ => false | .imm _ => true
def ShiftCount.bs : ShiftCount → Bool | .reg b => b.bs | .imm _ => false
def LaneShift.raw (op : BitVec 9) (o : LaneShift) : Raw :=
  .ll ⟨op, vfield o.d, vfield o.a, o.e.t, o.k.bField, 0, o.k.iField, f5 o.k.isImm o.k.bs o.e.code⟩
def LaneShift.of (f : Long) : Option LaneShift := do
  let k ← if f.f.getLsbD 4 then some (.imm f.i) else (VSrc.of (f.f.getLsbD 3) f.b).map .reg
  return ⟨← vregOf f.d, ← vregOf f.a, k, ← Elem.ofCode f.t (f5lo f.f)⟩
def LaneCmp.raw (op : BitVec 9) (o : LaneCmp) : Raw :=
  .ll ⟨op, o.d, vfield o.a, o.e.t, o.b.field, 0, o.cond.code, f5 o.any o.b.bs o.e.code⟩
def LaneCmp.of (f : Long) : Option LaneCmp := do
  return ⟨f.d, ← vregOf f.a, ← VSrc.of (f.f.getLsbD 3) f.b, ← ICond.of f.i, f.f.getLsbD 4, ← Elem.ofCode f.t (f5lo f.f)⟩
def LaneCmpV.raw (op : BitVec 9) (o : LaneCmpV) : Raw :=
  .ll ⟨op, vfield o.d, vfield o.a, o.e.t, o.b.field, 0, o.cond.code, f5 false o.b.bs o.e.code⟩
def LaneCmpV.of (f : Long) : Option LaneCmpV := do
  return ⟨← vregOf f.d, ← vregOf f.a, ← VSrc.of (f.f.getLsbD 3) f.b, ← ICond.of f.i, ← Elem.ofCode f.t (f5lo f.f)⟩
def LaneFCmp.raw (op : BitVec 9) (o : LaneFCmp) : Raw :=
  .ll ⟨op, o.d, vfield o.a, o.e.t, o.b.field, 0, o.cond.code, f5 o.any o.b.bs o.e.code⟩
def LaneFCmp.of (f : Long) : Option LaneFCmp := do
  return ⟨f.d, ← vregOf f.a, ← VSrc.of (f.f.getLsbD 3) f.b, ← FCond.of f.i, f.f.getLsbD 4, ← Elem.ofCode f.t (f5lo f.f)⟩
def LaneFCmpV.raw (op : BitVec 9) (o : LaneFCmpV) : Raw :=
  .ll ⟨op, vfield o.d, vfield o.a, o.e.t, o.b.field, 0, o.cond.code, f5 false o.b.bs o.e.code⟩
def LaneFCmpV.of (f : Long) : Option LaneFCmpV := do
  return ⟨← vregOf f.d, ← vregOf f.a, ← VSrc.of (f.f.getLsbD 3) f.b, ← FCond.of f.i, ← Elem.ofCode f.t (f5lo f.f)⟩
def MovMode.bits : MovMode → Bool × Bool | .copy => (false, false) | .ext _ => (false, true) | .ins _ => (true, false)
def MovMode.j : MovMode → BitVec 8 | .copy => 0 | .ext j => j.setWidth 8 | .ins j => j.setWidth 8
def MovMode.of (b4 b3 : Bool) (i : BitVec 8) : Option MovMode :=
  match b4, b3 with
  | false, false => some .copy
  | false, true => some (.ext (i.setWidth 3))
  | true, false => some (.ins (i.setWidth 3))
  | true, true => none
def LaneMov.raw (op : BitVec 9) (o : LaneMov) : Raw :=
  .ll ⟨op, vfield o.d, vfield o.a, o.e.t, 0, 0, o.mode.j, f5 o.mode.bits.1 o.mode.bits.2 o.e.code⟩
def LaneMov.of (f : Long) : Option LaneMov := do
  return ⟨← vregOf f.d, ← vregOf f.a, ← MovMode.of (f.f.getLsbD 4) (f.f.getLsbD 3) f.i, ← Elem.ofCode f.t (f5lo f.f)⟩
def MovSMode.isSplat : MovSMode → Bool | .copy => false | .splat _ => true
def MovSMode.j : MovSMode → BitVec 8 | .copy => 0 | .splat j => j.setWidth 8
def LaneMovS.raw (op : BitVec 9) (o : LaneMovS) : Raw :=
  .ll ⟨op, vfield o.d, 0, o.e.t, o.b, 0, o.mode.j, f5 o.mode.isSplat false o.e.code⟩
def LaneMovS.of (f : Long) : Option LaneMovS := do
  return ⟨← vregOf f.d, f.b, if f.f.getLsbD 4 then .splat (f.i.setWidth 3) else .copy, ← Elem.ofCode f.t (f5lo f.f)⟩
def LaneIdx.raw (op : BitVec 9) (o : LaneIdx) : Raw := .ll ⟨op, vfield o.d, 0, o.e.t, 0, 0, o.k, f5 false false o.e.code⟩
def LaneIdx.of (f : Long) : Option LaneIdx := do return ⟨← vregOf f.d, f.i, ← Elem.ofCode f.t (f5lo f.f)⟩
def LanePack.raw (op : BitVec 9) (o : LanePack) : Raw :=
  .ll ⟨op, vfield o.d, vfield o.a, o.e.t, vfield o.b, 0, 0, f5 false false o.e.code⟩
def LanePack.of (f : Long) : Option LanePack := do
  return ⟨← vregOf f.d, ← vregOf f.a, ← vregOf f.b, ← Elem.ofCode f.t (f5lo f.f)⟩
def LaneCvt.raw (op : BitVec 9) (o : LaneCvt) : Raw :=
  .ll ⟨op, vfield o.d, vfield o.a, o.e.t, vfield o.b, 0, (o.pos ++ o.s.code) ++ o.s.t, f5 o.x false o.e.code⟩
def LaneCvt.of (f : Long) : Option LaneCvt := do
  return ⟨← vregOf f.d, ← vregOf f.a, ← vregOf f.b, ← Elem.ofCode f.t (f5lo f.f),
    ← Elem.ofCode (f.i.extractLsb' 0 2) (f.i.extractLsb' 2 3), f.i.extractLsb' 5 3, f.f.getLsbD 4⟩
def ShufImm.raw (op : BitVec 9) (o : ShufImm) : Raw :=
  .ll ⟨op, vfield o.d, vfield o.a, o.e.t, 0, 0, o.k.setWidth 8, o.mode.code ++ o.e.code⟩
def ShufImm.of (f : Long) : Option ShufImm := do
  return ⟨← vregOf f.d, ← vregOf f.a, f.i.setWidth 5, ShufMode.of (f.f.extractLsb' 3 2), ← Elem.ofCode f.t (f5lo f.f)⟩
def SwapDir.bits : SwapDir → Bool × Bool | .h => (false, true) | .v => (true, false) | .d => (true, true)
def SwapDir.of : Bool → Bool → Option SwapDir
  | false, false => none | false, true => some .h | true, false => some .v | true, true => some .d
def QuadSwap.raw (op : BitVec 9) (o : QuadSwap) : Raw := .ll ⟨op, vfield o.d, vfield o.a, 0, 0, 0, 0, f5 o.dir.bits.1 o.dir.bits.2 0⟩
def QuadSwap.of (f : Long) : Option QuadSwap := do
  return ⟨← vregOf f.d, ← vregOf f.a, ← SwapDir.of (f.f.getLsbD 4) (f.f.getLsbD 3)⟩
def QuadBc.raw (op : BitVec 9) (o : QuadBc) : Raw := .ll ⟨op, vfield o.d, vfield o.a, 0, 0, 0, o.k.setWidth 8, 0⟩
def QuadBc.of (f : Long) : Option QuadBc := do return ⟨← vregOf f.d, ← vregOf f.a, f.i.setWidth 2⟩
def Ballot.raw (op : BitVec 9) (o : Ballot) : Raw := .ll ⟨op, o.d, vfield o.a, o.e.t, 0, 0, 0, f5 false false o.e.code⟩
def Ballot.of (f : Long) : Option Ballot := do return ⟨f.d, ← vregOf f.a, ← Elem.ofCode f.t (f5lo f.f)⟩
def VoteKind.bits : VoteKind → Bool × Bool | .all => (false, false) | .any => (false, true) | .eq => (true, false)
def VoteKind.of : Bool → Bool → Option VoteKind
  | false, false => some .all | false, true => some .any | true, false => some .eq | true, true => none
def Vote.raw (op : BitVec 9) (o : Vote) : Raw := .ll ⟨op, 0, vfield o.a, o.e.t, 0, 0, 0, f5 o.kind.bits.1 o.kind.bits.2 o.e.code⟩
def Vote.of (f : Long) : Option Vote := do
  return ⟨← vregOf f.a, ← VoteKind.of (f.f.getLsbD 4) (f.f.getLsbD 3), ← Elem.ofCode f.t (f5lo f.f)⟩
def RedDst.field : RedDst → BitVec 8 | .uni r => r | .vec r => vfield r
def RedDst.isVec : RedDst → Bool | .uni _ => false | .vec _ => true
def Reduce.raw (op : BitVec 9) (o : Reduce) : Raw :=
  .ll ⟨op, o.d.field, vfield o.a, o.e.t, 0, 0, o.op.code, f5 o.d.isVec false o.e.code⟩
def Reduce.of (f : Long) : Option Reduce := do
  let d ← if f.f.getLsbD 4 then (vregOf f.d).map .vec else some (.uni f.d)
  return ⟨d, ← vregOf f.a, ← RedOp.of f.i, ← Elem.ofCode f.t (f5lo f.f)⟩
def Scan.raw (op : BitVec 9) (o : Scan) : Raw := .ll ⟨op, vfield o.d, vfield o.a, o.e.t, 0, 0, o.op.code, f5 o.excl false o.e.code⟩
def Scan.of (f : Long) : Option Scan := do
  return ⟨← vregOf f.d, ← vregOf f.a, ← RedOp.of f.i, f.f.getLsbD 4, ← Elem.ofCode f.t (f5lo f.f)⟩
def LaneMono.raw (op : BitVec 9) (o : LaneMono) : Raw := .ll ⟨op, vfield o.d, vfield o.a, 0, 0, 0, 0, 0⟩
def LaneMono.of (f : Long) : Option LaneMono := do return ⟨← vregOf f.d, ← vregOf f.a⟩
def Isect.raw (op : BitVec 9) (o : Isect) : Raw := .ll ⟨op, o.d, vfield o.a, 0, vfield o.b, 0, 0, 0⟩
def Isect.of (f : Long) : Option Isect := do return ⟨f.d, ← vregOf f.a, ← vregOf f.b⟩
def Rank.raw (op : BitVec 9) (o : Rank) : Raw := .ll ⟨op, vfield o.d, 0, 0, o.b, 0, 0, 0⟩
def Rank.of (f : Long) : Option Rank := do return ⟨← vregOf f.d, f.b⟩
def MemAcc.raw (op : BitVec 9) (o : MemAcc) : Raw := .ll ⟨op, vfield o.d, vfield o.a, o.t.t, 0, o.c, o.disp, memF5 o.scope o.ord o.x⟩
def MemAcc.of (f : Long) : Option MemAcc := do
  return ⟨← vregOf f.d, ← vregOf f.a, f.c, f.i, Width.ofT f.t, f5order f.f, f5scope f.f, f.f.getLsbD 0⟩
def ScrAcc.raw (op : BitVec 9) (o : ScrAcc) : Raw :=
  .ll ⟨op, vfield o.d, vfield o.a, o.t.t, 0, o.c, o.disp, ((0#1 ++ BitVec.ofBool o.pair) ++ o.ord.code) ++ BitVec.ofBool o.x⟩
def ScrAcc.of (f : Long) : Option ScrAcc := do
  return ⟨← vregOf f.d, ← vregOf f.a, f.c, f.i, Width.ofT f.t, f5order f.f, f.f.getLsbD 3, f.f.getLsbD 0⟩
/-- T = 10 or T = 00, the widths of the atomics (R225). -/
def wideT (wide : Bool) : BitVec 2 := if wide then 0b10 else 0b00
def wideOf (t : BitVec 2) : Option Bool := match t.toNat with | 0 => some false | 2 => some true | _ => none
def LaneAtom.raw (op : BitVec 9) (o : LaneAtom) : Raw :=
  .ll ⟨op, vfield o.d, vfield o.a, wideT o.wide, vfield o.b, o.c, o.disp ++ o.op.code, memF5 o.scope o.ord o.x⟩
def LaneAtom.of (f : Long) : Option LaneAtom := do
  return ⟨← vregOf f.d, ← vregOf f.a, ← vregOf f.b, f.c, f.i.extractLsb' 4 4, ← AtomOp.of (f.i.extractLsb' 0 4), ← wideOf f.t,
    f5order f.f, f5scope f.f, f.f.getLsbD 0⟩
def ScrAtom.raw (op : BitVec 9) (o : ScrAtom) : Raw :=
  .ll ⟨op, vfield o.d, vfield o.a, wideT o.wide, vfield o.b, o.c, o.disp ++ o.op.code,
    ((BitVec.ofBool o.chk ++ 0#1) ++ o.ord.code) ++ BitVec.ofBool o.x⟩
def ScrAtom.of (f : Long) : Option ScrAtom := do
  return ⟨← vregOf f.d, ← vregOf f.a, ← vregOf f.b, f.c, f.i.extractLsb' 4 4, ← AtomOp.of (f.i.extractLsb' 0 4), ← wideOf f.t,
    f5order f.f, f.f.getLsbD 4, f.f.getLsbD 0⟩
def WinAtom.raw (op : BitVec 9) (o : WinAtom) : Raw :=
  .ll ⟨op, vfield o.d, vfield o.a, wideT o.wide, vfield o.b, o.c, o.disp ++ o.op.code, (0#2 ++ o.ord.code) ++ BitVec.ofBool o.x⟩
def WinAtom.of (f : Long) : Option WinAtom := do
  return ⟨← vregOf f.d, ← vregOf f.a, ← vregOf f.b, f.c, f.i.extractLsb' 4 4, ← AtomOp.of (f.i.extractLsb' 0 4), ← wideOf f.t,
    f5order f.f, f.f.getLsbD 0⟩
def FaultLd.raw (op : BitVec 9) (o : FaultLd) : Raw := .ll ⟨op, vfield o.d, vfield o.a, o.t.t, o.b, o.c, o.disp, 0#4 ++ BitVec.ofBool o.x⟩
def FaultLd.of (f : Long) : Option FaultLd := do
  return ⟨← vregOf f.d, ← vregOf f.a, f.b, f.c, f.i, Width.ofT f.t, f.f.getLsbD 0⟩
/-- B of a binding operand; BND is F5[4] (R393). -/
def bindField : Option UReg → BitVec 8 | some r => r | none => 0
def Remote.raw (op : BitVec 9) (o : Remote) : Raw :=
  .ll ⟨op, vfield o.d, vfield o.a, o.e.t, bindField o.bind, o.c, o.disp, f5 o.bind.isSome false o.e.code⟩
def Remote.of (f : Long) : Option Remote := do
  return ⟨← vregOf f.d, ← vregOf f.a, f.c, f.i, ← Elem.ofCode f.t (f5lo f.f), if f.f.getLsbD 4 then some f.b else none⟩
def RemArr.raw (op : BitVec 9) (o : RemArr) : Raw := .ll ⟨op, 0, 0, 0, o.b, 0, 0, 0b10000⟩
def RemArr.of (f : Long) : Option RemArr := some ⟨f.b⟩
def RemGet.raw (op : BitVec 9) (o : RemGet) : Raw := .ll ⟨op, vfield o.d, vfield o.a, 0, o.b, o.c, o.n.setWidth 8, 0b10000⟩
def RemGet.of (f : Long) : Option RemGet := do return ⟨← vregOf f.d, ← vregOf f.a, f.c, f.b, f.i.setWidth 3⟩
def CrRead.raw (op : BitVec 9) (o : CrRead) : Raw := .ll ⟨op, vfield o.d, vfield o.a, o.e.t, 0, o.c, o.disp, f5 false false o.e.code⟩
def CrRead.of (f : Long) : Option CrRead := do return ⟨← vregOf f.d, ← vregOf f.a, f.c, f.i, ← Elem.ofCode f.t (f5lo f.f)⟩
def flagField : Option TReg → BitVec 8 | some r => tfield r | none => 0
/-- The tile flag operand: C when USEF = 1 (R259). -/
def flagOf (use : Bool) (c : BitVec 8) : Option (Option TReg) := if use then (tregOf c).map some else some none
def Mma.raw (op : BitVec 9) (o : Mma) : Raw :=
  .ll ⟨op, tfield o.md, vfield o.va, o.e.t, vfield o.vb, flagField o.flag,
    (0#6 ++ BitVec.ofBool o.noacc) ++ BitVec.ofBool o.flag.isSome, f5 o.bx o.spec o.e.code⟩
def Mma.of (f : Long) : Option Mma := do
  return ⟨← tregOf f.d, ← vregOf f.a, ← vregOf f.b, ← flagOf (f.i.getLsbD 0) f.c, f.i.getLsbD 1, f.f.getLsbD 3, f.f.getLsbD 4,
    ← Elem.ofCode f.t (f5lo f.f)⟩
def Oadd.raw (op : BitVec 9) (o : Oadd) : Raw :=
  .ll ⟨op, tfield o.md, vfield o.va, o.e.t, o.sb, flagField o.flag, 0#7 ++ BitVec.ofBool o.flag.isSome, f5 false o.spec o.e.code⟩
def Oadd.of (f : Long) : Option Oadd := do
  return ⟨← tregOf f.d, ← vregOf f.a, f.b, ← flagOf (f.i.getLsbD 0) f.c, f.f.getLsbD 3, ← Elem.ofCode f.t (f5lo f.f)⟩
def TileMem.raw (op : BitVec 9) (o : TileMem) : Raw := .ll ⟨op, tfield o.md, vfield o.a, 0, 0, o.c, o.disp, 0⟩
def TileMem.of (f : Long) : Option TileMem := do return ⟨← tregOf f.d, ← vregOf f.a, f.c, f.i⟩
def TileOne.raw (op : BitVec 9) (o : TileOne) : Raw := .ll ⟨op, tfield o.md, 0, 0, 0, 0, 0, 0⟩
def TileOne.of (f : Long) : Option TileOne := do return ⟨← tregOf f.d⟩
def TileSts.raw (op : BitVec 9) (o : TileSts) : Raw := .ll ⟨op, tfield o.md, vfield o.a, o.e.t, 0, o.c, o.disp, f5 o.sat false o.e.code⟩
def TileSts.of (f : Long) : Option TileSts := do
  return ⟨← tregOf f.d, ← vregOf f.a, f.c, f.i, ← Elem.ofCode f.t (f5lo f.f), f.f.getLsbD 4⟩
def Hpack.raw (op : BitVec 9) (o : Hpack) : Raw := .ll ⟨op, vfield o.d, tfield o.ms, 0, 0, 0, o.k, f5 o.hi false 0⟩
def Hpack.of (f : Long) : Option Hpack := do return ⟨← vregOf f.d, ← tregOf f.a, f.i, f.f.getLsbD 4⟩
def PlSetV.raw (op : BitVec 9) (o : PlSetV) : Raw := .ll ⟨op, 0, vfield o.a, 0, 0, 0, 0, 0⟩
def PlSetV.of (f : Long) : Option PlSetV := do return ⟨← vregOf f.a⟩
def PlGet.raw (op : BitVec 9) (o : PlGet) : Raw := .ll ⟨op, vfield o.d, 0, 0, 0, 0, 0, 0⟩
def PlGet.of (f : Long) : Option PlGet := do return ⟨← vregOf f.d⟩

def UniBin.raw (op : BitVec 9) (o : UniBin) : Raw := .ul ⟨op, o.d, o.a, o.e.t, o.b.bField, 0, o.b.iField, f5 false o.b.isImm o.e.code⟩
/-- The second operand of a uniform instruction: F5[3] selects the immediate (R126). -/
def USrc.ofLong (f : Long) : USrc := if f.f.getLsbD 3 then .imm f.i else .reg f.b
def UniBin.of (f : Long) : Option UniBin := do return ⟨f.d, f.a, USrc.ofLong f, ← Elem.ofCode f.t (f5lo f.f)⟩
def UniUn.raw (op : BitVec 9) (o : UniUn) : Raw := .ul ⟨op, o.d, o.a, o.e.t, 0, 0, 0, f5 false false o.e.code⟩
def UniUn.of (f : Long) : Option UniUn := do return ⟨f.d, f.a, ← Elem.ofCode f.t (f5lo f.f)⟩
def UniTri.raw (op : BitVec 9) (o : UniTri) : Raw := .ul ⟨op, o.d, o.a, o.e.t, o.b, 0, 0, f5 false false o.e.code⟩
def UniTri.of (f : Long) : Option UniTri := do return ⟨f.d, f.a, f.b, ← Elem.ofCode f.t (f5lo f.f)⟩
def UniCmp.raw (op : BitVec 9) (o : UniCmp) : Raw := .ul ⟨op, 0, o.a, o.e.t, o.b, 0, o.cond.code, f5 false false o.e.code⟩
def UniCmp.of (f : Long) : Option UniCmp := do return ⟨f.a, f.b, ← ICond.of f.i, ← Elem.ofCode f.t (f5lo f.f)⟩
def UniMov.raw (op : BitVec 9) (o : UniMov) : Raw := .ul ⟨op, o.d, 0, o.e.t, o.b.bField, 0, o.b.iField, f5 false o.b.isImm o.e.code⟩
def UniMov.of (f : Long) : Option UniMov := do return ⟨f.d, USrc.ofLong f, ← Elem.ofCode f.t (f5lo f.f)⟩
def UniMovI.raw (op : BitVec 9) (o : UniMovI) : Raw := .ul ⟨op, o.d, 0, 0b11, 0, 0, o.k, f5 false false (if o.signed then 0 else 1)⟩
def UniMovI.of (f : Long) : Option UniMovI := some ⟨f.d, f.i, f.f == 0⟩
def UniIns.raw (op : BitVec 9) (o : UniIns) : Raw := .ul ⟨op, o.d, 0, 0, 0, 0, o.k, f5 false false o.p⟩
def UniIns.of (f : Long) : Option UniIns := some ⟨f.d, f.i, f5lo f.f⟩
def UniMem.raw (op : BitVec 9) (o : UniMem) : Raw := .ul ⟨op, o.d, o.a, o.t.t, 0, 0, o.disp, memF5 o.scope o.ord o.x⟩
def UniMem.of (f : Long) : Option UniMem := some ⟨f.d, f.a, f.i, Width.ofT f.t, f5order f.f, f5scope f.f, f.f.getLsbD 0⟩
def UniAtom.raw (op : BitVec 9) (o : UniAtom) : Raw :=
  .ul ⟨op, o.d, o.a, wideT o.wide, o.b, 0, o.op.code.setWidth 8, memF5 o.scope o.ord o.x⟩
def UniAtom.of (f : Long) : Option UniAtom := do
  return ⟨f.d, f.a, f.b, ← AtomOp.of (f.i.extractLsb' 0 4), ← wideOf f.t, f5order f.f, f5scope f.f, f.f.getLsbD 0⟩

/-- B:C:I8, a 24-bit displacement or word offset with B the high byte (R84). -/
def dispOf (f : Long) : BitVec 24 := (f.b ++ f.c) ++ f.i
/-- Control words have T = 00 (R166). -/
def dispLong (op : BitVec 9) (d a : BitVec 8) (x : BitVec 24) (f : BitVec 5) : Raw :=
  .ul ⟨op, d, a, 0, x.extractLsb' 16 8, x.extractLsb' 8 8, x.extractLsb' 0 8, f⟩
def Branch.raw (op : BitVec 9) (o : Branch) : Raw := dispLong op 0 0 o.disp o.cond.code
def Branch.of (f : Long) : Option Branch := (BCond.of f.f).map fun c => ⟨c, dispOf f⟩
def BranchDiv.raw (op : BitVec 9) (o : BranchDiv) : Raw := dispLong op 0 o.a o.disp (0#4 ++ BitVec.ofBool o.not)
def BranchDiv.of (f : Long) : Option BranchDiv := some ⟨f.a, f.f.getLsbD 0, dispOf f⟩
def JumpAbs.raw (op : BitVec 9) (o : JumpAbs) : Raw := dispLong op 0 0 o.abs 0
def JumpAbs.of (f : Long) : Option JumpAbs := some ⟨dispOf f⟩
def CallRel.raw (op : BitVec 9) (o : CallRel) : Raw := dispLong op o.d 0 o.disp 0
def CallRel.of (f : Long) : Option CallRel := some ⟨f.d, dispOf f⟩
def LoopOp.raw (op : BitVec 9) (o : LoopOp) : Raw := dispLong op 0 o.a o.disp 0
def LoopOp.of (f : Long) : Option LoopOp := some ⟨f.a, dispOf f⟩
/-- A uniform word with T = 00 and C = 0. -/
def plain (op : BitVec 9) (d a b i : BitVec 8) (f : BitVec 5) : Raw := .ul ⟨op, d, a, 0, b, 0, i, f⟩
/-- A one-bit flag in F5[0]. -/
def f5bit0 (x : Bool) : BitVec 5 := 0#4 ++ BitVec.ofBool x
def OneU.raw (op : BitVec 9) (o : OneU) : Raw := plain op 0 o.a 0 0 0
def OneU.of (f : Long) : Option OneU := some ⟨f.a⟩
def DestU.raw (op : BitVec 9) (o : DestU) : Raw := plain op o.d 0 0 0 0
def DestU.of (f : Long) : Option DestU := some ⟨f.d⟩
def TwoU.raw (op : BitVec 9) (o : TwoU) : Raw := plain op o.d o.a 0 0 0
def TwoU.of (f : Long) : Option TwoU := some ⟨f.d, f.a⟩
def ThreeU.raw (op : BitVec 9) (o : ThreeU) : Raw := plain op o.d o.a o.b 0 0
def ThreeU.of (f : Long) : Option ThreeU := some ⟨f.d, f.a, f.b⟩
def SrcTwo.raw (op : BitVec 9) (o : SrcTwo) : Raw := plain op 0 o.a o.b 0 0
def SrcTwo.of (f : Long) : Option SrcTwo := some ⟨f.a, f.b⟩
def CondOnly.raw (op : BitVec 9) (o : CondOnly) : Raw := plain op 0 0 0 0 o.cond.code
def CondOnly.of (f : Long) : Option CondOnly := (BCond.of f.f).map fun c => ⟨c⟩
def Rcv.raw (op : BitVec 9) (o : Rcv) : Raw := plain op 0 (bindField o.mask) 0 0 (f5bit0 o.mask.isSome)
def Rcv.of (f : Long) : Option Rcv := some ⟨if f.f.getLsbD 0 then some f.a else none⟩
def Rcvw.raw (op : BitVec 9) (o : Rcvw) : Raw := plain op 0 o.a (bindField o.mask) 0 (f5bit0 o.mask.isSome)
def Rcvw.of (f : Long) : Option Rcvw := some ⟨f.a, if f.f.getLsbD 0 then some f.b else none⟩
def Imm8.raw (op : BitVec 9) (o : Imm8) : Raw := plain op 0 0 0 o.k 0
def Imm8.of (f : Long) : Option Imm8 := some ⟨f.i⟩
def PlaneImm.raw (op : BitVec 9) (o : PlaneImm) : Raw := plain op 0 0 0 (o.p.setWidth 8) 0
def PlaneImm.of (f : Long) : Option PlaneImm := some ⟨f.i.setWidth 3⟩
def PlaneMask.raw (op : BitVec 9) (o : PlaneMask) : Raw := plain op 0 o.a 0 (o.p.setWidth 8) 0
def PlaneMask.of (f : Long) : Option PlaneMask := some ⟨f.a, f.i.setWidth 3⟩
def Count.raw (op : BitVec 9) (o : Count) : Raw := plain op 0 0 0 (o.n.setWidth 8) 0
def Count.of (f : Long) : Option Count := some ⟨f.i.setWidth 7⟩
def BarNo.raw (op : BitVec 9) (o : BarNo) : Raw := plain op 0 0 0 (o.k.setWidth 8) 0
def BarNo.of (f : Long) : Option BarNo := some ⟨f.i.setWidth 3⟩
def PhaseArr.raw (op : BitVec 9) (o : PhaseArr) : Raw :=
  plain op o.d o.a (bindField o.b) 0 ((0#3 ++ BitVec.ofBool o.cw) ++ BitVec.ofBool o.b.isNone)
def PhaseArr.of (f : Long) : Option PhaseArr := some ⟨f.d, f.a, if f.f.getLsbD 0 then none else some f.b, f.f.getLsbD 1⟩
def PhaseWait.raw (op : BitVec 9) (o : PhaseWait) : Raw := plain op 0 o.a o.b 0 ((0#3 ++ BitVec.ofBool o.cw) ++ 0#1)
def PhaseWait.of (f : Long) : Option PhaseWait := some ⟨f.a, f.b, f.f.getLsbD 1⟩
def ScopeOnly.raw (op : BitVec 9) (o : ScopeOnly) : Raw := plain op 0 0 0 0 (o.scope.code ++ 0#3)
def ScopeOnly.of (f : Long) : Option ScopeOnly := some ⟨f5scope f.f⟩
def WaitLine.raw (op : BitVec 9) (o : WaitLine) : Raw := plain op o.d o.a (bindField o.b) 0 (f5bit0 o.b.isSome)
def WaitLine.of (f : Long) : Option WaitLine := some ⟨f.d, f.a, if f.f.getLsbD 0 then some f.b else none⟩
def MbSend.raw (op : BitVec 9) (o : MbSend) : Raw := plain op 0 o.a o.b (o.m.setWidth 8) 0
def MbSend.of (f : Long) : Option MbSend := some ⟨f.a, f.b, f.i.setWidth 4⟩
def MbTake.raw (op : BitVec 9) (o : MbTake) : Raw := plain op o.d 0 0 (o.m.setWidth 8) 0
def MbTake.of (f : Long) : Option MbTake := some ⟨f.d, f.i.setWidth 4⟩
def MbPush.raw (op : BitVec 9) (o : MbPush) : Raw := plain op 0 0 o.b (o.m.setWidth 8) 0
def MbPush.of (f : Long) : Option MbPush := some ⟨f.b, f.i.setWidth 4⟩
def MbSteal.raw (op : BitVec 9) (o : MbSteal) : Raw := plain op o.d o.a 0 (o.m.setWidth 8) 0
def MbSteal.of (f : Long) : Option MbSteal := some ⟨f.d, f.a, f.i.setWidth 4⟩
def Sleep.raw (op : BitVec 9) (o : Sleep) : Raw := plain op 0 o.a 0 0 (f5bit0 o.mb)
def Sleep.of (f : Long) : Option Sleep := some ⟨f.a, f.f.getLsbD 0⟩
def Ladle.raw (op : BitVec 9) (o : Ladle) : Raw := plain op 0 o.a 0 0 (f5bit0 o.st)
def Ladle.of (f : Long) : Option Ladle := some ⟨f.a, f.f.getLsbD 0⟩
def LadleZ.raw (op : BitVec 9) (o : LadleZ) : Raw := plain op 0 o.a 0 0 ((0#3 ++ BitVec.ofBool o.z) ++ 0#1)
def LadleZ.of (f : Long) : Option LadleZ := some ⟨f.a, f.f.getLsbD 1⟩
def LcBld.raw (op : BitVec 9) (o : LcBld) : Raw := plain op 0 o.a 0 o.v 0
def LcBld.of (f : Long) : Option LcBld := some ⟨f.a, f.i⟩
def Storage.raw (op : BitVec 9) (o : Storage) : Raw := plain op o.d o.a o.b (o.q.setWidth 8) 0
def Storage.of (f : Long) : Option Storage := some ⟨f.d, f.a, f.b, f.i.setWidth 7⟩
def Ckpt.raw (op : BitVec 9) (o : Ckpt) : Raw := plain op o.d o.a 0 0 (f5bit0 o.dirty)
def Ckpt.of (f : Long) : Option Ckpt := some ⟨f.d, f.a, f.f.getLsbD 0⟩
def ArrInit.raw (op : BitVec 9) (o : ArrInit) : Raw := .ul ⟨op, 0, o.a, 0, o.b, o.c, 0, 0⟩
def ArrInit.of (f : Long) : Option ArrInit := some ⟨f.a, f.b, f.c⟩
def MClr.raw (op : BitVec 9) (o : MClr) : Raw := plain op 0 o.a o.b 0 0
def MClr.of (f : Long) : Option MClr := some ⟨f.a, f.b⟩
def Hprobe.raw (op : BitVec 9) (o : Hprobe) : Raw := plain op 0 o.a 0 (o.n.setWidth 8) 0
def Hprobe.of (f : Long) : Option Hprobe := some ⟨f.i.setWidth 3, f.a⟩
def Hlist.raw (op : BitVec 9) (o : Hlist) : Raw := plain op 0 o.a o.b (o.n.setWidth 8) (f5bit0 o.famB)
def Hlist.of (f : Long) : Option Hlist := some ⟨f.i.setWidth 3, f.a, f.b, f.f.getLsbD 0⟩
def HslotTwo.raw (op : BitVec 9) (o : HslotTwo) : Raw := plain op o.d o.a 0 (o.n.setWidth 8) 0
def HslotTwo.of (f : Long) : Option HslotTwo := some ⟨f.d, f.i.setWidth 3, f.a⟩
def Hswap.raw (op : BitVec 9) (o : Hswap) : Raw := plain op o.d 0 0 (o.n.setWidth 8) 0
def Hswap.of (f : Long) : Option Hswap := some ⟨f.d, f.i.setWidth 3⟩
def drainField : Option (BitVec 3) → BitVec 8 | some n => n.setWidth 8 | none => 0
def Hfence.raw (op : BitVec 9) (o : Hfence) : Raw := plain op 0 0 0 (drainField o.drain) (f5bit0 o.drain.isSome)
def Hfence.of (f : Long) : Option Hfence := some ⟨if f.f.getLsbD 0 then some (f.i.setWidth 3) else none⟩
def Hstat.raw (op : BitVec 9) (o : Hstat) : Raw := plain op 0 o.a 0 (o.n.setWidth 8) 0
def Hstat.of (f : Long) : Option Hstat := some ⟨f.i.setWidth 3, f.a⟩
def GetSr.raw (op : BitVec 9) (o : GetSr) : Raw := plain op o.d 0 0 o.r.index 0
def GetSr.of (f : Long) : Option GetSr := (SpecReg.of f.i).map fun r => ⟨f.d, r⟩
def SetSr.raw (op : BitVec 9) (o : SetSr) : Raw := plain op 0 o.a 0 o.r.index 0
def SetSr.of (f : Long) : Option SetSr := (SpecReg.of f.i).map fun r => ⟨r, f.a⟩
def Pour.raw (op : BitVec 9) (o : Pour) : Raw := plain op o.d o.a 0 (o.q.setWidth 8) 0
def Pour.of (f : Long) : Option Pour := some ⟨f.d, f.a, f.i.setWidth 5⟩
def FlagOnly.raw (op : BitVec 9) (o : FlagOnly) : Raw := plain op 0 0 0 0 (f5bit0 o.x)
def FlagOnly.of (f : Long) : Option FlagOnly := some ⟨f.f.getLsbD 0⟩
def DgFold.raw (op : BitVec 9) (o : DgFold) : Raw := plain op 0 o.a o.b 0 (f5bit0 o.clr)
def DgFold.of (f : Long) : Option DgFold := some ⟨f.a, f.b, f.f.getLsbD 0⟩

/-! ### Opcodes to instructions and back -/


/-- The fields of an instruction (R88, R90, R92, R93); an event of the part has none. -/
def Instr.toRaw : Instr → Option Raw
  | .vaddShort o => some (o.raw 0x00)
  | .vsubShort o => some (o.raw 0x01)
  | .vaddi o => some (o.raw 0x02)
  | .vmulShort o => some (o.raw 0x03)
  | .vandShort o => some (o.raw 0x04)
  | .vorShort o => some (o.raw 0x05)
  | .vxorShort o => some (o.raw 0x06)
  | .vshli o => some (o.raw 0x07)
  | .vshri o => some (o.raw 0x08)
  | .vsrai o => some (o.raw 0x09)
  | .vminShort o => some (o.raw 0x0A)
  | .vmaxShort o => some (o.raw 0x0B)
  | .vadds o => some (o.raw 0x0C)
  | .vmuls o => some (o.raw 0x0D)
  | .faddShort o => some (o.raw 0x0E)
  | .fsubShort o => some (o.raw 0x0F)
  | .fmulShort o => some (o.raw 0x10)
  | .fadds o => some (o.raw 0x11)
  | .fmuls o => some (o.raw 0x12)
  | .fminShort o => some (o.raw 0x13)
  | .fmaxShort o => some (o.raw 0x14)
  | .ffmaShort o => some (o.raw 0x15)
  | .ldsShort o => some (o.raw 0x16)
  | .stsShort o => some (o.raw 0x17)
  | .vmovsShort o => some (o.raw 0x18)
  | .smovShort o => some (o.raw 0x00 0)
  | .saddShort o => some (o.raw 0x00 1)
  | .ssubShort o => some (o.raw 0x00 2)
  | .smulShort o => some (o.raw 0x00 3)
  | .sandShort o => some (o.raw 0x00 4)
  | .sorShort o => some (o.raw 0x00 5)
  | .sxorShort o => some (o.raw 0x00 6)
  | .sshlShort o => some (o.raw 0x00 7)
  | .sshrShort o => some (o.raw 0x00 8)
  | .ssraShort o => some (o.raw 0x00 9)
  | .sminShort o => some (o.raw 0x00 10)
  | .smaxShort o => some (o.raw 0x00 11)
  | .sminn o => some (o.raw 0x00 12)
  | .smaxn o => some (o.raw 0x00 13)
  | .scmpShort o => some (o.raw 0x01)
  | .brs o => some (o.raw 0x02)
  | .msave o => some (o.raw 0x03 0)
  | .mload o => some (o.raw 0x03 1)
  | .mand o => some (o.raw 0x03 2)
  | .mandn o => some (o.raw 0x03 3)
  | .mor o => some (o.raw 0x03 4)
  | .mxor o => some (o.raw 0x03 5)
  | .waitcntShort o => some (o.raw 0x04 0)
  | .bwaitShort o => some (o.raw 0x04 1)
  | .bcloseShort o => some (o.raw 0x04 2)
  | .mwaitShort o => some (o.raw 0x04 3)
  | .nop => some (.su ⟨0x04, 0, 0, false, 0x1F⟩)
  | .vadd o => some (o.raw 0x000)
  | .vsub o => some (o.raw 0x001)
  | .vmul o => some (o.raw 0x002)
  | .vmulh o => some (o.raw 0x003)
  | .vmad o => some (o.raw 0x004)
  | .vand o => some (o.raw 0x005)
  | .vor o => some (o.raw 0x006)
  | .vxor o => some (o.raw 0x007)
  | .vnot o => some (o.raw 0x008)
  | .vshl o => some (o.raw 0x009)
  | .vshr o => some (o.raw 0x00A)
  | .vsra o => some (o.raw 0x00B)
  | .vrot o => some (o.raw 0x00C)
  | .vmin o => some (o.raw 0x00D)
  | .vmax o => some (o.raw 0x00E)
  | .vabs o => some (o.raw 0x00F)
  | .vneg o => some (o.raw 0x010)
  | .vclz o => some (o.raw 0x011)
  | .vpopc o => some (o.raw 0x012)
  | .vbrev o => some (o.raw 0x013)
  | .vbfx o => some (o.raw 0x014)
  | .vbfi o => some (o.raw 0x015)
  | .vsel o => some (o.raw 0x016)
  | .vcmp o => some (o.raw 0x017)
  | .vcmpv o => some (o.raw 0x018)
  | .vmov o => some (o.raw 0x019)
  | .vmovs o => some (o.raw 0x01A)
  | .vidx o => some (o.raw 0x01B)
  | .vpack o => some (o.raw 0x01C)
  | .vunpk o => some (o.raw 0x01D)
  | .fadd o => some (o.raw 0x040)
  | .fsub o => some (o.raw 0x041)
  | .fmul o => some (o.raw 0x042)
  | .ffma o => some (o.raw 0x043)
  | .fmin o => some (o.raw 0x044)
  | .fmax o => some (o.raw 0x045)
  | .fabs o => some (o.raw 0x046)
  | .fneg o => some (o.raw 0x047)
  | .fcmp o => some (o.raw 0x048)
  | .fcmpv o => some (o.raw 0x049)
  | .fclass o => some (o.raw 0x04A)
  | .fscale o => some (o.raw 0x04B)
  | .frnd o => some (o.raw 0x04C)
  | .fcvt o => some (o.raw 0x04D)
  | .icvt o => some (o.raw 0x04E)
  | .ftoi o => some (o.raw 0x04F)
  | .fdot o => some (o.raw 0x050)
  | .frcp o => some (o.raw 0x080)
  | .frsq o => some (o.raw 0x081)
  | .fexp2 o => some (o.raw 0x082)
  | .flog2 o => some (o.raw 0x083)
  | .fsin o => some (o.raw 0x084)
  | .fcos o => some (o.raw 0x085)
  | .ftanh o => some (o.raw 0x086)
  | .vshf o => some (o.raw 0x0A0)
  | .vshfi o => some (o.raw 0x0A1)
  | .qswp o => some (o.raw 0x0A2)
  | .qbc o => some (o.raw 0x0A3)
  | .vbal o => some (o.raw 0x0A4)
  | .vvote o => some (o.raw 0x0A5)
  | .vred o => some (o.raw 0x0A6)
  | .vscan o => some (o.raw 0x0A7)
  | .vconf o => some (o.raw 0x0A8)
  | .visect o => some (o.raw 0x0A9)
  | .vtopk o => some (o.raw 0x0AA)
  | .vmrank o => some (o.raw 0x0AB)
  | .ld o => some (o.raw 0x0E0)
  | .st o => some (o.raw 0x0E1)
  | .lds o => some (o.raw 0x0E2)
  | .sts o => some (o.raw 0x0E3)
  | .ldc o => some (o.raw 0x0E4)
  | .stc o => some (o.raw 0x0E5)
  | .atom o => some (o.raw 0x0E6)
  | .atoms o => some (o.raw 0x0E7)
  | .atomc o => some (o.raw 0x0E8)
  | .ldf o => some (o.raw 0x0E9)
  | .radd o => some (o.raw 0x120)
  | .rmin o => some (o.raw 0x121)
  | .rmax o => some (o.raw 0x122)
  | .ror o => some (o.raw 0x123)
  | .rwo o => some (o.raw 0x124)
  | .rarr o => some (o.raw 0x125)
  | .rget o => some (o.raw 0x126)
  | .cradd o => some (o.raw 0x127)
  | .crrd o => some (o.raw 0x128)
  | .mma o => some (o.raw 0x140)
  | .oadd o => some (o.raw 0x141)
  | .mld o => some (o.raw 0x142)
  | .mst o => some (o.raw 0x143)
  | .mzero o => some (o.raw 0x144)
  | .hpack o => some (o.raw 0x145)
  | .msts o => some (o.raw 0x146)
  | .plsetv o => some (o.raw 0x160)
  | .plget o => some (o.raw 0x161)
  | .sadd o => some (o.raw 0x000)
  | .ssub o => some (o.raw 0x001)
  | .smul o => some (o.raw 0x002)
  | .smulh o => some (o.raw 0x003)
  | .sdiv o => some (o.raw 0x004)
  | .srem o => some (o.raw 0x005)
  | .sand o => some (o.raw 0x006)
  | .sor o => some (o.raw 0x007)
  | .sxor o => some (o.raw 0x008)
  | .snot o => some (o.raw 0x009)
  | .sshl o => some (o.raw 0x00A)
  | .sshr o => some (o.raw 0x00B)
  | .ssra o => some (o.raw 0x00C)
  | .smin o => some (o.raw 0x00D)
  | .smax o => some (o.raw 0x00E)
  | .sclz o => some (o.raw 0x00F)
  | .sctz o => some (o.raw 0x010)
  | .spopc o => some (o.raw 0x011)
  | .sbfx o => some (o.raw 0x012)
  | .sbfi o => some (o.raw 0x013)
  | .ssel o => some (o.raw 0x014)
  | .scmp o => some (o.raw 0x015)
  | .smov o => some (o.raw 0x016)
  | .smovi o => some (o.raw 0x017)
  | .sinsi o => some (o.raw 0x018)
  | .sld o => some (o.raw 0x019)
  | .sst o => some (o.raw 0x01A)
  | .satom o => some (o.raw 0x01B)
  | .br o => some (o.raw 0x040)
  | .brd o => some (o.raw 0x041)
  | .jmp o => some (o.raw 0x042)
  | .jmpr o => some (o.raw 0x043)
  | .call o => some (o.raw 0x044)
  | .callr o => some (o.raw 0x045)
  | .ret o => some (o.raw 0x046)
  | .loop o => some (o.raw 0x047)
  | .lbreak o => some (o.raw 0x048)
  | .rcv o => some (o.raw 0x049)
  | .rcvw o => some (o.raw 0x04A)
  | .exit => some (plain 0x04B 0 0 0 0 0)
  | .trap o => some (o.raw 0x04C)
  | .tret => some (plain 0x04D 0 0 0 0 0)
  | .plset o => some (o.raw 0x04E)
  | .plmask o => some (o.raw 0x04F)
  | .mskop o => some (o.raw 0x050)
  | .qhlp => some (plain 0x051 0 0 0 0 0)
  | .waitcnt o => some (o.raw 0x080)
  | .bclose o => some (o.raw 0x081)
  | .bwait o => some (o.raw 0x082)
  | .mwait o => some (o.raw 0x083)
  | .bar o => some (o.raw 0x084)
  | .cbar o => some (o.raw 0x085)
  | .barv o => some (o.raw 0x086)
  | .bwaitp o => some (o.raw 0x087)
  | .fence o => some (o.raw 0x088)
  | .fencee => some (plain 0x089 0 0 0 0 0)
  | .waita o => some (o.raw 0x08A)
  | .arrst o => some (o.raw 0x08B)
  | .rflush => some (plain 0x08C 0 0 0 0 0)
  | .mbsend o => some (o.raw 0x08D)
  | .mbrecv o => some (o.raw 0x08E)
  | .mbpush o => some (o.raw 0x08F)
  | .mbpop o => some (o.raw 0x090)
  | .mbsteal o => some (o.raw 0x091)
  | .sleep o => some (o.raw 0x092)
  | .ltile o => some (o.raw 0x0C0)
  | .lgath o => some (o.raw 0x0C1)
  | .lscat o => some (o.raw 0x0C2)
  | .lcbld o => some (o.raw 0x0C3)
  | .tsend o => some (o.raw 0x0C4)
  | .sload o => some (o.raw 0x0C5)
  | .sstore o => some (o.raw 0x0C6)
  | .ckpt o => some (o.raw 0x0C7)
  | .spec o => some (o.raw 0x0C8)
  | .spcommit o => some (o.raw 0x0C9)
  | .spdrop o => some (o.raw 0x0CA)
  | .tfset o => some (o.raw 0x0CB)
  | .arrinit o => some (o.raw 0x0CC)
  | .crclr o => some (o.raw 0x0CD)
  | .mclr o => some (o.raw 0x0CE)
  | .hprobe o => some (o.raw 0x100)
  | .hins o => some (o.raw 0x101)
  | .hdel o => some (o.raw 0x102)
  | .hadv o => some (o.raw 0x103)
  | .hswap o => some (o.raw 0x104)
  | .hfence o => some (o.raw 0x105)
  | .hstat o => some (o.raw 0x106)
  | .hbind o => some (o.raw 0x107)
  | .getsr o => some (o.raw 0x120)
  | .setsr o => some (o.raw 0x121)
  | .pour o => some (o.raw 0x122)
  | .dgon o => some (o.raw 0x123)
  | .dgoff => some (plain 0x124 0 0 0 0 0)
  | .dgfold o => some (o.raw 0x125)
  | .dgchk o => some (o.raw 0x126)
  | .yield => some (plain 0x127 0 0 0 0 0)
  | .trapEntry _ _ => none
  | .splitMerge _ _ _ => none
  | .splitPromotion _ _ => none
  | .rcvwTimeout _ _ => none
  | .sleepExpiry _ _ => none
  | .waitaTimeout _ _ => none
  | .loadCompletion _ _ => none
  | .ladlePiece _ _ _ => none
  | .matrixOpStart _ => none
  | .matrixOpCompletion _ => none
  | .castWindowMessage _ _ _ => none
  | .castWindowReply _ _ _ => none
  | .mailboxOperation _ _ => none
  | .coreClockGate _ => none
  | .coreWake _ _ => none
  | .groupUnpark _ => none
  | .forcedPark _ => none
  | .placementDecision _ => none
  | .drainReservation _ => none
  | .launchTake _ => none
  | .launchStart => none
  | .priorityAging _ => none
  | .blockPreempt _ => none
  | .dieEndReport _ _ => none
  | .completionArrival _ _ => none
  | .pageWalk _ _ _ => none
  | .staleAccessRetry _ _ _ => none
  | .faultQueueAppend _ _ => none
  | .cacheLineFetch _ _ => none
  | .cacheLineDrop _ _ => none
  | .cacheWriteBack _ _ => none
  | .bucketInsert _ _ => none
  | .bucketDelete _ _ => none
  | .bucketSnapshot _ _ => none
  | .riddleCommandCompletion _ _ => none
  | .raddPacket _ => none
  | .rminPacket _ => none
  | .rmaxPacket _ => none
  | .rorPacket _ => none
  | .rwoPacket _ => none
  | .rarrPacket _ => none
  | .craddPacket _ => none
  | .rgetRequest _ => none
  | .rgetReply _ => none
  | .ladlePiecePacket _ => none
  | .tsendSignal _ => none
  | .checkpointFrame _ => none
  | .checkpointMark _ => none
  | .arrinitPacket _ => none
  | .crclrPacket _ => none
  | .mclrPacket _ => none
  | .waitaWatch _ => none
  | .arrstRead _ => none
  | .responseAcknowledged _ => none
  | .responseRetryLater _ => none
  | .responseStale _ => none
  | .responseReject _ => none
  | .responseLineAnswer _ => none
  | .retransmitTimeout _ => none
  | .frameReceive _ _ => none
  | .nvmeCompletion _ _ => none
  | .checkpointCut _ => none
  | .checkpointStream _ => none
  | .dbellWrite _ => none
  | .qdoorWrite _ => none
  | .mailboxClr _ _ => none
  | .gensetWrite _ _ => none
  | .gensetComplete _ => none
  | .fltdoneWrite _ _ => none
  | .hslotUnbind _ _ => none
  | .preemptGo _ _ => none
  | .preemptHold _ _ => none
  | .preemptRelease _ _ => none
  | .hflushWrite _ _ => none
  | .hflushComplete _ => none
  | .watchArm _ _ => none
  | .dieDrain _ => none
  | .dieUndrain _ => none
  | .firmwareSwitch _ => none
  | .linkWithdraw _ _ => none
  | .splitModeWrite _ _ => none
  | .modeChangeEffect _ _ => none
  | .plcoreWrite _ _ => none
  | .errverdWrite _ _ => none
  | .registerWrite _ _ _ => none
  | .hostApertureAccess _ _ _ => none
  | .softError _ _ => none
  | .scrub _ => none
  | .selfTest _ _ => none
  | .linkStateChange _ _ => none
  | .serviceLevelRise => none
  | .thermalStep _ _ => none
  | .fixedLatencyResult _ _ => none
  | .meshPacketDrop _ _ => none
  | .dieReset _ => none
  | .packageReset => none
  | .pcieLinkStateChange _ _ => none

/-- The short lane opcodes (R88). -/
def parseShortLane (f : ShortLane) : Option Instr :=
  match f.op.toNat with
  | 0x00 => (ShV.of f).map .vaddShort
  | 0x01 => (ShV.of f).map .vsubShort
  | 0x02 => (ShI.of f).map .vaddi
  | 0x03 => (ShV.of f).map .vmulShort
  | 0x04 => (ShV.of f).map .vandShort
  | 0x05 => (ShV.of f).map .vorShort
  | 0x06 => (ShV.of f).map .vxorShort
  | 0x07 => (ShI.of f).map .vshli
  | 0x08 => (ShI.of f).map .vshri
  | 0x09 => (ShI.of f).map .vsrai
  | 0x0A => (ShV.of f).map .vminShort
  | 0x0B => (ShV.of f).map .vmaxShort
  | 0x0C => (ShS.of f).map .vadds
  | 0x0D => (ShS.of f).map .vmuls
  | 0x0E => (ShV.of f).map .faddShort
  | 0x0F => (ShV.of f).map .fsubShort
  | 0x10 => (ShV.of f).map .fmulShort
  | 0x11 => (ShS.of f).map .fadds
  | 0x12 => (ShS.of f).map .fmuls
  | 0x13 => (ShV.of f).map .fminShort
  | 0x14 => (ShV.of f).map .fmaxShort
  | 0x15 => (ShV.of f).map .ffmaShort
  | 0x16 => (ShI.of f).map .ldsShort
  | 0x17 => (ShI.of f).map .stsShort
  | 0x18 => (ShMovS.of f).map .vmovsShort
  | _ => none

/-- The short uniform opcodes (R90). -/
def parseShortUni (f : ShortUni) : Option Instr :=
  match f.op.toNat, f.f.toNat with
  | 0, 0 => (ShU.of f).map .smovShort
  | 0, 1 => (ShU.of f).map .saddShort
  | 0, 2 => (ShU.of f).map .ssubShort
  | 0, 3 => (ShU.of f).map .smulShort
  | 0, 4 => (ShU.of f).map .sandShort
  | 0, 5 => (ShU.of f).map .sorShort
  | 0, 6 => (ShU.of f).map .sxorShort
  | 0, 7 => (ShU.of f).map .sshlShort
  | 0, 8 => (ShU.of f).map .sshrShort
  | 0, 9 => (ShU.of f).map .ssraShort
  | 0, 10 => (ShU.of f).map .sminShort
  | 0, 11 => (ShU.of f).map .smaxShort
  | 0, 12 => (ShU.of f).map .sminn
  | 0, 13 => (ShU.of f).map .smaxn
  | 1, _ => (ShCmp.of f).map .scmpShort
  | 2, _ => (ShBr.of f).map .brs
  | 3, 0 => (ShReg.of f).map .msave
  | 3, 1 => (ShReg.of f).map .mload
  | 3, 2 => (ShReg.of f).map .mand
  | 3, 3 => (ShReg.of f).map .mandn
  | 3, 4 => (ShReg.of f).map .mor
  | 3, 5 => (ShReg.of f).map .mxor
  | 4, 0 => (ShCount.of f).map .waitcntShort
  | 4, 1 => (ShReg.of f).map .bwaitShort
  | 4, 2 => (ShReg.of f).map .bcloseShort
  | 4, 3 => (ShCount.of f).map .mwaitShort
  | 4, 31 => some .nop
  | _, _ => none

/-- The lane long opcodes (R92). -/
def parseLongLane (f : Long) : Option Instr :=
  match f.op.toNat with
  | 0x000 => (LaneBin.of f).map .vadd
  | 0x001 => (LaneBin.of f).map .vsub
  | 0x002 => (LaneBin.of f).map .vmul
  | 0x003 => (LaneBin.of f).map .vmulh
  | 0x004 => (LaneTri.of f).map .vmad
  | 0x005 => (LaneBin.of f).map .vand
  | 0x006 => (LaneBin.of f).map .vor
  | 0x007 => (LaneBin.of f).map .vxor
  | 0x008 => (LaneUn.of f).map .vnot
  | 0x009 => (LaneShift.of f).map .vshl
  | 0x00A => (LaneShift.of f).map .vshr
  | 0x00B => (LaneShift.of f).map .vsra
  | 0x00C => (LaneShift.of f).map .vrot
  | 0x00D => (LaneBin.of f).map .vmin
  | 0x00E => (LaneBin.of f).map .vmax
  | 0x00F => (LaneUn.of f).map .vabs
  | 0x010 => (LaneUn.of f).map .vneg
  | 0x011 => (LaneUn.of f).map .vclz
  | 0x012 => (LaneUn.of f).map .vpopc
  | 0x013 => (LaneUn.of f).map .vbrev
  | 0x014 => (LaneBin.of f).map .vbfx
  | 0x015 => (LaneBin.of f).map .vbfi
  | 0x016 => (LaneTri.of f).map .vsel
  | 0x017 => (LaneCmp.of f).map .vcmp
  | 0x018 => (LaneCmpV.of f).map .vcmpv
  | 0x019 => (LaneMov.of f).map .vmov
  | 0x01A => (LaneMovS.of f).map .vmovs
  | 0x01B => (LaneIdx.of f).map .vidx
  | 0x01C => (LanePack.of f).map .vpack
  | 0x01D => (LaneUnX.of f).map .vunpk
  | 0x040 => (LaneBin.of f).map .fadd
  | 0x041 => (LaneBin.of f).map .fsub
  | 0x042 => (LaneBin.of f).map .fmul
  | 0x043 => (LaneTriX.of f).map .ffma
  | 0x044 => (LaneBin.of f).map .fmin
  | 0x045 => (LaneBin.of f).map .fmax
  | 0x046 => (LaneUn.of f).map .fabs
  | 0x047 => (LaneUn.of f).map .fneg
  | 0x048 => (LaneFCmp.of f).map .fcmp
  | 0x049 => (LaneFCmpV.of f).map .fcmpv
  | 0x04A => (LaneUn.of f).map .fclass
  | 0x04B => (LaneBin.of f).map .fscale
  | 0x04C => (LaneUnX.of f).map .frnd
  | 0x04D => (LaneCvt.of f).map .fcvt
  | 0x04E => (LaneCvt.of f).map .icvt
  | 0x04F => (LaneCvt.of f).map .ftoi
  | 0x050 => (LaneTriX.of f).map .fdot
  | 0x080 => (LaneUn.of f).map .frcp
  | 0x081 => (LaneUn.of f).map .frsq
  | 0x082 => (LaneUn.of f).map .fexp2
  | 0x083 => (LaneUn.of f).map .flog2
  | 0x084 => (LaneUn.of f).map .fsin
  | 0x085 => (LaneUn.of f).map .fcos
  | 0x086 => (LaneUn.of f).map .ftanh
  | 0x0A0 => (LaneBin.of f).map .vshf
  | 0x0A1 => (ShufImm.of f).map .vshfi
  | 0x0A2 => (QuadSwap.of f).map .qswp
  | 0x0A3 => (QuadBc.of f).map .qbc
  | 0x0A4 => (Ballot.of f).map .vbal
  | 0x0A5 => (Vote.of f).map .vvote
  | 0x0A6 => (Reduce.of f).map .vred
  | 0x0A7 => (Scan.of f).map .vscan
  | 0x0A8 => (LaneMono.of f).map .vconf
  | 0x0A9 => (Isect.of f).map .visect
  | 0x0AA => (LaneUn.of f).map .vtopk
  | 0x0AB => (Rank.of f).map .vmrank
  | 0x0E0 => (MemAcc.of f).map .ld
  | 0x0E1 => (MemAcc.of f).map .st
  | 0x0E2 => (ScrAcc.of f).map .lds
  | 0x0E3 => (ScrAcc.of f).map .sts
  | 0x0E4 => (ScrAcc.of f).map .ldc
  | 0x0E5 => (ScrAcc.of f).map .stc
  | 0x0E6 => (LaneAtom.of f).map .atom
  | 0x0E7 => (ScrAtom.of f).map .atoms
  | 0x0E8 => (WinAtom.of f).map .atomc
  | 0x0E9 => (FaultLd.of f).map .ldf
  | 0x120 => (Remote.of f).map .radd
  | 0x121 => (Remote.of f).map .rmin
  | 0x122 => (Remote.of f).map .rmax
  | 0x123 => (Remote.of f).map .ror
  | 0x124 => (Remote.of f).map .rwo
  | 0x125 => (RemArr.of f).map .rarr
  | 0x126 => (RemGet.of f).map .rget
  | 0x127 => (Remote.of f).map .cradd
  | 0x128 => (CrRead.of f).map .crrd
  | 0x140 => (Mma.of f).map .mma
  | 0x141 => (Oadd.of f).map .oadd
  | 0x142 => (TileMem.of f).map .mld
  | 0x143 => (TileMem.of f).map .mst
  | 0x144 => (TileOne.of f).map .mzero
  | 0x145 => (Hpack.of f).map .hpack
  | 0x146 => (TileSts.of f).map .msts
  | 0x160 => (PlSetV.of f).map .plsetv
  | 0x161 => (PlGet.of f).map .plget
  | _ => none

/-- The uniform long opcodes (R93). -/
def parseLongUni (f : Long) : Option Instr :=
  match f.op.toNat with
  | 0x000 => (UniBin.of f).map .sadd
  | 0x001 => (UniBin.of f).map .ssub
  | 0x002 => (UniBin.of f).map .smul
  | 0x003 => (UniBin.of f).map .smulh
  | 0x004 => (UniBin.of f).map .sdiv
  | 0x005 => (UniBin.of f).map .srem
  | 0x006 => (UniBin.of f).map .sand
  | 0x007 => (UniBin.of f).map .sor
  | 0x008 => (UniBin.of f).map .sxor
  | 0x009 => (UniUn.of f).map .snot
  | 0x00A => (UniBin.of f).map .sshl
  | 0x00B => (UniBin.of f).map .sshr
  | 0x00C => (UniBin.of f).map .ssra
  | 0x00D => (UniBin.of f).map .smin
  | 0x00E => (UniBin.of f).map .smax
  | 0x00F => (UniUn.of f).map .sclz
  | 0x010 => (UniUn.of f).map .sctz
  | 0x011 => (UniUn.of f).map .spopc
  | 0x012 => (UniTri.of f).map .sbfx
  | 0x013 => (UniTri.of f).map .sbfi
  | 0x014 => (UniBin.of f).map .ssel
  | 0x015 => (UniCmp.of f).map .scmp
  | 0x016 => (UniMov.of f).map .smov
  | 0x017 => (UniMovI.of f).map .smovi
  | 0x018 => (UniIns.of f).map .sinsi
  | 0x019 => (UniMem.of f).map .sld
  | 0x01A => (UniMem.of f).map .sst
  | 0x01B => (UniAtom.of f).map .satom
  | 0x040 => (Branch.of f).map .br
  | 0x041 => (BranchDiv.of f).map .brd
  | 0x042 => (JumpAbs.of f).map .jmp
  | 0x043 => (OneU.of f).map .jmpr
  | 0x044 => (CallRel.of f).map .call
  | 0x045 => (TwoU.of f).map .callr
  | 0x046 => (OneU.of f).map .ret
  | 0x047 => (LoopOp.of f).map .loop
  | 0x048 => (CondOnly.of f).map .lbreak
  | 0x049 => (Rcv.of f).map .rcv
  | 0x04A => (Rcvw.of f).map .rcvw
  | 0x04B => some .exit
  | 0x04C => (Imm8.of f).map .trap
  | 0x04D => some .tret
  | 0x04E => (PlaneImm.of f).map .plset
  | 0x04F => (PlaneMask.of f).map .plmask
  | 0x050 => (ThreeU.of f).map .mskop
  | 0x051 => some .qhlp
  | 0x080 => (Count.of f).map .waitcnt
  | 0x081 => (DestU.of f).map .bclose
  | 0x082 => (OneU.of f).map .bwait
  | 0x083 => (Count.of f).map .mwait
  | 0x084 => (BarNo.of f).map .bar
  | 0x085 => (BarNo.of f).map .cbar
  | 0x086 => (PhaseArr.of f).map .barv
  | 0x087 => (PhaseWait.of f).map .bwaitp
  | 0x088 => (ScopeOnly.of f).map .fence
  | 0x089 => some .fencee
  | 0x08A => (WaitLine.of f).map .waita
  | 0x08B => (TwoU.of f).map .arrst
  | 0x08C => some .rflush
  | 0x08D => (MbSend.of f).map .mbsend
  | 0x08E => (MbTake.of f).map .mbrecv
  | 0x08F => (MbPush.of f).map .mbpush
  | 0x090 => (MbTake.of f).map .mbpop
  | 0x091 => (MbSteal.of f).map .mbsteal
  | 0x092 => (Sleep.of f).map .sleep
  | 0x0C0 => (Ladle.of f).map .ltile
  | 0x0C1 => (LadleZ.of f).map .lgath
  | 0x0C2 => (LadleZ.of f).map .lscat
  | 0x0C3 => (LcBld.of f).map .lcbld
  | 0x0C4 => (OneU.of f).map .tsend
  | 0x0C5 => (Storage.of f).map .sload
  | 0x0C6 => (Storage.of f).map .sstore
  | 0x0C7 => (Ckpt.of f).map .ckpt
  | 0x0C8 => (TwoU.of f).map .spec
  | 0x0C9 => (OneU.of f).map .spcommit
  | 0x0CA => (OneU.of f).map .spdrop
  | 0x0CB => (ThreeU.of f).map .tfset
  | 0x0CC => (ArrInit.of f).map .arrinit
  | 0x0CD => (OneU.of f).map .crclr
  | 0x0CE => (MClr.of f).map .mclr
  | 0x100 => (Hprobe.of f).map .hprobe
  | 0x101 => (Hlist.of f).map .hins
  | 0x102 => (Hlist.of f).map .hdel
  | 0x103 => (HslotTwo.of f).map .hadv
  | 0x104 => (Hswap.of f).map .hswap
  | 0x105 => (Hfence.of f).map .hfence
  | 0x106 => (Hstat.of f).map .hstat
  | 0x107 => (HslotTwo.of f).map .hbind
  | 0x120 => (GetSr.of f).map .getsr
  | 0x121 => (SetSr.of f).map .setsr
  | 0x122 => (Pour.of f).map .pour
  | 0x123 => (FlagOnly.of f).map .dgon
  | 0x124 => some .dgoff
  | 0x125 => (DgFold.of f).map .dgfold
  | 0x126 => (SrcTwo.of f).map .dgchk
  | 0x127 => some .yield
  | _ => none

/-- The instruction that a set of fields names, before the check of the unused fields. -/
def Raw.parse : Raw → Option Instr
  | .sl f => parseShortLane f
  | .su f => parseShortUni f
  | .ll f => parseLongLane f
  | .ul f => parseLongUni f

/-- Why words are refused (R94): each is ILLEGAL_PREFIX or ILLEGAL_INSTR, and `at` counts words from the instruction's
first word to the word found at fault (R95). -/
inductive DecodeError where
  | illegalPrefix
  | zeroWord
  | tailWithoutHead (at_ : Nat)
  | headWithoutTail (at_ : Nat)
  | tailOfOtherPipe (at_ : Nat)
  | reservedOrField
  | noWord
deriving DecidableEq, Repr

/-- Checks 4 and 5 of R94 on the words from a short word or head on; `k` counts the words before it. -/
def decodeBody (k : Nat) : List CodeWord → Except DecodeError (BitVec 2 × Instr × Nat)
  | [] => .error .noWord
  | h :: rest =>
    if h = 0 then .error .zeroWord else
    match (wordLS h).toNat with
    | 0 =>
      let raw := if wordP h then Raw.su (shortUniOf h) else Raw.sl (shortLaneOf h)
      finish raw (wordW h) 1
    | 1 =>
      match rest with
      | [] => .error (.headWithoutTail (k + 1))
      | t :: _ =>
        if (wordLS t).toNat ≠ 3 then .error (.headWithoutTail (k + 1))
        else if wordP t ≠ wordP h then .error (.tailOfOtherPipe (k + 1))
        else finish (if wordP h then Raw.ul (longOf h t) else Raw.ll (longOf h t)) (wordW h) 2
    | _ => .error (.tailWithoutHead k)
where
  finish (raw : Raw) (w : BitVec 2) (n : Nat) : Except DecodeError (BitVec 2 × Instr × Nat) :=
    match raw.parse with
    | some i => if i.wf && i.toRaw == some raw then .ok (w, i, n) else .error .reservedOrField
    | none => .error .reservedOrField

/-- The prefix class of the instruction that starts at a word, by its opcode alone (R81, R82); the all-zero word counts by its opcode (log 119). -/
def prefixClassOf (h : CodeWord) : Option PrefixClass :=
  match (wordLS h).toNat, wordP h with
  | 0, false =>
    let op := (CodeWord.field h 22 5).toNat
    if [0x00, 0x01, 0x02, 0x03, 0x0C, 0x0D].contains op then some .intArith
    else if [0x0E, 0x0F, 0x10, 0x11, 0x12, 0x15].contains op then some .fp else none
  | 0, true =>
    if (CodeWord.field h 22 5).toNat = 0 ∧ [1, 2, 3].contains (CodeWord.field h 0 5).toNat then some .uni else none
  | 1, false =>
    let op := (CodeWord.field h 18 9).toNat
    if [0x000, 0x001, 0x002, 0x004, 0x00F, 0x010, 0x01C].contains op then some .intArith
    else if [0x040, 0x041, 0x042, 0x043, 0x04B, 0x04C, 0x04D, 0x04E, 0x04F, 0x050].contains op then some .fp
    else if 0x080 ≤ op ∧ op ≤ 0x086 then some .special
    else if [0x140, 0x141, 0x128].contains op then some .matrix else none
  | 1, true => if [0x000, 0x001, 0x002].contains (CodeWord.field h 18 9).toNat then some .uni else none
  | _, _ => none

/-- The decoder (R70, R82, R94 checks 3 to 5): the whole instruction at the first word, and how many words it takes. The
list ends where the region ends. -/
def decodeWords : List CodeWord → Except DecodeError (Coded × Nat)
  | [] => .error .noWord
  | w :: rest =>
    if (wordLS w).toNat = 2 then
      match prefixOf w, rest with
      | some p, h :: _ =>
        match prefixClassOf h with
        | some c =>
          if c.allows p && wordP h == wordP w then
            match decodeBody 1 rest with
            | .ok (s, i, n) => .ok (⟨some p, s, i⟩, n + 1)
            | .error e => .error e
          else .error .illegalPrefix
        | none => .error .illegalPrefix
      | _, _ => .error .illegalPrefix
    else
      match decodeBody 0 (w :: rest) with
      | .ok (s, i, n) => .ok (⟨none, s, i⟩, n)
      | .error e => .error e

/-- The prefix class of an instruction (R81). -/
def Instr.prefixClass (i : Instr) : Option PrefixClass :=
  match i.toRaw with
  | some (.sl f) => prefixClassOf (shortLaneWord 0 f)
  | some (.su f) => prefixClassOf (shortUniWord 0 f)
  | some (.ll f) => prefixClassOf (headWord false 0 f)
  | some (.ul f) => prefixClassOf (headWord true 0 f)
  | none => none

/-- The words of an instruction without its prefix. -/
def Raw.words (w : BitVec 2) : Raw → List CodeWord
  | .sl f => [shortLaneWord w f]
  | .su f => [shortUniWord w f]
  | .ll f => [headWord false w f, tailWord false f]
  | .ul f => [headWord true w f, tailWord true f]

/-- The pipe of an instruction's words (R69). -/
def Raw.pipe : Raw → Bool
  | .sl _ | .ll _ => false
  | .su _ | .ul _ => true

/-- The encoder: the words of a whole instruction (R70, R72 to R76); an event of the part has none. -/
def Coded.encode (c : Coded) : List CodeWord :=
  match c.instr.toRaw with
  | none => []
  | some raw => (match c.pre with | some p => [prefixWord raw.pipe p] | none => []) ++ raw.words c.w

/-- A whole instruction is well formed: its instruction is, its prefix is one that R81 allows, and it is not the all-zero
word (R89). -/
def Coded.wf (c : Coded) : Bool :=
  c.instr.wf && c.instr.toRaw.isSome
    && (match c.pre with
        | none => true
        | some p => match c.instr.prefixClass with | some k => k.allows p | none => false)
    && !(c.instr == .vaddShort ⟨0, 0, 0⟩ && c.w == 0)

/-- The encoder on an instruction alone, with W = 0 and no prefix. -/
def encode (i : Instr) : List CodeWord := Coded.encode ⟨none, 0, i⟩

/-- The words that the low bits of a number hold, the first word lowest. -/
def wordsOfNat : Nat → Nat → List CodeWord
  | 0, _ => []
  | k + 1, w => BitVec.ofNat 32 w :: wordsOfNat k (w / 2 ^ 32)

/-- The instruction that the decoder reads from an opcode-table word: up to three words, those above `nbits` zero. -/
def decodeTableWord (nbits w : Nat) : Option Instr :=
  match decodeWords (wordsOfNat 3 (w % 2 ^ nbits)) with
  | .ok (c, _) => some c.instr
  | .error _ => none

end Sys2Proof
end

