-- ==== Sys2Proof/Machine/State.lean ====
section
/-! DEFINITION. The state of the SJ-24A package as plain data: groups and their splits, blocks and casts, cores, clusters, dies
and the package (INVENTORY.md lists every field with its rule and reset value), the reasons a step can stop, and the state after
reset. Cores are numbered die * 64 + core and clusters die * 8 + cluster over the package (spec/00_scope.md R3). -/

namespace Sys2Proof.Machine

/-! ### Why a step stops -/

/-- The faults of the model. -/
inductive Fault where
  /-- Raised by a DEVICE access or a host access to the register window of an LLC slice, whose registers
  spec/11_die_memory_model_and_translation.md R307 names and does not describe. Safe: the model stops where the part goes on. -/
  | llcSliceRegister
deriving DecidableEq, Repr

/-- The refusals of the model. -/
inductive Refusal where
  /-- Raised by the arm of an instruction that has no meaning yet. Safe: the model stops. -/
  | notModelled (mnemonic : String)
deriving DecidableEq, Repr

/-! ### Splits (spec/02_group_and_lanes.md R57, spec/06_control_planes_and_traps.md) -/

/-- A level of the loop stack (R173). -/
structure Loop where
  (lb le : Nat) (lc : BitVec 32)
deriving DecidableEq, Repr, Inhabited

/-- The kind of register that TADDR names (R186, R276). -/
inductive RegKind where
  | vec | uni | tile | sc
deriving DecidableEq, Repr, Inhabited

/-- The record of a group whose error a trap delivers: a matrix error (R279), a ladle or riddle error (R250), a remote error (R418). -/
inductive RecordKind where
  | none | matrix | list | remote
deriving DecidableEq, Repr, Inhabited

/-- A trap as a split raises it (R187 to R191), with the record that its entry clears. -/
structure Trap where
  (cause : BitVec 8) (toff : Nat) (taddr : Word) (blame : Mask) (rpl : BitVec 3) (record : RecordKind)
deriving DecidableEq, Repr, Inhabited

/-- What a WAITING split waits for (R57, R64). -/
inductive Wait where
  /-- At a reconverging instruction (R64). -/
  | reconv
  /-- At RCV, or at RCVW with its expiry, and the mask operand (R177, R178). -/
  | rcv (expiry : Option Nat) (mask : Option Nat)
  /-- At WAITCNT (R236). -/
  | loads (n : Nat)
  /-- At a load or barrier arrival that would raise LCNT above 127 (R228). -/
  | loadSlot
  /-- At BWAIT (R237). -/
  | batches (upto : Nat)
  /-- At MWAIT (R258). -/
  | matrix (n : Nat)
  /-- At a full engine queue (R257). -/
  | engineSlot
  /-- At a full ladle queue (R244). -/
  | ladleSlot
  /-- At BAR, registered in the phase named (R238). -/
  | bar (k phase : Nat)
  /-- At CBAR (R299). -/
  | cbar (k phase : Nat)
  /-- At BWAITP (R239): the block and address of the word, the phase that is waited out, and the message that looks at a word of another rank (R294). -/
  | phase (blk addr : Nat) (old : Bool) (msg : Option Nat)
  /-- At FENCE or FENCEE: everything named before the stamp (R240). -/
  | fence (stamp : Nat) (scope : Scope) (loads : Bool)
  /-- At RFLUSH (R414). -/
  | rflush
  /-- At WAITA: the line's address, the request that watches it elsewhere, and the expiry (R412). -/
  | line (addr : Nat) (req expiry : Option Nat)
  /-- At an instruction whose answer comes from a unit: mailbox, dispatcher, home, riddle (R241, R346, R413). -/
  | answer (req : Nat)
  /-- At CRRD: the record of its reads (R407). -/
  | lines (acc : Nat)
  /-- At HFENCE (R381). -/
  | hfence (stamp : Nat) (drain : Option Nat)
  /-- At SLEEP: the clk of its end, and the wakes counted when it began (R242). -/
  | sleep (upto : Nat) (mb : Bool) (seen : Nat)
  /-- At YIELD (R360). -/
  | preempt
deriving DecidableEq, Repr, Inhabited

/-- The state of a split (R57). -/
inductive SplitState where
  | ready
  | waiting (w : Wait)
  /-- Waiting for service of a page fault: the lanes to retry, the fault entries (none while the ring is full, R332), the stamp of
  the access, whether the fetch faulted, a trap held until the retry, and the address of the lowest lane (R329, R330, R334, R484). -/
  | faulted (retry : Mask) (entries : List Nat) (stamp : Nat) (fetch : Bool) (held : Option Trap) (va : Word)
  /-- In or waiting for its handler: the trap held, with the clk and entry order in which it trapped (R195). -/
  | trapped (t : Trap) (at_ : Nat)
deriving DecidableEq, Repr, Inhabited

/-- What plane issues leave to the end of their instruction: lanes with served faults, with their fault entries and addresses (R228, R329), and the
new planes of a PLSETV (R182). -/
structure Part where
  (lanes : Mask) (entries : List Nat) (vas : Tab Word) (planes : Tab (BitVec 3))
deriving DecidableEq, Repr, Inhabited

/-- A live entry of the split table (R57), with the issue bookkeeping of R184, R197 and R198. -/
structure Split where
  off : Nat
  owned : Mask
  exec : Mask
  origin : Mask
  hlp : Mask
  sc : Bool
  rcvf : Bool
  /-- The loop stack, the top level first (R173). -/
  loops : List Loop
  st : SplitState
  /-- The planes below this one make no issue at the next instruction (R193). -/
  rpl : Nat
  /-- The lanes that alone retry the next instruction after a served fault, the place of their accesses in issue order, and the addresses / 8 that
they name (R330). -/
  retry : Option Mask
  since : Option Nat
  owes : List Nat
  /-- What the plane issues already made leave, while a later one stalls. -/
  part : Option Part
  /-- A plane issue of the instruction has been made and others are to come: its pipe is kept for them (R199). -/
  mid : Bool
  /-- The name of the instruction that it attempts, until that completes: its plane issues are not producers of one another (R186). -/
  iid : Option Nat
  /-- How often in a row a home slice has rejected its access (R325). -/
  rejects : Nat
  /-- The EXEC that the instruction began with, from which its lanes take their contribution indices (R395). -/
  idxExec : Option Mask
  /-- The trap raised once the retry has been performed (R484). -/
  held : Option Trap
  /-- A wait that has ended, for the instruction that waited (R64, R177). -/
  woke : Option Wait
  /-- The answer of a unit, for the instruction that waited for it: SC and a value (R241, R346, R412, R413). -/
  answer : Option (Bool × Word × Word)
  /-- The clk at which the WAITA that it stands at expires (R412). -/
  expiry : Option Nat
  /-- The requests of splits that merged into this one while they waited, with their answers as they come (R62). -/
  merged : List (Nat × Option (Bool × Word × Word))
  /-- The clk from which it may issue (R178, R184). -/
  readyAt : Nat
  /-- The clk from which its wait count runs (R198). -/
  candAt : Nat
  /-- The clk of its last issue, or of its becoming READY (R198). -/
  lastIssue : Nat
  promoted : Bool
  /-- It has just resumed from the deferred area: its offset is checked as a transfer's target (R60, R86); and the address of the first word of its
entry that was poisoned (R221). -/
  resumed : Bool
  spoiled : Option Nat
deriving DecidableEq, Repr, Inhabited

/-! ### Pending work of a group -/

/-- A fixed-latency result not yet written (R185, R186): the register, the value it still may show, the clk of its writing,
the lanes owned by the split that issued it, and the instruction that issued it. -/
structure Late where
  (kind : RegKind) (num lane : Nat) (old : Word) (land : Nat) (own : Mask) (iid : Nat)
deriving DecidableEq, Repr, Inhabited

/-- A destination of a load that no WAITCNT has covered (R228). -/
structure Uncov where
  (kind : RegKind) (num lane : Nat) (acc : Nat) (clobbered : Bool) (iid : Nat)
deriving DecidableEq, Repr, Inhabited

/-- What an access does at the place it is performed (R230, R231, R233, R239, R407). -/
inductive AccKind where
  | load
  | store
  | atom (op : AtomOp) (unsigned : Bool) (cx : FpCtx)
  | arrive (c : Nat) (b : Int)
  /-- A snapshot of a crucible line, read in a format; its flags stand in the piece's data. -/
  | crucible (f : Fmt) (cx : FpCtx)
deriving DecidableEq, Repr, Inhabited

/-- Where an access is performed (R230, R231, R313). -/
inductive Space where
  | mem
  | scratch
  | window
deriving DecidableEq, Repr, Inhabited

/-- How far a piece of an access has come (R294 to R296, R311). -/
inductive PieceSt where
  | sent
  /-- Served at a remote bank, with the stamp of its service; its reply is on the way. -/
  | served (v : Word) (poison : Bool) (stamp : Nat)
  /-- Performed, with the value to be written. -/
  | ready (v : Word) (poison : Bool)
deriving DecidableEq, Repr, Inhabited

/-- One lane's part of an access: its address (package physical, or in the scratchpad of block blk), its data, and the
register (or tile element number) that it writes, and its virtual address; `home` when its page kind has it performed at the home slice
whatever its scope, `dev` when it names a DEVICE register (R316). `msg` is the place of its message to another core in the order sent (R294). -/
structure Piece where
  (lane : Nat) (addr : Nat) (blk : Nat) (home dev : Bool) (data : Word) (dst : Nat) (st : PieceSt) (va : Nat) (msg : Option Nat)
deriving DecidableEq, Repr, Inhabited

/-- The destination kind of an access; a phase is looked at for a BWAITP (R239), and a CRRD takes its snapshots when it goes on (R407). -/
inductive AccDst where
  | none | vec | uni | tile | phase | crucible
deriving DecidableEq, Repr, Inhabited

/-- An issue of a memory instruction and the pieces not yet performed (R228 to R233, R311); `since` is its place in its group's issue order, that of
the first issue for a retry (R330). -/
structure Acc where
  since : Nat
  kind : AccKind
  space : Space
  size : Nat
  zext : Bool
  order : Order
  scope : Scope
  dst : AccDst
  /-- LDF: its mask register, EXEC, the issue mask and the failed lanes (R230). -/
  ldf : Option (Nat × Mask × Mask × Mask)
  pieces : List Piece
deriving DecidableEq, Repr, Inhabited

/-- A matrix operation (R257, R262, R265, R273). -/
inductive MOp where
  | mma (o : Mma)
  | oadd (o : Oadd) (list : Nat) (count : Nat)
  | spec (tag : Nat) (tiles : List Nat)
  | commit (tiles : List Nat)
  | drop (tiles : List Nat)
deriving DecidableEq, Repr, Inhabited

/-- A matrix operation queued at an engine or not yet covered by MWAIT (R257, R275), with its mask, its settings and the trap enables taken at
issue (R260). `overlay` holds the operands that were pending at issue (R277): vector registers at lane * 128 + register, elements of the
tile at 4096 + row * 32 + column. `tainted` marks its elements undefined (R275). -/
structure MEntry where
  (gid : Nat) (op : MOp) (exec : Mask) (cx : FpCtx) (te : FpFlags) (overlay : Tab Word) (tainted : Bool)
deriving DecidableEq, Repr, Inhabited

/-- A recorded ladle or riddle error with its place in issue order (R250). -/
structure LErr where
  (seq : Nat) (pos : Nat) (cause : BitVec 8) (taddr : Word)
deriving DecidableEq, Repr, Inhabited

/-! ### Groups (R45) -/

/-- The fields of a group that its launch fixes (R50, R51, R339). -/
structure GroupCtx where
  core : Nat
  slot : Nat
  blk : Nat
  cast : Nat
  rank : Nat
  grpid : BitVec 5
  blkid : BitVec 32
  castid : BitVec 32
  pourid : BitVec 32
  nblk : BitVec 33
  ngrp : BitVec 6
  asid : BitVec 16
  creg : Word
  trapOff : Nat
  defBase : Nat
  defCap : Nat
  prio : Nat
  nv : Nat
  nu : Nat
  nt : Nat
  nh : Nat
deriving DecidableEq, Repr, Inhabited

/-- A group (R45). Registers are tables in which an unlisted entry is zero: vector registers at lane * 128 + register, uniform
registers by number, tile elements at tile * 1024 + row * 32 + column, planes by lane. -/
structure Group where
  cx : GroupCtx
  v : Tab Word
  u : Tab Word
  m : Tab (BitVec 32)
  shadow : Tab (BitVec 32)
  tf : BitVec 16
  planes : Tab (BitVec 3)
  exited : Mask
  splits : Tab Split
  /-- The deferred queue: the position of its oldest entry and its length (R60). -/
  defHead : Nat
  defCount : Nat
  /-- The clk from which deferred splits may issue: W of the branches that deferred them has passed (R184). -/
  defFrom : Nat
  fpm : BitVec 9
  fpst : FpFlags
  lcnt : Nat
  mcnt : Nat
  sbchk : Bool
  bseq : BitVec 32
  bdone : BitVec 32
  /-- Commands outstanding of each batch, the closed batches not complete, by number (R237). -/
  batches : Tab Nat
  closed : List Nat
  tcause : Word
  taddr : Word
  toff : Word
  tmask : Word
  svpl0 : Word
  svpl1 : Word
  /-- The split that runs the handler, and the loop stack set aside (R191, R192). -/
  handler : Option Nat
  aside : List Loop
  /-- The offset and the name of the instruction at which the split of the handler trapped (R186, R193). -/
  asideIid : Option (Nat × Nat)
  /-- Poison marks: at (lane * 128 + register) * 2 + half, at register * 2 + half, and by tile element, those of shadow tiles 16384 higher; true
  is memory poison (R67, R221, R234, R280). -/
  vpois : Tab Bool
  upois : Tab Bool
  mpois : Tab Bool
  late : List Late
  uncov : List Uncov
  accs : Tab Acc
  /-- Matrix operations that no MWAIT has covered, by name (R275). -/
  mops : Tab MEntry
  tags : Tab (List Nat)
  merr : Option (BitVec 8 × Word)
  lerr : Option LErr
  /-- The last delivered place in issue order is not kept: a new record starts after delivery (R250). -/
  issueSeq : Nat
  parks : Word
  resident : Bool
  /-- The clk at which a parked group's event fired, the clk of its last fired event, 0 before the first, the clk since which it has waited
  with no group parkable, and the clk at which its last move ends (R207, R289). -/
  firedAt : Option Nat
  eventAt : Nat
  stuckAt : Option Nat
  movedAt : Nat
  calls : BitVec 32
  dgst : Word
  dgen : Bool
  /-- The remote error record: cause, reason, address (R418). -/
  rerr : Option (BitVec 8 × BitVec 8 × Word)
  /-- REASON of RSTAT (R418). -/
  rreason : BitVec 8
  /-- One more than the clk of its last issue, 0 before the first (R197, R207). -/
  lastIssue : Nat
  ended : Bool
deriving DecidableEq, Repr, Inhabited

/-! ### Blocks and casts -/

/-- A barrier of a block or a cast: its phase, and per group the lanes registered and the stamp of the last registration (R238, R299). -/
structure Barrier where
  (phase : Nat) (regs : Tab (Mask × Nat))
deriving DecidableEq, Repr, Inhabited

/-- A placed block (R200, R204, R218, R238). -/
structure Block where
  launch : Nat
  core : Nat
  cast : Nat
  rank : Nat
  blkid : BitVec 32
  groups : List Nat
  pgran : Nat
  granules : List Nat
  /-- Scratchpad bytes, unlisted bytes zero (R204), and its poisoned 8-byte words (R221). -/
  scr : Tab Byte
  spois : Tab Bool
  bars : Tab Barrier
  slot : Option Nat
  placedAt : Nat
  /-- One more than the clk of its last restoration, 0 before the first (R354). -/
  restoredAt : Nat
  /-- A pre-emption is asked for (R353), and one has begun: no group issues (R356). -/
  asked : Bool
  stopping : Bool
deriving DecidableEq, Repr, Inhabited

/-- A cast: its size and its barriers (R290, R299). -/
structure CastSt where
  (launch : Nat) (id : BitVec 32) (size : Nat) (blocks : List Nat) (bars : Tab Barrier)
deriving DecidableEq, Repr, Inhabited

/-! ### Caches and translation -/

/-- A line of a cache: which bytes are held and dirty, their values, and poisoned words (R309, R337); and of dirty bytes written by a store of more
than one byte the store's length, since no load returns half of a write (R315). -/
structure Line where
  (valid dirty : BitVec 64) (data : BitVec 512) (pois : BitVec 8) (sizes : Tab Nat)
deriving DecidableEq, Repr, Inhabited

/-- An installed translation (R324): page base and size, its frame, and its permissions. -/
structure Tlb where
  (asid gen : BitVec 16) (base size frame : Nat) (kind : BitVec 3) (r w x d : Bool) (leaf : Nat)
deriving DecidableEq, Repr, Inhabited

/-! ### Cores and clusters -/

/-- A mailbox ring (R213, R217): the slot of the oldest entry, the entries oldest first, and which are poisoned. -/
structure Mbox where
  (top : Nat) (items : List (Word × Bool))
deriving DecidableEq, Repr, Inhabited

/-- The mailbox operations (R214). -/
inductive MbOp where
  | send (v : Word)
  | push (v : Word)
  | recv
  | pop
  | steal
deriving DecidableEq, Repr, Inhabited

/-- An operation on its way to a mailbox (R215): who waits for its answer. -/
structure MbReq where
  (core box : Nat) (op : MbOp) (gid : Nat) (fromCore slot : Nat)
deriving DecidableEq, Repr, Inhabited

/-- A ladle command (R244, R253). -/
inductive LOp where
  | tile (st : Bool)
  | gather (z : Bool)
  | scatter (z : Bool)
  | codebook (v : BitVec 8) (addr : Nat)
  | tsend
deriving DecidableEq, Repr, Inhabited

/-- A queued ladle command: the issuing group, its tile record as read at issue (R244, R245), its place in issue order, and its batch. -/
structure LCmd where
  gid : Nat
  blk : Nat
  op : LOp
  words : List Word
  asid : BitVec 16
  seq : Nat
  batch : Option Nat
  /-- LSCAT and TSEND: the packets sent and not yet answered (R408, R458). -/
  packets : List Nat
  /-- Index-list entries read so far, by position, and the pieces done (R250, R358). -/
  entries : Tab (BitVec 32)
  done : List Nat
  /-- Pieces that wait on a fault entry: its number, and the virtual address (R334). -/
  blocked : Tab (Nat × Nat)
  /-- How often in a row a home slice has rejected a piece (R325). -/
  stales : Tab Nat
  /-- The place of the codebook version it has taken (R253). -/
  book : Option Nat
deriving DecidableEq, Repr, Inhabited

/-- A resident codebook version: its contents, and the stamp of its last use (R253). -/
structure Book where
  (v : BitVec 8) (data : List Byte) (pois : Bool) (used : Nat)
deriving DecidableEq, Repr, Inhabited

/-- A core. -/
structure Core where
  l1 : Tab Line
  /-- The instruction cache: clean copies (R303). -/
  ic : Tab Line
  tlb : List Tlb
  mbox : Tab Mbox
  ladle : Tab LCmd
  books : Tab Book
  engine : List (Nat × MEntry)
  /-- The operation in progress and the clk at which it may complete (R281). -/
  running : Option Nat
  wakes : BitVec 32
  why : BitVec 8
  /-- The core has woken and has not issued since: reasons still add up (R210). -/
  woken : Bool
  gated : Bool
  idleFrom : Nat
  wakeAt : Nat
  mbWakes : Nat
  poolret : Word
  suspect : List Nat
  retired : Bool
  /-- An uncorrectable error in its storage outside the pool waits for the core's test (R442). -/
  doubted : Bool
  /-- Busy until, by quarter * 2 + pipe; divider and special-function unit by quarter (R135, R153, R199). -/
  pipe : Tab Nat
  divider : Tab Nat
  sfu : Tab Nat
deriving DecidableEq, Repr, Inhabited

/-- A cluster (R286 to R292, R301). -/
structure Cluster where
  cc : Tab Line
  /-- The L2 TLB (R324). -/
  tlb : List Tlb
  lock : Bool
  lehrWays : BitVec 4
  setsRet : List Nat
  suspect : List Nat
  retired : Bool
  /-- The cast that holds the drain reservation: launch and cast id (R292). -/
  reserved : Option (Nat × Nat)
deriving DecidableEq, Repr, Inhabited

/-! ### Free running fields of an issue -/

/-- How the issue in progress goes on after the meaning of an instruction. -/
inductive Flow where
  /-- To the next instruction. -/
  | run
  /-- Held at the instruction. -/
  | stall
  /-- The split stands where the meaning put it. -/
  | moved
  /-- A trap was raised. -/
  | trapped
  /-- The split has left the split table. -/
  | gone
deriving DecidableEq, Repr, Inhabited

/-- The issue in progress (R55, R56): the model's own field, set by the step before a meaning runs. -/
structure Issue where
  gid : Nat
  ent : Nat
  off : Nat
  next : Nat
  plane : Nat
  /-- The instruction is a uniform one: its words' P is 1 (R68). -/
  uni : Bool
  /-- The active lanes of the issue, and the helper lanes beside them (R56, R66). -/
  mask : Mask
  help : Mask
  /-- A lower plane's issue has completed (R191). -/
  lower : Bool
  rm : Option Rm
  sat : Sat
  ftz : Bool
  flow : Flow
  /-- Lanes with served faults of this instruction's plane issues, with the fault entries (R329). -/
  fset : Mask
  fent : List Nat
  /-- The address of each of those lanes (R334). -/
  fva : Tab Word
  /-- A trap held beside served faults (R484). -/
  ftrap : Option Trap
  /-- Issue cycles taken, and the W that applies after them (R56, R184). -/
  cycles : Nat
  w : Nat
  /-- The name of the instruction (R186). -/
  iid : Option Nat
  /-- New planes that take effect after the last plane issue (R182). -/
  newPlanes : Tab (BitVec 3)
deriving DecidableEq, Repr, Inhabited

/-- A turn of an agent, named before the default order decides. -/
inductive Turn where
  /-- An event of the part. -/
  | event (i : Instr)
  /-- An issue decision for a split. -/
  | issue (gid ent : Nat)
  /-- The performance of one piece of an access. -/
  | perform (gid acc piece : Nat)
  /-- One clk passes. -/
  | tick
deriving DecidableEq, Repr, Inhabited

/-! ### Dies -/

/-- A pending entry of the fault queue (R332, R333): the leaf or page it names, and its reason and access. -/
structure FaultEnt where
  (asid gen : BitVec 16) (va : Nat) (page : Nat) (size : Nat) (reason acc : Nat)
deriving DecidableEq, Repr, Inhabited

/-- A descriptor that a slot has held for an address space (R375): `stale` once a command other than a probe has been issued on the slot since, and
`lost` where its buckets had become undefined. -/
structure Snap where
  (asid : BitVec 16) (desc : List Word) (stale lost : Bool)
deriving DecidableEq, Repr, Inhabited

/-- A table slot (R361 to R364): VERSION, the number of its binding, the descriptor's sixteen words with their live fields, and the live
words of earlier bindings that commands in flight still use (R388). -/
structure TSlot where
  (bound : Bool) (asid : BitVec 16) (version : BitVec 32) (bind : Nat) (desc : List Word) (olds : Tab (List Word))
  /-- The contents of its buckets are undefined (R365, R375). -/
  (undef : Bool)
  /-- What the slot has held: at each HSTAT, and where a binding with undefined buckets ended (R375). -/
  (stats : List Snap)
deriving DecidableEq, Repr, Inhabited

/-- The riddle commands (R374, R379). -/
inductive ROp where
  | probe
  | insert (famB : Bool)
  | delete (famB : Bool)
  | advance (n : Nat)
deriving DecidableEq, Repr, Inhabited

/-- A riddle command or HADV in flight (R372, R388): the descriptor and version it sampled, its record, how it reports, how many of
its steps are done, and the hits counted for the query in progress. -/
structure RCmd where
  gid : Nat
  core : Nat
  blk : Nat
  slot : Nat
  bind : Nat
  op : ROp
  version : BitVec 32
  desc : List Word
  asid : BitVec 16
  words : List Word
  seq : Nat
  batch : Option Nat
  phase : Option Nat
  step : Nat
  hits : Tab Nat
  /-- The fault entry that its step waits on, and the virtual address. -/
  blocked : Option (Nat × Nat)
  /-- Pool lines linked by its group's commands since it was issued (R386). -/
  linked : List Nat
  /-- Every step has been taken: its updates are applied (R381). -/
  applied : Bool
  /-- The rows and id words that it has read, by their scratchpad addresses (R374), and the rejections in a row of its step (R325). -/
  ids : Tab Nat
  rejects : Nat
  /-- The buckets that have failed, which it skips (R384). -/
  skips : List Nat
deriving DecidableEq, Repr, Inhabited

/-- An entry of a die's error log (R194, R221, R442): a code of the model for the kind of entry, and its details. -/
structure LogEnt where
  (kind : Nat) (a b c d : Nat) (more : List Nat)
deriving DecidableEq, Repr, Inhabited

/-- A storage command outstanding (R436, R437), with the addresses of its PRP list. -/
structure NvCmd where
  (write : Bool) (gid pour grp : Nat) (buf lineVa line idx sig : Nat) (asid : BitVec 16) (pages : List Nat)
deriving DecidableEq, Repr, Inhabited

/-- An NVMe queue pair (R434 to R437): submission tail, completion head, expected phase tag, and the commands outstanding by
identifier. -/
structure NvPair where
  (tail chead : Nat) (phase : Bool) (cmds : Tab NvCmd)
deriving DecidableEq, Repr, Inhabited

/-- Package memory, one canonical form: addresses rise strictly, and no entry equals what an unlisted byte reads as (log 1). -/
abbrev Memory := List Host.Cell

/-- A checkpoint in progress on a die (R465): its group, batch and launch, its destinations, whether the cut has been taken, the frames found
dirty and the number of frames at the cut, the memory as it stood then, the next frame, the request that the group waits for, and the
packets outstanding. -/
structure Stream where
  (gid batch issuer : Nat) (data line sig : Nat) (asid : BitVec 16) (dirty cut : Bool) (frames : List Nat) (total : Nat) (snap : Memory)
  (next req : Nat) (outstanding : List Nat)
deriving DecidableEq, Repr, Inhabited

/-- A die. The registers of its MMIO region that are plain storage (ASTBASE, NEARCFG, FQCFG, FQPTR, PREEMPT.POURID, RTCFG, DIECTL,
SPLIT, XLFILL, PLCORE, ERRVERD, AP2BASE, QCFG, SQCFG, SQDB, the watches, NODECFG, FPREFIX, PCTL, PMACS, PMACN, FIMPA, FIMPB) are held by
offset; an unlisted one holds its reset value. -/
structure Die where
  regs : Tab Word
  /-- The generation of each ASID at the LLC slices, 0 if unlisted (R325). -/
  gens : Tab (BitVec 16)
  /-- A publication started on this die: ASID, generation, and the stamp before which accesses must be performed (R326). -/
  genset : Option (BitVec 16 × BitVec 16 × Nat)
  /-- A write-back started on this die (R431). -/
  hflush : Option (BitVec 16)
  faults : Tab FaultEnt
  slots : Tab TSlot
  riddle : Tab RCmd
  log : List LogEnt
  nvme : Tab NvPair
  streams : Tab Stream
  /-- Launches held off the die, and blocks whose pre-emption PREEMPT asked for (R355). -/
  held : List Nat
  preempting : List Nat
  /-- Casts, by launch and cast id, that have waited 100 µs and found every cluster they could use reserved, and those clusters, in that order (R292). -/
  claims : List ((Nat × Nat) × List Nat)
  /-- Mode bits written and not yet in effect (R443). -/
  pend : BitVec 7
  mode : BitVec 7
  resetClk : Nat
  /-- The core clock in steps of 0.25 GHz (R444). -/
  clock : Nat
  firmware : Nat
  /-- LLC rows retired, and the rows suspect after an uncorrectable error, of the LLC and of LPDDR-5X (R338). -/
  rowsRet : List Nat
  llcSuspect : List Nat
  memSuspect : List Nat
  /-- Local ports under self-test (R468), and by home the clk at which the last packet left for it (R443). -/
  portSuspect : List Nat
  lastSent : Tab Nat
deriving DecidableEq, Repr, Inhabited

/-! ### The package -/

/-- A launch, named by the order in which records were taken (R339, R341, R343, R345 to R349): its record, how it was appended, and how far
it has come. -/
structure Launch where
  pourid : BitVec 32
  /-- The global address of its record, and the record's 32 words (R339). -/
  addr : Nat
  words : List Word
  queue : Nat
  /-- Parent pour, block, group and CALLS of a device launch (R346). -/
  number : Option (Nat × Nat × Nat × Nat)
  /-- The status bits of R341 with which it was refused, 0 if it was not. -/
  refused : Nat
  /-- The constants table as read when the record was taken (R341). -/
  consts : List Word
  /-- The global addresses of the status word, the completion line and the dependence lines (R341). -/
  status : Option Nat
  line : Option Nat
  deps : List (Nat × Nat)
  /-- The dependence lines in other nodes whose count has been seen at its target (R347). -/
  seen : List Nat
  eligibleAt : Option Nat
  /-- Whole ms that it has waited eligible (R348). -/
  aged : Nat
  /-- Once started: its effective priority, the clk and its place among the started launches (R348, R350). -/
  started : Bool
  prio : Nat
  startedAt : Nat
  startOrder : Nat
  /-- Unplaced casts: die, next cast id and the end of the range (R349, R440). -/
  ranges : List (Nat × Nat × Nat)
  firstPlaced : Bool
  /-- Status bits that each die has still to set, the dies that have set theirs, and those that have reported (R343). -/
  owed : Tab Nat
  sent : List Nat
  reported : List Nat
  /-- ENDED has been set; the dies that have contributed to the completion line (R343). -/
  ended : Bool
  arrived : List Nat
deriving DecidableEq, Repr, Inhabited

/-- A response on its way to its sender (R415, R417, R418): its code as R451 numbers it, and the line's answer. -/
structure Resp where
  (code : Nat) (data : BitVec 128)
deriving DecidableEq, Repr, Inhabited

/-- A packet that its sender keeps until it is acknowledged or fails (R415 to R418, R450): the opcode and kind bytes, the die that sends it
(none for another node), the group that it is counted for, its binding, and its copies and responses under way. It stays listed
while copies of it are under way. -/
structure Packet where
  op : Nat
  kind : Nat
  sdie : Option Nat
  gid : Option Nat
  pour : Nat
  grp : Nat
  asid : BitVec 16
  gen : BitVec 16
  /-- The virtual addresses of the target and the line where its sender has them, for a translation made again (R417), and the global addresses. -/
  va : Option Nat
  target : Nat
  lineVa : Option Nat
  line : Option Nat
  idx : Nat
  sig : Nat
  tag : BitVec 16
  data : List Byte
  /-- Further words: TARGET, tag array and its kind (ARRINIT), ranges (MCLR), length and requester (RGET), poison (a reply). -/
  aux : List Nat
  copies : Nat
  resps : List Resp
  attempts : Nat
  stales : Nat
  /-- The wait between attempts, in units of TIMEOUT (R417), and the clk of the last attempt. -/
  mult : Nat
  sentAt : Nat
  /-- The port, the port address and the UDP source port of its last attempt to another node (R449). -/
  path : Option (Nat × Nat × Nat)
  /-- A request of another node: its node, die and attempt, which the response names (R450, R451). -/
  origin : Option (Nat × Nat × Nat)
  /-- The ladle command (core and name) or checkpoint (die and name) that waits for it. -/
  owner : Option (Nat × Nat)
  stream : Option (Nat × Nat)
  /-- A packet of a launch (R343, R347): its name, with the die whose status bits it sets (24 for the dispatcher's), or 32 for an arrival,
  or 64 and the number of a dependence line. -/
  launch : Option (Nat × Nat)
  /-- How it ended: the response code, or 256 after the last attempt. -/
  status : Option Nat
  /-- A copy of it has been performed: what it does, apart from a contribution to a line, is done once (R414, R415; log 125). -/
  performed : Bool
deriving DecidableEq, Repr, Inhabited

/-- A cast saved by pre-emption (R356 to R359): the die that is to restore it and the die whose save slots hold it, its blocks and groups
with their ladle commands and matrix operations, the slot of each block, and the clk and step counter of the saving. -/
structure Saved where
  die : Nat
  home : Nat
  cast : Nat
  blocks : Tab Block
  groups : Tab Group
  ladle : Tab LCmd
  engine : List (Nat × MEntry)
  slots : Tab Nat
  at_ : Nat
  stamp : Nat
deriving DecidableEq, Repr, Inhabited

/-- An access of a host, or of a publication, to memory that is not served yet (R326, R438): its endpoint, the physical address, and the bytes to
write, none for a read. -/
structure HostAcc where
  (endpoint pa : Nat) (data : List Byte)
deriving DecidableEq, Repr, Inhabited

/-- A message to the host (R428, R433, R443): an MSI-X vector, a word written to a bus address, or the bytes that a host read completes with. -/
inductive HostMsg where
  | msix (endpoint vector : Nat)
  | write (endpoint addr : Nat) (v : Word)
  | read (endpoint : Nat) (data : List Byte)
deriving DecidableEq, Repr, Inhabited

/-- The state of the package. -/
structure State where
  /-- The clk since package reset (R2). -/
  clk : Nat
  groups : Tab Group
  blocks : Tab Block
  casts : Tab CastSt
  /-- Cores, clusters and dies in their reset state are not listed. -/
  cores : Tab Core
  clusters : Tab Cluster
  dies : Tab Die
  mem : Memory
  /-- Metadata: poisoned words and written granules by address / 8, dirty frames by address / 4096 (R336, R403, R463). -/
  mpois : Tab Bool
  mwritten : Tab Bool
  mdirty : Tab Bool
  launches : Tab Launch
  /-- Numbers of the device launches appended, by queue * 2^64 + position in the ring's count (R346). -/
  children : Tab (Nat × Nat × Nat × Nat)
  pourCount : Nat
  lastQueue : Nat
  /-- TAIL of each queue as the dispatcher last read it, and 32 higher one that it ignores until HEAD has advanced (R344, R345). -/
  tails : Tab Nat
  packets : Tab Packet
  /-- Operations on their way to mailboxes (R215). -/
  mbreqs : Tab MbReq
  saved : Tab Saved
  hostMsgs : List HostMsg
  hostWaits : List HostAcc
  /-- The queues whose TAIL the dispatcher is to read when their ring's memory is served (R344, R438). -/
  doorWaits : List Nat
  /-- The frames handed to the ports, oldest first, each with its port (R448). -/
  frames : List (Nat × List Byte)
  /-- The service level (R438), and the trained PCIe links by endpoint. -/
  level : Nat
  links : List Nat
  /-- The model's own fields: the turns named ahead of the default order (log 2), whether the background of this clk has had its turn
  (log 2), the counter that free values are applied to (log 5), the next name, and the issue in progress (log 3). -/
  agenda : List Turn
  served : Bool
  tick : Nat
  uid : Nat
  cur : Issue
deriving DecidableEq, Repr, Inhabited

/-! ### Reset -/

/-- A mailbox after reset (R217). -/
def Mbox.reset : Mbox := ⟨0, []⟩

/-- A core after reset: caches and queues empty, WAKEWHY 0 (R210), the clock running; POOLRET and retirement 0 (log 15). -/
def Core.reset : Core :=
  { l1 := [], ic := [], tlb := [], mbox := [], ladle := [], books := [], engine := [], running := none, wakes := 0, why := 0, woken := false,
    gated := false, idleFrom := 0, wakeAt := 0, mbWakes := 0, poolret := 0, suspect := [], retired := false, doubted := false, pipe := [],
    divider := [], sfu := [] }

/-- A cluster after reset: LOCK 0 and LEHRWAYS 4 (R287); nothing retired (log 15). -/
def Cluster.reset : Cluster :=
  { cc := [], tlb := [], lock := false, lehrWays := 4, setsRet := [], suspect := [], retired := false, reserved := none }

/-- A die after reset: every register at its reset value, every slot unbound with VERSION 0 (R361), the core clock at 4.0 GHz
(R1, R444); firmware version 0 (log 15). -/
def Die.reset : Die :=
  { regs := [], gens := [], genset := none, hflush := none, faults := [], slots := [], riddle := [], log := [], nvme := [], streams := [],
    held := [], preempting := [], claims := [], pend := 0, mode := 0, resetClk := 0, clock := 16, firmware := 0, rowsRet := [],
    llcSuspect := [], memSuspect := [], portSuspect := [], lastSent := [] }

/-- A table slot after die reset (R361, R362). -/
def TSlot.reset : TSlot := ⟨false, 0, 0, 0, [], [], false, []⟩

/-- An NVMe pair before its first command (R437). -/
def NvPair.reset : NvPair := ⟨0, 0, true, []⟩

/-- No issue in progress. -/
def Issue.none : Issue :=
  { gid := 0, ent := 0, off := 0, next := 0, plane := 0, uni := false, mask := 0, help := 0, lower := false, rm := Option.none, sat := .off, ftz := false,
    flow := .run, fset := 0, fent := [], fva := [], ftrap := Option.none, cycles := 0, w := 0,
    iid := Option.none, newPlanes := [] }

/-- The package right after reset: no launch, no block, no group; every register at its reset value, memory with nothing listed
(log 1), the service level 0 (R438). -/
def State.reset : State :=
  { clk := 0, groups := [], blocks := [], casts := [], cores := [], clusters := [], dies := [], mem := [], mpois := [], mwritten := [],
    mdirty := [], launches := [], children := [], pourCount := 0, lastQueue := 31, tails := [], packets := [],
    mbreqs := [], saved := [], hostMsgs := [], hostWaits := [], doorWaits := [], frames := [],
    level := 0, links := [], agenda := [], served := false, tick := 0, uid := 0, cur := Issue.none }

end Sys2Proof.Machine
end

