-- ==== Sys2Proof/Machine/Ops.lean ====
section
/-! DEFINITION. The shared operations over groups, splits and registers: reading and writing registers with the pending writes of
spec/06_control_planes_and_traps.md R184 to R186 and R482, the split table, taking a trap and returning (R187 to R195), and the end
of groups and blocks (spec/02_group_and_lanes.md R63, spec/12_die_launch_and_preemption.md R342). -/

namespace Sys2Proof.Machine

/-! ### Records by name -/

/-- A core of the package. -/
def State.core (s : State) (c : Nat) : Core := (s.cores.find? c).getD Core.reset
/-- Changes a core. -/
def State.modCore (s : State) (c : Nat) (f : Core → Core) : State := { s with cores := s.cores.insert c (f (s.core c)) }
/-- A cluster of the package. -/
def State.cluster (s : State) (c : Nat) : Cluster := (s.clusters.find? c).getD Cluster.reset
/-- Changes a cluster. -/
def State.modCluster (s : State) (c : Nat) (f : Cluster → Cluster) : State :=
  { s with clusters := s.clusters.insert c (f (s.cluster c)) }
/-- A die of the package. -/
def State.die (s : State) (d : Nat) : Die := (s.dies.find? d).getD Die.reset
/-- Changes a die. -/
def State.modDie (s : State) (d : Nat) (f : Die → Die) : State := { s with dies := s.dies.insert d (f (s.die d)) }
/-- The reset value of a register of a die's controller block: LIMIT 16 and TIMEOUT 80 of RTCFG (R416), UDPDST 0xC864 of NODECFG (R447),
zero for the others. -/
def regReset (off : Nat) : Word := if off = 0x080 then 0x100050 else if off = 0x3010 then 0xC86400000000 else 0
/-- A register of a die's controller block (R307). -/
def Die.reg (d : Die) (off : Nat) : Word := d.regs.getD (regReset off) off
/-- Sets a register of a die's controller block. -/
def Die.setReg (d : Die) (off : Nat) (v : Word) : Die := { d with regs := d.regs.setD (regReset off) off v }
/-- A register of a die's controller block. -/
def State.reg (s : State) (d off : Nat) : Word := (s.die d).reg off
/-- Sets a register of a die's controller block. -/
def State.setReg (s : State) (d off : Nat) (v : Word) : State := s.modDie d fun x => x.setReg off v

/-- A group. -/
def State.group (s : State) (g : Nat) : Group := (s.groups.find? g).getD default
/-- Changes a group that exists. -/
def State.modGroup (s : State) (g : Nat) (f : Group → Group) : State := { s with groups := s.groups.modify g f }
/-- Changes a group wherever it is: on a core, or saved. -/
def State.modGroupAny (s : State) (gid : Nat) (f : Group → Group) : State :=
  if (s.groups.find? gid).isSome then s.modGroup gid f
  else { s with saved := s.saved.map fun v => (v.1, { v.2 with groups := v.2.groups.map fun p => if p.1 = gid then (p.1, f p.2) else p }) }

/-- A group wherever it is. -/
def State.groupAny (s : State) (gid : Nat) : Group :=
  match s.groups.find? gid with
  | some g => g
  | none => (s.saved.findSome? fun v => v.2.groups.find? gid).getD default

/-- A block. -/
def State.block (s : State) (b : Nat) : Block := (s.blocks.find? b).getD default
/-- Changes a block that exists. -/
def State.modBlock (s : State) (b : Nat) (f : Block → Block) : State := { s with blocks := s.blocks.modify b f }
/-- A cast. -/
def State.castOf (s : State) (c : Nat) : CastSt := (s.casts.find? c).getD default
/-- Changes a cast that exists. -/
def State.modCast (s : State) (c : Nat) (f : CastSt → CastSt) : State := { s with casts := s.casts.modify c f }

/-- The die of a core. -/
def dieOfCore (c : Nat) : Nat := c / 64
/-- The cluster of a core, over the package. -/
def clusterOfCore (c : Nat) : Nat := c / 8

/-- A split of a group. -/
def Group.split (g : Group) (e : Nat) : Split := (g.splits.find? e).getD default
/-- Changes a live split. -/
def Group.modSplit (g : Group) (e : Nat) (f : Split → Split) : Group := { g with splits := g.splits.modify e f }

/-- The group that issues. -/
def State.grp (s : State) : Group := s.group s.cur.gid
/-- The split that issues. -/
def State.spl (s : State) : Split := s.grp.split s.cur.ent
/-- Changes the group that issues. -/
def State.modGrp (s : State) (f : Group → Group) : State := s.modGroup s.cur.gid f
/-- Changes the split that issues. -/
def State.modSpl (s : State) (f : Split → Split) : State := s.modGrp fun g => g.modSplit s.cur.ent f
/-- Changes the issue in progress. -/
def State.modCur (s : State) (f : Issue → Issue) : State := { s with cur := f s.cur }
/-- How the issue goes on. -/
def State.setFlow (s : State) (f : Flow) : State := s.modCur fun c => { c with flow := f }
/-- The core on which the group runs. -/
def State.curCore (s : State) : Nat := s.grp.cx.core
/-- The die on which the group runs. -/
def State.curDie (s : State) : Nat := dieOfCore s.curCore
/-- The block of the group. -/
def State.blk (s : State) : Block := s.block s.grp.cx.blk
/-- The clk of the plane issue in progress (R184). -/
def State.now (s : State) : Nat := s.clk + s.cur.cycles
/-- The name of the instruction that issues: that of its first attempt, or the step's own (R186; log 123). -/
def State.iid (s : State) : Nat := s.cur.iid.getD s.tick
/-- A fresh name. -/
def State.bump (s : State) : State := { s with uid := s.uid + 1 }

/-- The lanes that have not exited. -/
def Group.alive (g : Group) : Mask := ~~~g.exited
/-- The plane of a lane (R53). -/
def Group.plane (g : Group) (i : Nat) : Nat := (g.planes.getD 0 i).toNat
/-- Lanes(p): the lanes whose plane is p (R8). -/
def Group.lanesIn (g : Group) (p : Nat) : Mask := maskOf fun i => g.plane i == p
/-- Sets the plane of a lane. -/
def Group.setPlane (g : Group) (i : Nat) (p : BitVec 3) : Group := { g with planes := g.planes.setD 0 i p }
/-- The plane count of the region (R51). -/
def Group.planeCount (g : Group) : Nat := 2 ^ wbits g.cx.creg 19 18
/-- The region length in bytes (R51). -/
def Group.regionLen (g : Group) : Nat := (wbits g.cx.creg 13 0 + 1) * 4096
/-- The virtual address of the word at an offset of a plane (R52). -/
def Group.codeVa (g : Group) (p o : Nat) : Nat := wbits g.cx.creg 63 20 * 2 ^ 12 + p * 2 ^ (wbits g.cx.creg 17 14 + 12) + o
/-- INTRAP (R187). -/
def Group.inTrap (g : Group) : Bool := g.handler.isSome
/-- The planes occupied by lanes of a mask that have not exited, in ascending order (R55). -/
def Group.occupied (g : Group) (m : Mask) : List Nat :=
  (List.range 8).filter fun p => (m &&& g.alive &&& g.lanesIn p) != 0

/-! ### Registers -/

/-- The key of a vector register in a lane. -/
def vkey (reg lane : Nat) : Nat := lane * 128 + reg
/-- The key of a tile element. -/
def mkey (tile row col : Nat) : Nat := tile * 1024 + row * 32 + col

/-- A vector register as the register file holds it. -/
def Group.vreg (g : Group) (reg lane : Nat) : Word := g.v.getD 0 (vkey reg lane)
/-- A uniform register as the register file holds it. -/
def Group.ureg (g : Group) (reg : Nat) : Word := g.u.getD 0 reg
/-- A tile element. -/
def Group.elem (g : Group) (tile row col : Nat) : BitVec 32 := g.m.getD 0 (mkey tile row col)
/-- A shadow element. -/
def Group.shadowElem (g : Group) (tile row col : Nat) : BitVec 32 := g.shadow.getD 0 (mkey tile row col)

/-- The number that a free value of a register is drawn at (log 5). -/
def freeKey : RegKind → Nat → Nat
  | .vec, n => n
  | .uni, n => 256 + n
  | .tile, n => 512 + n
  | .sc, n => 1024 + n

/-- The pending fixed-latency writes of a register in a lane that other instructions issued (R186). -/
def Group.lateOf (g : Group) (clk iid : Nat) (k : RegKind) (num lane : Nat) : Option Late :=
  g.late.find? fun l => l.kind = k && l.num == num && l.lane == lane && decide (clk < l.land) && l.iid != iid

/-- Whether a register in a lane is the destination of a load that no WAITCNT has covered (R228). -/
def Group.uncovered (g : Group) (iid : Nat) (k : RegKind) (num lane : Nat) : Bool :=
  g.uncov.any fun u => u.kind = k && u.num == num && u.lane == lane && u.iid != iid

/-- The value that a read returns in a lane, where the register file holds v (R186, R228; logs 4 and 5). -/
def State.observe (s : State) (g : Group) (k : RegKind) (num lane : Nat) (v : Word) : Word :=
  if g.uncovered s.iid k num lane then Config.freeWord s.tick (freeKey k num) lane
  else match g.lateOf s.now s.iid k num lane with
    | none => v
    | some l => if Config.freeBool s.tick (freeKey k num) lane then v else l.old

/-- Reads a vector register of the issuing group in a lane. -/
def State.readV (s : State) (r lane : Nat) : Word := s.observe s.grp .vec r lane (s.grp.vreg r lane)
/-- Reads a uniform register of the issuing group. -/
def State.readU (s : State) (r : Nat) : Word := s.observe s.grp .uni r 0 (s.grp.ureg r)
/-- Reads SC of the issuing split (R57, R186): a pending VVOTE shows its old or new value. -/
def State.readSc (s : State) : Bool :=
  match s.grp.late.find? (fun l => l.kind = .sc && (l.own &&& s.spl.owned) != 0 && decide (s.now < l.land) && l.iid != s.iid) with
  | none => s.spl.sc
  | some l => if Config.freeBool s.tick (freeKey .sc 0) 0 then s.spl.sc else l.old.getLsbD 0

/-- The value that a write leaves in a register that has a write or a load pending (R186, R228; logs 4 and 5). -/
def State.settleWrite (s : State) (g : Group) (k : RegKind) (num lane : Nat) (old new : Word) : Word :=
  if g.uncovered s.iid k num lane then Config.freeWord s.tick (freeKey k num + 2048) lane
  else match g.lateOf s.now s.iid k num lane with
    | none => new
    | some _ => if Config.freeBool s.tick (freeKey k num + 2048) lane then new else old

/-- The pending writes after a write of a register in a lane with a latency: one per register and lane remains. -/
def State.lateAfter (s : State) (g : Group) (k : RegKind) (num lane : Nat) (old : Word) (lat : Nat) (own : Mask) : List Late :=
  if lat = 0 then g.late
  else
    let shown := match g.late.find? (fun l => l.kind = k && l.num == num && l.lane == lane && l.iid == s.iid) with
      | some l => l.old
      | none => old
    (g.late.filter fun l => !(l.kind = k && l.num == num && l.lane == lane)) ++ [⟨k, num, lane, shown, s.now + lat, own, s.iid⟩]

/-- The loads whose destination a write has clobbered (R228). -/
def Group.clobber (g : Group) (iid : Nat) (k : RegKind) (num lane : Nat) : List Uncov :=
  g.uncov.map fun u => if u.kind = k && u.num == num && u.lane == lane && u.iid != iid then { u with clobbered := true } else u

/-- A group after a write of a vector register in a lane; a whole write clears both halves' poison (R48, R67). -/
def State.putV (s : State) (g : Group) (r lane : Nat) (x : Word) (lat : Nat) (own : Mask) : Group :=
  let old := g.vreg r lane
  let k := vkey r lane
  { g with
    v := g.v.setD 0 k (s.settleWrite g .vec r lane old x)
    late := s.lateAfter g .vec r lane old lat own
    uncov := g.clobber s.iid .vec r lane
    vpois := (g.vpois.erase (2 * k)).erase (2 * k + 1) }

/-- A group after a write of a uniform register. -/
def State.putU (s : State) (g : Group) (r : Nat) (x : Word) (lat : Nat) (own : Mask) : Group :=
  let old := g.ureg r
  { g with
    u := g.u.setD 0 r (s.settleWrite g .uni r 0 old x)
    late := s.lateAfter g .uni r 0 old lat own
    uncov := g.clobber s.iid .uni r 0
    upois := (g.upois.erase (2 * r)).erase (2 * r + 1) }

/-- Writes a vector register in every lane of a mask, in ascending lane order, with a result latency (R48, R185). -/
def State.writeV (s : State) (r : Nat) (m : Mask) (lat : Nat) (f : Nat → Word) : State :=
  let own := s.spl.owned
  s.modGrp fun g => (lanesOf m).foldl (fun g i => s.putV g r i (f i) lat own) g

/-- Writes a uniform register with a result latency (R482 and the latency tables). -/
def State.writeU (s : State) (r : Nat) (x : Word) (lat : Nat) : State :=
  let own := s.spl.owned
  s.modGrp fun g => s.putU g r x lat own

/-- Writes some bits of a uniform register; where the low half is not written whole it stays poisoned (R67). -/
def State.writeUBits (s : State) (r : Nat) (x : Word) (lat : Nat) (whole : Bool) : State :=
  let t := s.writeU r x lat
  match (if whole then none else s.grp.upois.find? (2 * r)) with
  | none => t
  | some k => t.modGrp fun g => { g with upois := g.upois.insert (2 * r) k }

/-- Whether a VVOTE of another instruction is still to write SC of the issuing split (R186). -/
def State.scPending (s : State) : Bool :=
  s.grp.late.any fun l => l.kind = .sc && (l.own &&& s.spl.owned) != 0 && decide (s.now < l.land) && l.iid != s.iid

/-- Writes SC of the issuing split at once (R136); while a VVOTE is pending either value may remain (R186). -/
def State.writeSc (s : State) (b : Bool) : State :=
  let keep := s.scPending && !Config.freeBool s.tick (freeKey .sc 1) 0
  s.modSpl fun p => { p with sc := if keep then p.sc else b }

/-- Writes SC of the issuing split with the latency of VVOTE (R165, R186). -/
def State.writeScLate (s : State) (b : Bool) (lat : Nat) : State :=
  let own := s.spl.owned
  let old : Word := if s.spl.sc then 1 else 0
  (s.modGrp fun g => { g with late := s.lateAfter g .sc s.cur.ent 0 old lat own }).writeSc b

/-- Sets EXEC of the issuing split within OWNED; a change clears HLP (R61, R65). -/
def State.setExec (s : State) (m : Mask) : State :=
  s.modSpl fun p =>
    let x := m &&& p.owned
    { p with exec := x, hlp := if x = p.exec then p.hlp else 0 }

/-- Writes a tile element and clears its poison (R269, R280). -/
def Group.setElem (g : Group) (tile row col : Nat) (x : BitVec 32) : Group :=
  { g with m := g.m.setD 0 (mkey tile row col) x, mpois := g.mpois.erase (mkey tile row col) }

/-! ### Wake reasons -/

/-- BARRIER (R210). -/
def whyBarrier : BitVec 8 := 0x01
/-- ARRIVAL. -/
def whyArrival : BitVec 8 := 0x02
/-- MAILBOX. -/
def whyMailbox : BitVec 8 := 0x04
/-- BATCH. -/
def whyBatch : BitVec 8 := 0x08
/-- MATRIX. -/
def whyMatrix : BitVec 8 := 0x10
/-- TIMER. -/
def whyTimer : BitVec 8 := 0x20
/-- PREEMPT. -/
def whyPreempt : BitVec 8 := 0x40
/-- DOORBELL. -/
def whyDoorbell : BitVec 8 := 0x80

/-- A wake reason reaches a core: a gated core wakes, and the first issue follows no earlier than 32 clk later (R209, R210). Reasons
add up until the first issue after the wake. -/
def State.wake (s : State) (c : Nat) (why : BitVec 8) : State :=
  if (s.core c).gated then
    s.modCore c fun k => { k with gated := false, wakes := k.wakes + 1, why := why, woken := true, wakeAt := s.clk + 32, idleFrom := s.clk }
  else if (s.core c).woken then s.modCore c fun k => { k with why := k.why ||| why }
  else s

/-! ### Error log -/

/-- Appends an entry to a die's error log (R194, R221, R442). -/
def State.logErr (s : State) (d : Nat) (e : LogEnt) : State := s.modDie d fun x => { x with log := x.log ++ [e] }

/-! ### The split table -/

/-- The lowest free entry of the split table (R59). -/
def Group.freeEntry (g : Group) : Option Nat := (List.range 4).find? fun e => (g.splits.find? e).isNone

/-- A READY split takes its place among the candidates from a clk on (R197, R198). -/
def Split.readyFrom (p : Split) (clk : Nat) : Split :=
  { p with st := .ready, readyAt := max p.readyAt clk, candAt := max p.readyAt clk, lastIssue := clk, promoted := false }

/-- A FAULTED split retries: a faulted access for its lanes alone, a faulted fetch as it stood (R330, R335). -/
def Split.resolve (p : Split) (clk : Nat) : Split :=
  match p.st with
  | .faulted r _ n false held _ =>
    { p.readyFrom clk with retry := some r, since := some n, idxExec := some (p.idxExec.getD p.exec), held := held }
  | .faulted .. => p.readyFrom clk
  | _ => p

/-- Bytes of a block's scratchpad. -/
def Block.byte (b : Block) (a : Nat) : Byte := b.scr.getD 0 a
/-- n bytes of a block's scratchpad, as a number. -/
def Block.readN (b : Block) (a n : Nat) : Nat := ofBytes ((List.range n).map fun k => b.byte (a + k))
/-- A block's scratchpad after a write of bytes. A write of all 8 bytes of a word clears its poison (R221, R336). -/
def Block.writeBytes (b : Block) (a : Nat) (bs : List Byte) : Block :=
  { b with
    scr := (bs.zipIdx).foldl (fun t p => t.setD 0 (a + p.2) p.1) b.scr
    spois := b.spois.filter fun p => !(decide (a ≤ 8 * p.1) && decide (8 * p.1 + 8 ≤ a + bs.length)) }
/-- Whether a word of n bytes at an address holds poison. -/
def Block.poisoned (b : Block) (a n : Nat) : Bool :=
  b.spois.any fun p => decide (8 * p.1 < a + n) && decide (a < 8 * p.1 + 8)
/-- Marks the words of n bytes at an address poisoned. -/
def Block.poison (b : Block) (a n : Nat) : Block :=
  { b with spois := (List.range ((a + n + 7) / 8 - a / 8)).foldl (fun t k => t.insert (a / 8 + k) true) b.spois }
/-- The size of a block's scratchpad (R201). -/
def Block.scrSize (b : Block) : Nat := b.pgran * 16384

/-- The scratchpad address of deferred entry k, the oldest being 0 (R60, R339). -/
def Group.defAddr (g : Group) (k : Nat) : Nat := g.cx.defBase + 16 * ((g.defHead + k) % max g.cx.defCap 1)

/-- A split as division creates it: READY, HLP 0, RCVF 0 (R59). -/
def Split.fresh (off : Nat) (owned exec origin : Mask) (sc : Bool) (loops : List Loop) (clk : Nat) : Split :=
  { off := off, owned := owned, exec := exec, origin := origin, hlp := 0, sc := sc, rcvf := false, loops := loops, st := .ready,
    rpl := 0, retry := none, since := none, owes := [], part := none, mid := false, iid := none, rejects := 0, idxExec := none, held := none,
    woke := none, answer := none, expiry := none, merged := [], readyAt := clk, candAt := clk, lastIssue := clk, promoted := false, resumed := false, spoiled := none }

/-- Writes a deferred entry, which resumes and issues no earlier than a clk (R60, R184). -/
def State.deferSplit (s : State) (gid off : Nat) (sc : Bool) (owned exec origin : Mask) (clk : Nat) : State :=
  let g := s.group gid
  let w0 := off + (if sc then 2 ^ 26 else 0)
  let bs := bytesOf 4 w0 ++ bytesOf 4 owned.toNat ++ bytesOf 4 exec.toNat ++ bytesOf 4 origin.toNat
  (s.modBlock g.cx.blk fun b => b.writeBytes (g.defAddr g.defCount) bs).modGroup gid fun g => { g with defCount := g.defCount + 1, defFrom := max g.defFrom clk }

/-- The lanes that the OWNED words of the deferred entries behind the oldest name (R60). -/
def State.deferredLanes (s : State) (g : Group) : Mask :=
  (List.range g.defCount).foldl (fun m k =>
    if k = 0 then m else m ||| BitVec.ofNat 32 ((s.block g.cx.blk).readN (g.defAddr k + 4) 4)) 0

/-- The split that the oldest deferred entry resumes as (R60): the entry is read as the scratchpad holds it, without lanes of other splits, live or
deferred. Poison in it is met when the split resumes (R221; log 124). -/
def State.deferredSplit (s : State) (g : Group) : Split :=
  let b := s.block g.cx.blk
  let a := g.defAddr 0
  let w0 := b.readN a 4
  let others := g.splits.foldl (fun m p => m ||| p.2.owned) 0
  let owned := BitVec.ofNat 32 (b.readN (a + 4) 4) &&& g.alive &&& ~~~others &&& ~~~s.deferredLanes g
  let exec := BitVec.ofNat 32 (b.readN (a + 8) 4) &&& owned
  { Split.fresh (w0 % 2 ^ 26) owned exec (BitVec.ofNat 32 (b.readN (a + 12) 4)) (w0.testBit 26) [] (max s.clk g.defFrom) with
    resumed := true, spoiled := [a, a + 8].find? fun x => b.poisoned x 8 }

/-- Resumes deferred entries into free entries of the split table, oldest first (R60). -/
def State.resumeDeferred (s : State) (gid : Nat) : Nat → State
  | 0 => s
  | n + 1 =>
    let g := s.group gid
    match g.freeEntry with
    | none => s
    | some e =>
      if g.defCount = 0 then s
      else
        let p := s.deferredSplit g
        let s := s.modGroup gid fun g =>
          { g with defHead := (g.defHead + 1) % max g.cx.defCap 1, defCount := g.defCount - 1,
                   splits := if p.owned = 0 then g.splits else g.splits.insert e p }
        s.resumeDeferred gid n

/-- Frees an entry of the split table; a deferred split may take it (R60, R63). -/
def State.freeSplit (s : State) (gid e : Nat) : State :=
  (s.modGroup gid fun g => { g with splits := g.splits.erase e }).resumeDeferred gid 16

/-! ### The end of groups, blocks and casts (R63, R342) -/

/-- Ends a group: its lanes exit, its registers are dropped and its pool space is released (R63). Its packets and riddle commands go on
(R374, R419); its ladle commands and matrix operations are abandoned. -/
def State.endGroup (s : State) (gid : Nat) : State :=
  let c := (s.group gid).cx.core
  let s := s.modGroup gid fun g =>
    { g with exited := BitVec.allOnes 32, splits := [], defCount := 0, ended := true, handler := none, aside := [], asideIid := none, v := [], u := [], m := [],
             shadow := [], vpois := [], upois := [], mpois := [], late := [], uncov := [], mops := [], tags := [], resident := false }
  s.modCore c fun k =>
    { k with engine := k.engine.filter fun p => p.2.gid != gid, ladle := k.ladle.filter fun p => p.2.gid != gid
             running := match k.running with
               | none => none
               | some r => if k.engine.head?.any (fun p => p.2.gid == gid) then none else some r }

/-- Ends the group when all 32 lanes have exited (R63). -/
def State.endIfDone (s : State) (gid : Nat) : State :=
  if (s.group gid).exited = BitVec.allOnes 32 ∧ !(s.group gid).ended then s.endGroup gid else s

/-! ### Taking a trap and returning (R187 to R195) -/

/-- SVPL0 or SVPL1: the planes of sixteen lanes from lane i on (R53). -/
def Group.planeWord (g : Group) (i : Nat) : Word :=
  BitVec.ofNat 64 ((List.range 16).foldl (fun a k => a + (g.plane (i + k)) <<< (3 * k)) 0)

/-- Whether a fixed-latency result of a split's lanes is still to be written (R136, R191). -/
def Group.latePending (g : Group) (clk : Nat) (own : Mask) : Bool :=
  g.late.any fun l => decide (clk < l.land) && (l.own &&& own) != 0

/-- A group whose record of the kind of error that a trap delivers is cleared (R250, R279, R418). -/
def Group.clearRecord (g : Group) : RecordKind → Group
  | .none => g
  | .matrix => { g with merr := none }
  | .list => { g with lerr := none }
  | .remote => { g with rerr := none }

/-- A split at the handler's first instruction, with all its lanes executing (R191). -/
def Split.atHandler (p : Split) (off clk : Nat) : Split :=
  { (p.readyFrom clk) with off := off, exec := p.owned, hlp := 0, sc := false, loops := [], rpl := 0, retry := none, since := none, owes := [],
                           part := none, mid := false, iid := none, rejects := 0, idxExec := none, held := none, woke := none, answer := none,
                           expiry := none, merged := [], resumed := false, spoiled := none }

/-- A group after the trap entry of one of its splits (R191). The record that the trap delivers is cleared at entry (R250, R279, R418). -/
def Group.enterTrap (g : Group) (e : Nat) (t : Trap) (clk : Nat) : Group :=
  let p := g.split e
  { g.clearRecord t.record with
    tcause := BitVec.ofNat 64 (t.cause.toNat + (if p.sc then 2 ^ 8 else 0) + 2 ^ 15 + t.rpl.toNat <<< 16)
    toff := BitVec.ofNat 64 (t.toff % 2 ^ 26)
    taddr := t.taddr
    tmask := BitVec.ofNat 64 (p.exec.toNat <<< 32 + t.blame.toNat)
    svpl0 := g.planeWord 0
    svpl1 := g.planeWord 16
    handler := some e
    aside := p.loops
    asideIid := p.iid.map fun n => (p.off, n)
    planes := (lanesOf p.owned).foldl (fun ps i => ps.setD 0 i 0) g.planes
    splits := g.splits.insert e (p.atHandler g.cx.trapOff clk) }

/-- Trap entry of a split (R191), in one step. -/
def State.enterTrap (s : State) (gid e : Nat) (t : Trap) : State := s.modGroup gid fun g => g.enterTrap e t s.clk

/-- A split that has raised a trap and waits for the handler (R195). -/
def Split.asTrapped (p : Split) (t : Trap) (clk : Nat) : Split :=
  { p with st := .trapped t clk, retry := none, since := none, owes := [], part := none, idxExec := none, held := none }

/-- The TRAPPED split that trapped first (R195): its entry and its trap. -/
def Group.firstTrapped (g : Group) : Option (Nat × Trap) :=
  (g.splits.foldl (fun (best : Option (Nat × Nat × Trap)) p =>
    match p.2.st with
    | .trapped t a => match best with
      | none => some (a, p.1, t)
      | some b => if a < b.1 then some (a, p.1, t) else best
    | _ => best) none).map (·.2)

/-- The handler is entered by the TRAPPED split that trapped first, once its fixed-latency results are written (R191, R195). -/
def State.tryTrap (s : State) (gid : Nat) : State :=
  let g := s.group gid
  match g.handler, g.firstTrapped with
  | none, some (e, t) => if g.latePending s.clk (g.split e).owned then s else s.enterTrap gid e t
  | _, _ => s

/-- A double trap ends the group and is logged; its die sets FAILED and DOUBLE_TRAP for the launch (R194, R342, R343). -/
def State.doubleTrap (s : State) (gid : Nat) (t : Trap) : State :=
  let g := s.group gid
  let s := s.logErr (dieOfCore g.cx.core)
    ⟨0x22, g.cx.pourid.toNat, g.cx.blkid.toNat * 32 + g.cx.grpid.toNat, (wbits g.tcause 7 0) * 256 + t.cause.toNat,
      g.toff.toNat * 2 ^ 26 + t.toff % 2 ^ 26, []⟩
  let owed (l : Launch) : Tab Nat := l.owed.insert (dieOfCore g.cx.core) (l.owed.getD 0 (dieOfCore g.cx.core) ||| 0x800008)
  { s with launches := s.launches.modify (s.block g.cx.blk).launch fun l => { l with owed := owed l } }.endGroup gid

/-- A split raises a trap (R191, R194, R195). -/
def State.raiseAt (s : State) (gid e : Nat) (t : Trap) : State :=
  if (s.group gid).handler = some e then s.doubleTrap gid t
  else (s.modGroup gid fun g => g.modSplit e fun p => p.asTrapped t s.clk).tryTrap gid

/-- New planes take effect (R182). -/
def State.applyPlanes (s : State) : State :=
  (s.modGrp fun g => s.cur.newPlanes.foldl (fun g p => g.setPlane p.1 p.2) g).modCur fun c => { c with newPlanes := [] }

/-- The trap that is raised when a retry meets one while another is held: the lower cause code (R484). -/
def Trap.lower (t : Trap) : Option Trap → Trap
  | none => t
  | some h => if h.cause < t.cause then h else t

/-- The issuing split raises a trap at an offset: TAKING AN EXCEPTION, for every cause of R189. RPL is the plane of the trapping issue when a
lower plane's issue has completed (R191), and new planes of the completed issues apply first (R182). A split that has lanes with served
faults keeps the trap for R484. -/
def State.takeTrapAt (s : State) (cause : Nat) (toff : Nat) (taddr : Word) (blame : Mask) : State :=
  let t : Trap := ⟨BitVec.ofNat 8 cause, toff, taddr, blame, if s.cur.lower then BitVec.ofNat 3 s.cur.plane else 0, .none⟩
  let t := t.lower s.spl.held
  let s := s.applyPlanes
  if s.cur.fset ≠ 0 then (s.modCur fun c => { c with ftrap := some t }).setFlow .trapped
  else (s.raiseAt s.cur.gid s.cur.ent t).setFlow .trapped

/-- The issuing split raises a trap at its instruction (R189). -/
def State.takeTrap (s : State) (cause : Nat) (taddr : Word) (blame : Mask) : State := s.takeTrapAt cause s.cur.off taddr blame

/-- A trap of a rule that names no lanes blames EXEC (R189). -/
def State.trapExec (s : State) (cause : Nat) (taddr : Word) : State := s.takeTrap cause taddr s.spl.exec

/-- An instruction delivers a recorded error: it raises the recorded trap, whose entry clears the record (R250, R279, R418). -/
def State.deliverTrap (s : State) (rec : RecordKind) (cause : Nat) (taddr : Word) : State :=
  let t : Trap := ⟨BitVec.ofNat 8 cause, s.cur.off, taddr, s.spl.exec, 0, rec⟩
  (s.raiseAt s.cur.gid s.cur.ent t).setFlow .trapped

/-- The name of the instruction that a return goes to: the one that trapped, where TOFF still names its offset (R186, R193; log 123). -/
def Group.resumedIid (g : Group) : Option Nat :=
  match g.asideIid with
  | some (off, n) => if off = wbits g.toff 25 0 then some n else none
  | none => none

/-- TRET's return, once its checks have passed (R193). -/
def State.leaveTrap (s : State) : State :=
  let rpl := wbits s.grp.tcause 18 16
  let s := s.modGrp fun g =>
    let p := g.split s.cur.ent
    let restored := (lanesOf p.owned).foldl (fun ps i =>
      ps.setD 0 i (BitVec.ofNat 3 ((if i < 16 then g.svpl0 >>> (3 * i) else g.svpl1 >>> (3 * (i - 16))).toNat % 8))) g.planes
    { g with
      handler := none
      aside := []
      asideIid := none
      tcause := g.tcause &&& ~~~(1#64 <<< 15)
      planes := restored
      splits := g.splits.insert s.cur.ent
        { p with exec := (BitVec.ofNat 32 (g.tmask.toNat >>> 32)) &&& p.owned, sc := g.tcause.getLsbD 8, hlp := 0,
                 off := wbits g.toff 25 0, loops := g.aside, rpl := rpl, iid := g.resumedIid } }
  s.setFlow .moved

/-- A split leaves the split table: a handler that goes ends with it (R63, R192), before a deferred split takes its entry (R60). -/
def State.dropSplit (s : State) (gid e : Nat) : State :=
  (s.modGroup gid fun g =>
    if g.handler = some e then { g with handler := none, aside := [], asideIid := none, tcause := g.tcause &&& ~~~(1#64 <<< 15) } else g).freeSplit gid e

/-! ### Exit (R63, R179) -/

/-- Removes the active lanes of the issuing split from the group for good. -/
def State.exitLanes (s : State) : State :=
  let gid := s.cur.gid
  let e := s.cur.ent
  let x := s.spl.exec
  let s := s.modGroup gid fun g => { g with exited := g.exited ||| x }
  let s := s.modGroup gid fun g => g.modSplit e fun p =>
    { p with owned := p.owned &&& ~~~x, exec := 0, hlp := if x = 0 then p.hlp else 0 }
  if s.spl.owned = 0 then
    ((s.dropSplit gid e).endIfDone gid).setFlow .gone
  else s

/-! ### Free values and waiting -/

/-- The issuing split is held WAITING at its instruction (R57). -/
def State.waitFor (s : State) (w : Wait) : State := (s.modSpl fun p => { p with st := .waiting w }).setFlow .stall

/-- Forgets the wait that has ended. -/
def State.clearWoke (s : State) : State := s.modSpl fun p => { p with woke := none, answer := none, merged := [] }

end Sys2Proof.Machine
end

