-- ==== Sys2Proof/Machine/Memory.lean ====
section
/-! DEFINITION. Package memory and the copies of it: home bytes with their poison, written and dirty marks, the lines of the L1 and
cluster caches, and the events in which an access is performed at a level (spec/11_die_memory_model_and_translation.md R303 to R315,
R336, R337; spec/16_fabric_collectives_and_checkpoint.md R463). -/

namespace Sys2Proof.Machine

/-! ### Home memory -/

/-- What an unlisted byte of memory reads as (log 1). -/
def unlistedByte : Byte := 0

/-- The canonical form of memory: addresses rise strictly and no entry equals what an unlisted address reads as. -/
def Memory.wf (m : Memory) : Bool := Tab.wf unlistedByte m

/-- A byte of memory. -/
def Memory.read (m : Memory) (a : Nat) : Byte := Tab.getD m unlistedByte a
/-- Memory after a write of a byte. -/
def Memory.write (m : Memory) (a : Nat) (b : Byte) : Memory := Tab.setD m unlistedByte a b
/-- Memory after a write of successive bytes. -/
def Memory.writeList (m : Memory) (a : Nat) : List Byte → Memory
  | [] => m
  | b :: bs => Memory.writeList (m.write a b) (a + 1) bs

/-- The bytes of a die window (R304). -/
def windowSize : Nat := 2 ^ 39
/-- The die whose window holds a package physical address (R4). -/
def dieOfPa (pa : Nat) : Nat := pa / 2 ^ 39
/-- The offset within the die window. -/
def winOff (pa : Nat) : Nat := pa % 2 ^ 39
/-- The start of the MMIO region of a die window (R307). -/
def mmioBase : Nat := 0x6000000000

/-- NEARSZ of a die (R306). -/
def State.nearSz (s : State) (d : Nat) : Nat := wbits (s.reg d 0x010) 4 0

/-- The regions of a die window (R304). -/
inductive Region where
  | lpddr | near | mmio | none
deriving DecidableEq, Repr, Inhabited

/-- The region of a package physical address (R304). -/
def State.regionOf (s : State) (pa : Nat) : Region :=
  let o := winOff pa
  if 24 ≤ dieOfPa pa then .none
  else if o < 2 ^ 36 then .lpddr
  else if 2 ^ 38 ≤ o ∧ o < 2 ^ 38 + s.nearSz (dieOfPa pa) * 2 ^ 24 then .near
  else if mmioBase ≤ o ∧ o < mmioBase + 2 ^ 22 then .mmio
  else .none

/-- Whether a range of addresses lies in one populated region (R304, R321). -/
def State.populated (s : State) (pa n : Nat) : Bool :=
  s.regionOf pa != .none && s.regionOf (pa + n - 1) == s.regionOf pa && dieOfPa pa == dieOfPa (pa + n - 1)

/-- Whether a range lies in LPDDR-5X or near memory. -/
def State.isMemory (s : State) (pa n : Nat) : Bool := s.populated pa n && s.regionOf pa != .mmio

/-- Whether the memory at an address is served: near memory from level 2 on, LPDDR-5X when training ends at level 3 (R438). -/
def State.memReady (s : State) (pa : Nat) : Bool :=
  match s.regionOf pa with
  | .lpddr => s.level == 3
  | .near => decide (2 ≤ s.level)
  | _ => true

/-- A byte at its home slice. -/
def State.homeByte (s : State) (pa : Nat) : Byte := s.mem.read pa
/-- n little-endian bytes at home, as a number. -/
def State.homeN (s : State) (pa n : Nat) : Nat := ofBytes ((List.range n).map fun k => s.homeByte (pa + k))
/-- Whether a word that an access of n bytes touches is poisoned at home (R336). -/
def State.homePois (s : State) (pa n : Nat) : Bool :=
  (List.range ((pa + n + 7) / 8 - pa / 8)).any fun k => s.mpois.getD false (pa / 8 + k)

/-- Marks the frames of a range dirty (R463). -/
def State.touch (s : State) (pa n : Nat) : State :=
  { s with mdirty := (List.range ((pa + n + 4095) / 4096 - pa / 4096)).foldl (fun t k => t.insert (pa / 4096 + k) true) s.mdirty }

/-- Whether a watch's comparison holds for a value (R432). -/
def watchHolds (cmp : Nat) (v w : Word) : Bool :=
  match cmp with
  | 0 => v == w
  | 1 => v != w
  | 2 => decide (w.toNat ≤ v.toNat)
  | 3 => decide (v.toNat < w.toNat)
  | 4 => decide (w.toInt ≤ v.toInt)
  | 5 => decide (v.toInt < w.toInt)
  | 6 => v &&& w == w
  | _ => false

/-- The LLC slice that homes the line of a package physical address (R305). -/
def homeSlice (pa : Nat) : Nat := bits pa 9 6 ^^^ bits pa 13 10 ^^^ bits pa 17 14 ^^^ bits pa 21 18

/-- The die that keeps the watches: die 0, or die 23 while die 0 is drained (R432). -/
def State.watchDie (s : State) : Nat := if (s.reg 0 0x090).getLsbD 0 then 23 else 0

/-- A host's write to a register of a die, named by its event: it comes through BAR0, which holds the dies' registers and needs a link (R426; log 126). -/
def State.hostEvent (s : State) (die : Nat) (f : State → State) : State := if 24 ≤ die ∨ s.links.isEmpty then s else f s

/-- Evaluates an armed watch slot and fires it (R433), once the memory that it names is served (R438). -/
def State.evalWatch (s : State) (w : Nat) : State :=
  let d := s.watchDie
  let base := 0x1000 + 32 * w
  let a := s.reg d base
  let addr := wbits a 43 3 * 8
  if !a.getLsbD 63 ∨ !s.memReady addr then s
  else
    let cond := s.reg d (base + 8)
    let isLine := a.getLsbD 62
    let v : Word := if isLine then BitVec.ofNat 64 (s.homeN (addr + 8) 4) else BitVec.ofNat 64 (s.homeN addr 8)
    let hit := if isLine then wbits v 4 0 != 0 else watchHolds (wbits cond 2 0) v (s.reg d (base + 16))
    if !hit then s
    else
      let dest := s.reg d (base + 24)
      let msg := if dest.getLsbD 0 then HostMsg.write 0 (wbits dest 63 3 * 8) v else HostMsg.msix 0 (wbits dest 13 3)
      let s := (s.setReg d base (a &&& ~~~(1#64 <<< 63))).setReg d (base + 8) (cond ||| (1#64 <<< 8))
      { s with hostMsgs := s.hostMsgs ++ [msg] }

/-- Evaluates the armed watches of a range of bytes, after an update of it (R433). -/
def State.fireWatches (s : State) (pa n : Nat) : State :=
  (s.die s.watchDie).regs.foldl (fun s p =>
    if 0x1000 ≤ p.1 ∧ p.1 < 0x3000 ∧ p.1 % 32 = 0 ∧ p.2.getLsbD 63 then
      let a := wbits p.2 43 3 * 8
      let len := if p.2.getLsbD 62 then 64 else 8
      if pa < a + len ∧ a < pa + n then s.evalWatch ((p.1 - 0x1000) / 32) else s
    else s) s

/-- A write of bytes performed at home: it sets the frame's dirty bit, a write of all 8 bytes of a word clears its poison, and the watches
of the bytes are evaluated after it (R336, R433, R463). -/
def State.homeWrite (s : State) (pa : Nat) (bs : List Byte) : State :=
  let s := { s with
    mem := s.mem.writeList pa bs
    mpois := s.mpois.filter fun p => !(decide (pa ≤ 8 * p.1) && decide (8 * p.1 + 8 ≤ pa + bs.length)) }
  (s.touch pa bs.length).fireWatches pa bs.length

/-- Marks a word poisoned at home (R336). -/
def State.homePoison (s : State) (pa : Nat) : State := { s with mpois := s.mpois.insert (pa / 8) true }

/-! ### Lines of a cache -/

/-- An empty line. -/
def Line.empty : Line := ⟨0, 0, 0, 0, []⟩
/-- A byte of a line. -/
def Line.byte (l : Line) (k : Nat) : Byte := (l.data >>> (8 * k)).setWidth 8
/-- A line with a byte put in. -/
def Line.put (l : Line) (k : Nat) (b : Byte) : Line :=
  { l with data := (l.data &&& ~~~((0xFF#512) <<< (8 * k))) ||| (b.setWidth 512 <<< (8 * k)), valid := l.valid ||| (1#64 <<< k) }
/-- Notes the length of the store that wrote a byte; a byte written alone is not listed. -/
def sizeMark (t : Tab Nat) (k n : Nat) : Tab Nat := if n ≤ 1 then t.erase k else t.insert k n
/-- Whether word k of a line has a dirty byte. -/
def Line.wordDirty (l : Line) (k : Nat) : Bool := (l.dirty >>> (8 * k)).setWidth 8 != 0#8
/-- Whether all bytes of word k are dirty. -/
def Line.wordAllDirty (l : Line) (k : Nat) : Bool := (l.dirty >>> (8 * k)).setWidth 8 == 0xFF#8

/-- A line of a cache by its address / 64. -/
def State.line (s : State) (c : CacheId) (n : Nat) : Line :=
  match c with
  | .l1 k => (s.core k).l1.getD Line.empty n
  | .cc k => (s.cluster k).cc.getD Line.empty n
  | .ic k => (s.core k).ic.getD Line.empty n

/-- Puts a line into a cache; a line that holds nothing is not listed. -/
def State.setLine (s : State) (c : CacheId) (n : Nat) (l : Line) : State :=
  match c with
  | .l1 k => s.modCore k fun x => { x with l1 := if l.valid = 0 then x.l1.erase n else x.l1.insert n l }
  | .cc k => s.modCluster k fun x => { x with cc := if l.valid = 0 then x.cc.erase n else x.cc.insert n l }
  | .ic k => s.modCore k fun x => { x with ic := if l.valid = 0 then x.ic.erase n else x.ic.insert n l }

/-- The set of a cluster cache to which a line maps: address bits [21:9] (R286). -/
def ccSet (n : Nat) : Nat := n / 8 % 8192

/-- Whether the cluster cache allocates nothing for a line: its set is retired, and accesses are served at the LLC (R301). -/
def State.noSet (s : State) (k n : Nat) : Bool := (s.cluster k).setsRet.contains (ccSet n)

/-- The bytes of a line at home, lowest first, and its poisoned words. -/
def State.homeLine (s : State) (n : Nat) : List Byte × (Nat → Bool) :=
  ((List.range 64).map fun k => s.homeByte (64 * n + k), fun w => s.mpois.getD false (8 * n + w))

/-- The bytes of a line as the level above a cache holds them, lowest first, and its poisoned words. The level above a cluster cache and an
instruction cache is home, and so is that above an L1 for a line of a retired set (R301). -/
def State.aboveLine (s : State) (c : CacheId) (n : Nat) : List Byte × (Nat → Bool) :=
  match c with
  | .l1 k =>
    if s.noSet (clusterOfCore k) n then s.homeLine n
    else
      let l := s.line (.cc (clusterOfCore k)) n
      ((List.range 64).map l.byte, fun w => l.pois.getLsbD w)
  | _ => s.homeLine n

/-- A line after fetched bytes: dirty bytes keep their own value; a word all of whose bytes are dirty keeps its own poison, and one that takes
fetched bytes takes their poison as well (R309, R337). -/
def Line.fetched (l : Line) (bs : List Byte) (p : Nat → Bool) : Line :=
  let r := (bs.zipIdx).foldl (fun (a : Line) b => if l.dirty.getLsbD b.2 then a else a.put b.2 b.1) l
  { r with pois := (List.range 8).foldl (fun (m : BitVec 8) w =>
      if (l.wordDirty w && l.pois.getLsbD w) || (!l.wordAllDirty w && p w) then m ||| (1#8 <<< w) else m) 0 }

/-- Fetches a line into a cluster cache from home (R309). -/
def State.fetchCc (s : State) (k n : Nat) : State :=
  let (bs, p) := s.aboveLine (.cc k) n
  if s.noSet k n then s else s.setLine (.cc k) n ((s.line (.cc k) n).fetched bs p)

/-- Fetches a line into an instruction cache (R97, R303). -/
def State.fetchIc (s : State) (c n : Nat) : State :=
  let (bs, p) := s.aboveLine (.ic c) n
  s.setLine (.ic c) n (Line.empty.fetched bs p)

/-- Whether every byte of a range of a line is held. -/
def Line.holds (l : Line) (k n : Nat) : Bool := (List.range n).all fun i => l.valid.getLsbD (k + i)

/-- Fetches a line into an L1; the cluster cache fetches it first when it lacks a byte (R309). -/
def State.fetchL1 (s : State) (c n : Nat) : State :=
  let cl := clusterOfCore c
  let s := if (s.line (.cc cl) n).holds 0 64 then s else s.fetchCc cl n
  let (bs, p) := s.aboveLine (.l1 c) n
  s.setLine (.l1 c) n ((s.line (.l1 c) n).fetched bs p)

/-- CACHE_LINE_FETCH: a cache fetches a line (R309). -/
def State.fetchLine (s : State) (c : CacheId) (n : Nat) : State :=
  match c with
  | .l1 k => s.fetchL1 k n
  | .cc k => s.fetchCc k n
  | .ic k => s.fetchIc k n

/-- Drops the clean copies of a line in a cache (R309). -/
def State.dropLine (s : State) (c : CacheId) (n : Nat) : State :=
  let l := s.line c n
  s.setLine c n { l with valid := l.valid &&& l.dirty,
                         pois := (List.range 8).foldl (fun m w => if l.wordDirty w && l.pois.getLsbD w then m ||| (1#8 <<< w) else m) 0 }

/-- Writes the dirty bytes of a mask of a line back to home (R309). A word written back whole carries its poison; a poisoned word
written back in part poisons the word at home (R336). -/
def State.backHome (s : State) (l : Line) (n : Nat) (m : BitVec 64) : State :=
  let d := l.dirty &&& m
  let s := (List.range 64).foldl (fun (s : State) k => if d.getLsbD k then { s with mem := s.mem.write (64 * n + k) (l.byte k) } else s) s
  let s := (List.range 8).foldl (fun (s : State) w =>
    if (d >>> (8 * w)).setWidth 8 == 0#8 then s
    else if l.pois.getLsbD w then { s with mpois := s.mpois.insert (8 * n + w) true }
    else if (d >>> (8 * w)).setWidth 8 == 0xFF#8 then { s with mpois := s.mpois.erase (8 * n + w) }
    else s) s
  if d = 0 then s else (s.touch (64 * n) 64).fireWatches (64 * n) 64

/-- Writes the dirty bytes of a mask of an L1 line back to the cluster cache, where they are dirty (R309), or home where the set is retired
(R301). -/
def State.backCluster (s : State) (c : Nat) (l : Line) (n : Nat) (m : BitVec 64) : State :=
  let d := l.dirty &&& m
  if d = 0 then s
  else if s.noSet (clusterOfCore c) n then s.backHome l n m
  else
    let cl := clusterOfCore c
    let s := if (s.line (.cc cl) n).holds 0 64 then s else s.fetchCc cl n
    let u := s.line (.cc cl) n
    let r := (List.range 64).foldl (fun (a : Line) k => if d.getLsbD k then a.put k (l.byte k) else a) u
    s.setLine (.cc cl) n { r with
      dirty := u.dirty ||| d
      sizes := (List.range 64).foldl (fun t k => if d.getLsbD k then sizeMark t k (l.sizes.getD 1 k) else t) u.sizes
      pois := (List.range 8).foldl (fun (p : BitVec 8) w =>
        let dw := (d >>> (8 * w)).setWidth 8
        let b := if dw == 0#8 then u.pois.getLsbD w else if dw == 0xFF#8 then l.pois.getLsbD w else (u.pois.getLsbD w || l.pois.getLsbD w)
        if b then p ||| (1#8 <<< w) else p) 0 }

/-- Writes the dirty bytes of a mask of a line back to the next level up; they become clean (R309). -/
def State.writeBack (s : State) (c : CacheId) (n : Nat) (m : BitVec 64) : State :=
  let l := s.line c n
  let s := match c with
    | .l1 k => s.backCluster k l n m
    | _ => s.backHome l n m
  s.setLine c n { l with dirty := l.dirty &&& ~~~m, sizes := l.sizes.filter fun p => !m.getLsbD p.1 }

/-! ### Levels and the performance of accesses (R308, R310) -/

/-- The level at which an access is performed (R303, R308). -/
inductive Level where
  | l1 | cluster | home
deriving DecidableEq, Repr, Inhabited

/-- The level of a scope (R308). -/
def levelOf : Scope → Level
  | .grp | .blk => .l1
  | .cast => .cluster
  | .die => .home

/-- The bytes of an access within its line. -/
def byteMask (a n : Nat) : BitVec 64 := BitVec.ofNat 64 (((2 ^ n - 1) <<< (a % 64)) % 2 ^ 64)

/-- The dirty bytes that a byte is written back with: those of the store that wrote it, and of the stores that theirs are part of (R309, R315;
log 139). -/
def Line.unit (l : Line) (b : Nat) : BitVec 64 :=
  let ext (k : Nat) : BitVec 64 :=
    let n := l.sizes.getD 1 k
    byteMask (k / max n 1 * n) n
  let grow (m : BitVec 64) : BitVec 64 := (List.range 8).foldl (fun r i =>
    let k := b / 8 * 8 + i
    if m.getLsbD k && l.dirty.getLsbD k then r ||| ext k else r) m
  grow (grow (grow (ext b))) &&& l.dirty

/-- The bytes of the aligned 8-byte words that a mask touches. -/
def wordsOf (m : BitVec 64) : BitVec 64 :=
  (List.range 8).foldl (fun (r : BitVec 64) w => if (m >>> (8 * w)).setWidth 8 == 0#8 then r else r ||| (0xFF#64 <<< (8 * w))) 0

/-- The dirty copies of the words of a mask below a level, on a core's path, are written back (R310): words whole, so that no load returns half of
a write (R315). -/
def State.flushBelow (s : State) (c : Nat) (lv : Level) (n : Nat) (b : BitVec 64) : State :=
  let m := wordsOf b
  match lv with
  | .l1 => s
  | .cluster => s.writeBack (.l1 c) n m
  | .home => (s.writeBack (.l1 c) n m).writeBack (.cc (clusterOfCore c)) n m

/-- The copies of the bytes of a mask below a level, on a core's path, are dropped (R310). -/
def State.dropBelow (s : State) (c : Nat) (lv : Level) (n : Nat) (m : BitVec 64) : State :=
  let drop (s : State) (k : CacheId) : State :=
    let l := s.line k n
    s.setLine k n { l with valid := l.valid &&& ~~~m, dirty := l.dirty &&& ~~~m, sizes := l.sizes.filter fun p => !m.getLsbD p.1 }
  match lv with
  | .l1 => s
  | .cluster => drop s (.l1 c)
  | .home => drop (drop s (.l1 c)) (.cc (clusterOfCore c))

/-- The level at which an access of a core is served: the LLC in place of a retired set of its cluster cache (R301). -/
def State.serveLevel (s : State) (c : Nat) (lv : Level) (pa : Nat) : Level :=
  match lv with
  | .cluster => if s.noSet (clusterOfCore c) (pa / 64) then .home else .cluster
  | l => l

/-- The value that a load performed at a level returns, with its poison, and the state after it (R310). -/
def State.loadAt (s : State) (c : Nat) (lv : Level) (pa n : Nat) : State × Nat × Bool :=
  let lv := s.serveLevel c lv pa
  let ln := pa / 64
  let k := pa % 64
  let s := s.flushBelow c lv ln (byteMask pa n)
  let get (l : Line) : Nat × Bool :=
    (ofBytes ((List.range n).map fun i => l.byte (k + i)), (List.range 8).any fun w => l.pois.getLsbD w && decide (8 * w < k + n) && decide (k < 8 * w + 8))
  match lv with
  | .home => (s, s.homeN pa n, s.homePois pa n)
  | .cluster =>
    let cl := clusterOfCore c
    let s := if (s.line (.cc cl) ln).holds k n then s else s.fetchCc cl ln
    (s, get (s.line (.cc cl) ln))
  | .l1 =>
    let s := if (s.line (.l1 c) ln).holds k n then s else s.fetchL1 c ln
    (s, get (s.line (.l1 c) ln))

/-- The state after a store performed at a level (R310): the bytes are dirty there unless the level is home, and the copies below are
dropped. -/
def State.storeAt (s : State) (c : Nat) (lv : Level) (pa : Nat) (bs : List Byte) : State :=
  let lv := s.serveLevel c lv pa
  let n := bs.length
  let ln := pa / 64
  let k := pa % 64
  let m := byteMask pa n
  let s := s.flushBelow c lv ln m
  let put (l : Line) : Line :=
    let r := (bs.zipIdx).foldl (fun (a : Line) b => a.put (k + b.2) b.1) l
    { r with dirty := l.dirty ||| m, sizes := (List.range n).foldl (fun t i => sizeMark t (k + i) n) l.sizes,
             pois := if n = 8 then l.pois &&& ~~~(1#8 <<< (k / 8)) else l.pois }
  match lv with
  | .home => (s.homeWrite pa bs).dropBelow c .home ln m
  | .cluster =>
    let cl := clusterOfCore c
    let s := if (s.line (.cc cl) ln).holds 0 64 then s else s.fetchCc cl ln
    (s.setLine (.cc cl) ln (put (s.line (.cc cl) ln))).dropBelow c .cluster ln m
  | .l1 =>
    let s := if (s.line (.l1 c) ln).holds 0 64 then s else s.fetchL1 c ln
    s.setLine (.l1 c) ln (put (s.line (.l1 c) ln))

/-- Every dirty byte of an L1 is written back to its cluster cache. -/
def State.flushL1 (s : State) (c : Nat) : State :=
  (s.core c).l1.foldl (fun s p => s.writeBack (.l1 c) p.1 (BitVec.allOnes 64)) s
/-- Every dirty byte of a cluster cache is written back to home. -/
def State.flushCc (s : State) (k : Nat) : State :=
  (s.cluster k).cc.foldl (fun s p => s.writeBack (.cc k) p.1 (BitVec.allOnes 64)) s
/-- Every clean copy of an L1 is dropped. -/
def State.purgeL1 (s : State) (c : Nat) : State := (s.core c).l1.foldl (fun s p => s.dropLine (.l1 c) p.1) s
/-- Every copy of an instruction cache is dropped. -/
def State.purgeIc (s : State) (c : Nat) : State := s.modCore c fun k => { k with ic := [] }
/-- Every clean copy of a cluster cache is dropped. -/
def State.purgeCc (s : State) (k : Nat) : State := (s.cluster k).cc.foldl (fun s p => s.dropLine (.cc k) p.1) s

/-- The write-backs of a release of a scope on a core's path (R312). -/
def State.releaseAt (s : State) (c : Nat) (sc : Scope) : State :=
  match levelOf sc with
  | .l1 => s
  | .cluster => s.flushL1 c
  | .home => (s.flushL1 c).flushCc (clusterOfCore c)

/-- The drops of an acquire of a scope on a core's path (R312). -/
def State.acquireAt (s : State) (c : Nat) (sc : Scope) : State :=
  match levelOf sc with
  | .l1 => s
  | .cluster => s.purgeL1 c
  | .home => (s.purgeL1 c).purgeCc (clusterOfCore c)

end Sys2Proof.Machine
end

