-- ==== Sys2Proof/Machine/Translate.lean ====
section
/-! DEFINITION. Virtual to physical: the address-space table, the table walk, the TLB, page kinds and permissions, generations, and the
fault queue (spec/11_die_memory_model_and_translation.md R316 to R334). -/

namespace Sys2Proof.Machine

/-- What an access asks of a page (R322, R333). -/
inductive AccessKind where
  | load | store | atomic | fetch | ladleRead | ladleWrite
deriving DecidableEq, Repr, Inhabited

/-- The ACC code of a fault entry (R333). -/
def AccessKind.code : AccessKind → Nat
  | .load => 0 | .store => 1 | .atomic => 2 | .fetch => 3 | .ladleRead => 4 | .ladleWrite => 5

/-- How a translation ends: a frame address with its page, a served fault with its REASON and page, a trap's cause (R325, R327), or another attempt:
after a rejection by the home slice (R325), or once the memory of the tables is served (R438). -/
inductive XRes where
  | ok (pa : Nat) (e : Tlb)
  | served (reason page size : Nat)
  | trap (cause : Nat)
  | again (rejected : Bool)
deriving DecidableEq, Repr, Inhabited

/-- Page kinds (R316). -/
def kPrivate : BitVec 3 := 0
/-- IMMUTABLE. -/
def kImmutable : BitVec 3 := 1
/-- SHARED. -/
def kShared : BitVec 3 := 2
/-- MOULD. -/
def kMould : BitVec 3 := 3
/-- HOST. -/
def kHost : BitVec 3 := 4
/-- FABRIC. -/
def kFabric : BitVec 3 := 5
/-- DEVICE. -/
def kDevice : BitVec 3 := 6

/-- NODEID of a die (R447, R50). -/
def State.nodeId (s : State) (d : Nat) : Nat := wbits (s.reg d 0x3010) 19 0

/-- The AST entry of an ASID, as a die's ASTBASE names the table (R317, R318). -/
def State.astEntry (s : State) (d asid : Nat) : Nat :=
  s.homeN (wbits (s.reg d 0x000) 43 20 * 2 ^ 20 + 16 * asid) 16
/-- Whether an AST entry is VALID (R318). -/
def astValid (e : Nat) : Bool := e.testBit 0
/-- The generation of an AST entry (R318). -/
def astGen (e : Nat) : BitVec 16 := BitVec.ofNat 16 (bits e 79 64)

/-- The levels of a walk from level 5 down: level, low bit of its index, index bits (R319). -/
def walkLevels : List (Nat × Nat × Nat) := [(5, 43, 13), (4, 31, 12), (3, 26, 5), (2, 21, 5), (1, 16, 5), (0, 12, 4)]

/-- The malformed cases of an entry with V = 1 at a level whose entries map 2^sh bytes (R321). -/
def State.malformed (s : State) (d level sh e : Nat) : Bool :=
  let leaf := e.testBit 1
  let kind := bits e 7 5
  let node := bits e 63 44
  let pa := bits e 43 12 * 4096
  let here := s.nodeId d
  let next := match level with | 5 => 2 ^ 16 | 1 => 256 | _ => 512
  bits e 127 96 != 0 || bits e 11 10 != 0
  || (leaf && level == 5) || (!leaf && level == 0)
  || (if leaf then
        pa % 2 ^ sh != 0 || kind == 7
        || (if kind == 5 then node == here else node != here || !s.populated pa (2 ^ sh))
        || (kind == 6 && s.regionOf pa != .mmio)
      else node != here || !s.populated pa next)

/-- How a walk ends: a leaf with its address and page, a failure with its REASON and the page it names (R321, R327), or a table whose memory is not
served yet (R438). -/
inductive Walk where
  | leaf (addr entry sh : Nat)
  | fail (reason sh : Nat)
  | wait
deriving DecidableEq, Repr, Inhabited

/-- The table walk from a table on (R319 to R321). -/
def State.walkFrom (s : State) (d va : Nat) : List (Nat × Nat × Nat) → Nat → Walk
  | [], _ => .fail 1 12
  | (lv, sh, n) :: rest, table =>
    let a := table + 16 * (bits va (sh + n - 1) sh)
    let e := s.homeN a 16
    if !s.memReady a then .wait
    else if !e.testBit 0 then .fail 0 sh
    else if s.malformed d lv sh e then .fail 1 sh
    else if e.testBit 1 then .leaf a e sh
    else s.walkFrom d va rest (bits e 43 12 * 4096)

/-- The walk of a virtual address in an address space (R319). -/
def State.walk (s : State) (d : Nat) (ast va : Nat) : Walk := s.walkFrom d va walkLevels (bits ast 43 17 * 2 ^ 17)

/-- The leaf address of a translation that has no leaf in memory: one that the host has supplied (R443). -/
def noLeaf : Nat := 2 ^ 44

/-- A TLB entry from a leaf (R324). -/
def Tlb.ofLeaf (asid gen : BitVec 16) (va addr e sh : Nat) : Tlb :=
  ⟨asid, gen, va / 2 ^ sh * 2 ^ sh, 2 ^ sh, bits e 63 12 * 4096, BitVec.ofNat 3 (bits e 7 5), e.testBit 2, e.testBit 3, e.testBit 4, e.testBit 9, addr⟩

/-- Whether a TLB entry covers an address of an address space. -/
def Tlb.covers (t : Tlb) (asid : BitVec 16) (va : Nat) : Bool := t.asid == asid && decide (t.base ≤ va) && decide (va < t.base + t.size)

/-- The TLB entry that covers an address for a core: in its L1 TLB, or in the L2 TLB of its cluster (R324). -/
def State.tlbFind (s : State) (c : Nat) (asid : BitVec 16) (va : Nat) : Option Tlb :=
  match (s.core c).tlb.find? (·.covers asid va) with
  | some t => some t
  | none => (s.cluster (clusterOfCore c)).tlb.find? (·.covers asid va)

/-- Drops the TLB entries of a core and of its cluster that cover an address. -/
def State.tlbDrop (s : State) (c : Nat) (asid : BitVec 16) (va : Nat) : State :=
  (s.modCore c fun k => { k with tlb := k.tlb.filter fun t => !t.covers asid va }).modCluster (clusterOfCore c) fun k =>
    { k with tlb := k.tlb.filter fun t => !t.covers asid va }

/-- Copies an entry of the L2 TLB into the L1 TLB of a core that lacks it (R324). -/
def State.tlbFill (s : State) (c : Nat) (t : Tlb) : State :=
  if (s.core c).tlb.contains t then s else s.modCore c fun k => { k with tlb := t :: k.tlb }

/-- Installs a TLB entry on a core and its cluster: bit A of the leaf is set if it is 0 (R323, R324). -/
def State.tlbInstall (s : State) (c : Nat) (t : Tlb) (entry : Nat) : State :=
  let s := (s.modCore c fun k => { k with tlb := t :: k.tlb }).modCluster (clusterOfCore c) fun k => { k with tlb := t :: k.tlb }
  if entry.testBit 8 || t.leaf == noLeaf then s else s.homeWrite (t.leaf + 1) [byteAt entry 1 ||| 1]

/-- The generation that the slices of a die hold for an ASID (R325). -/
def State.sliceGen (s : State) (d : Nat) (asid : BitVec 16) : BitVec 16 := (s.die d).gens.getD 0 asid.toNat

/-- Whether a die walks in host-assisted mode (R443). -/
def State.hostWalk (s : State) (d : Nat) : Bool := (s.die d).mode.getLsbD 0

/-- Walks and installs (R324). The leaf of a HOST page, which no access goes through, is not kept (R328, R430; log 104). -/
def State.walkInstall (s : State) (c : Nat) (asid : BitVec 16) (va : Nat) : State × XRes :=
  let d := dieOfCore c
  let ast := s.astEntry d asid.toNat
  if !s.memReady (wbits (s.reg d 0x000) 43 20 * 2 ^ 20 + 16 * asid.toNat) then (s, .again false)
  else if !astValid ast then (s, .trap 0x17)
  else if s.hostWalk d then (s, .served 3 (va / 4096 * 4096) 4096)
  else match s.walk d ast va with
    | .fail r sh => (s, .served r (va / 2 ^ sh * 2 ^ sh) (2 ^ sh))
    | .wait => (s, .again false)
    | .leaf a e sh =>
      let t := Tlb.ofLeaf asid (astGen ast) va a e sh
      (if t.kind = kHost then s else s.tlbInstall c t e, .ok (t.frame + (va - t.base)) t)

/-- Translation by the TLBs of a core, with a walk on a miss; a generation that the home slice does not hold is rejected, its entry is dropped, and
the access is attempted again with a fresh walk (R324, R325). -/
def State.lookup (s : State) (c : Nat) (asid : BitVec 16) (va : Nat) : State × XRes :=
  let check (s : State) (t : Tlb) : Bool := t.kind = kFabric || t.gen == s.sliceGen (dieOfPa (t.frame % 2 ^ 44)) asid
  match s.tlbFind c asid va with
  | some t => if check s t then (s.tlbFill c t, .ok (t.frame + (va - t.base)) t) else (s.tlbDrop c asid va, .again true)
  | none =>
    match s.walkInstall c asid va with
    | (s, .ok pa t) => if check s t then (s, .ok pa t) else (s.tlbDrop c asid va, .again true)
    | r => r

/-- The rejections in a row after which an access fails (R325). -/
def maxRejections : Nat := 16

/-- Whether a page kind admits an access from a die (R316); the page's home die is that of its frame. -/
def kindAdmits (kind : BitVec 3) (homeHere : Bool) (a : AccessKind) : Bool :=
  match a with
  | .load => kind = kImmutable || (homeHere && (kind = kPrivate || kind = kShared || kind = kMould || kind = kDevice))
  | .store => homeHere && (kind = kPrivate || kind = kDevice)
  | .atomic => homeHere && kind = kPrivate
  | .fetch => kind = kImmutable || (homeHere && kind = kPrivate)
  | .ladleRead => kind = kImmutable || (homeHere && (kind = kPrivate || kind = kShared || kind = kMould))
  | .ladleWrite => homeHere && kind = kPrivate

/-- Whether a page's permissions admit an access (R322). -/
def Tlb.permits (t : Tlb) : AccessKind → Bool
  | .load | .ladleRead => t.r
  | .store | .ladleWrite => t.w
  | .atomic => t.r && t.w
  | .fetch => t.x

/-- Whether an access writes. -/
def AccessKind.writes : AccessKind → Bool
  | .store | .atomic | .ladleWrite => true
  | _ => false

/-- Bit D is set before the first store or atomic through an entry whose D is 0 (R323). -/
def State.setDirty (s : State) (c : Nat) (t : Tlb) : State :=
  if t.d then s
  else
    let mark (l : List Tlb) : List Tlb := l.map fun u => if u = t then { u with d := true } else u
    let s := (s.modCore c fun k => { k with tlb := mark k.tlb }).modCluster (clusterOfCore c) fun k => { k with tlb := mark k.tlb }
    if t.leaf = noLeaf then s else s.homeWrite (t.leaf + 1) [s.homeByte (t.leaf + 1) ||| 2]

/-- The translation and checks of an access by a core (R316 to R327): malformed address, EN, walk, HOST page, generation, page kind,
permission, and the D bit. `kindOk` is the page-kind rule of the access. A HOST leaf that the host has supplied (R443) is used up by the fault: the
retry after the page's migration translates afresh (R430). -/
def State.translateWith (s : State) (c : Nat) (asid : BitVec 16) (va : Nat) (a : AccessKind) (kindOk : Tlb → Bool) : State × XRes :=
  if 2 ^ 56 ≤ va then (s, .trap 0x10)
  else if !(s.reg (dieOfCore c) 0x000).getLsbD 0 then (s, .trap 0x10)
  else match s.lookup c asid va with
    | (s, .ok pa t) =>
      if t.kind = kHost then (s.tlbDrop c asid va, .served 2 t.base t.size)
      else if !kindOk t then (s, .trap 0x11)
      else if !t.permits a then (s, .trap 0x12)
      else (if a.writes then s.setDirty c t else s, .ok pa t)
    | r => r

/-- The translation of a plain access, fetch or ladle access by a core (R316). -/
def State.translate (s : State) (c : Nat) (asid : BitVec 16) (va : Nat) (a : AccessKind) : State × XRes :=
  s.translateWith c asid va a fun t => kindAdmits t.kind (dieOfPa (t.frame % 2 ^ 44) == dieOfCore c) a

/-! ### The fault queue (R332 to R334) -/

/-- The entries of a die's ring (R332). -/
def State.fqSize (s : State) (d : Nat) : Nat := 64 * 2 ^ wbits (s.reg d 0x018) 3 0

/-- Appends a fault entry to a die's ring, unless the ring is full or its memory is not served yet (R438); a fault whose leaf has an entry pending
joins it (R332, R333; where the walk ended above a leaf, log 136). Answers the entry's number. -/
def State.appendFault (s : State) (d : Nat) (asid : BitVec 16) (va page size reason acc : Nat) : State × Option Nat :=
  match (s.die d).faults.first? (fun _ p => p.asid == asid && p.page == page && p.size == size) with
  | some p => (s, some p.1)
  | none =>
    let ptr := s.reg d 0x020
    let n := s.fqSize d
    let tail := wbits ptr 31 0
    let head := wbits ptr 63 32
    let base := wbits (s.reg d 0x018) 43 12 * 4096
    if (tail + 1) % n = head % n ∨ !s.memReady (base + 32 * tail) then (s, none)
    else
      let gen := astGen (s.astEntry d asid.toNat)
      let s := s.homeWrite (base + 32 * tail)
        (bytesOf 8 va ++ bytesOf 4 (gen.toNat * 65536 + asid.toNat) ++ bytesOf 4 (reason * 16 + acc) ++ bytesOf 16 0)
      let s := (s.modDie d fun x => { x with faults := x.faults.insert tail ⟨asid, gen, va, page, size, reason, acc⟩ }).setReg d 0x020
        (BitVec.ofNat 64 (head * 2 ^ 32 + (tail + 1) % n))
      let s := if (s.die d).mode.getLsbD 1 then
          { s with hostMsgs := s.hostMsgs ++ [.msix (if d = 23 then 1 else 0) (wbits (s.reg d 0x0A0) 42 32)] }
        else s
      (s, some tail)

end Sys2Proof.Machine
end

