-- ==== Sys2Proof/Machine/Fetch.lean ====
section
/-! DEFINITION. Instruction fetch, the checks of an offset over the occupied planes, control transfers and loop ends
(spec/02_group_and_lanes.md R51 to R56; spec/03_instruction_encoding.md R84 to R87, R94 to R97;
spec/06_control_planes_and_traps.md R168, R174). -/

namespace Sys2Proof.Machine

/-- How a fetch ends (R316, R322, R335). -/
inductive Fetched where
  | words (ws : List CodeWord)
  /-- A served fault at a virtual address, with its reason and page. -/
  | served (va reason page size : Nat)
  /-- A trap at a virtual address. -/
  | trap (cause va : Nat)
  /-- The home slice has rejected the generation (R325), or the memory is not served yet (R438): another attempt. -/
  | again (rejected : Bool)
deriving DecidableEq, Repr, Inhabited

/-- The word that a core's fetch finds: that of its instruction cache, or, where stores have changed it since, the one at home (R97; log 52). -/
def State.codeWord (s : State) (c pa : Nat) : CodeWord :=
  let l := s.line (.ic c) (pa / 64)
  let w := BitVec.ofNat 32 (s.homeN pa 4)
  let o := BitVec.ofNat 32 (ofBytes ((List.range 4).map fun i => l.byte (pa % 64 + i)))
  if (l.holds (pa % 64) 4 && o != w) && Config.freeBool s.tick 8197 pa then o else w

/-- Fetches one word (R52, R97); the line is then in the instruction cache (R303). -/
def State.fetchWord (s : State) (c : Nat) (asid : BitVec 16) (va : Nat) : State × Fetched :=
  match s.translate c asid va .fetch with
  | (s, .ok ga _) =>
    let pa := ga % 2 ^ 44
    let held := (s.line (.ic c) (pa / 64)).holds (pa % 64) 4
    if held then (s, .words [s.codeWord c pa])
    else if s.memReady pa then (s.fetchIc c (pa / 64), .words [s.codeWord c pa])
    else (s, .again false)
  | (s, .served r p n) => (s, .served va r p n)
  | (s, .trap cause) => (s, .trap cause va)
  | (s, .again r) => (s, .again r)

/-- Fetches the words of the instruction at an offset of a plane, up to the region's end: a prefix is followed by its instruction and a head
by its tail (R70). -/
def State.fetchInstr (s : State) (gid p off : Nat) : State × Fetched :=
  let g := s.group gid
  let c := g.cx.core
  let at_ (s : State) (k : Nat) : State × Fetched :=
    if off + 4 * k < g.regionLen then s.fetchWord c g.cx.asid (g.codeVa p (off + 4 * k)) else (s, .words [])
  let more (s : State) (k : Nat) (ws : List CodeWord) : State × Fetched :=
    match at_ s k with
    | (s, .words v) => (s, .words (ws ++ v))
    | r => r
  let isHead (w : CodeWord) : Bool := (wordLS w).toNat == 1
  match at_ s 0 with
  | (s, .words [w0]) =>
    if (wordLS w0).toNat = 2 then
      match more s 1 [w0] with
      | (s, .words [a, w1]) => if isHead w1 then more s 2 [a, w1] else (s, .words [a, w1])
      | r => r
    else if isHead w0 then more s 1 [w0]
    else (s, .words [w0])
  | r => r

/-- Fetches the instruction at an offset in each plane of a list; stops at the first fetch that fails, and names its plane. -/
def State.fetchPlanes (s : State) (gid off : Nat) : List Nat → State × Except (Nat × Fetched) (List (Nat × List CodeWord))
  | [] => (s, .ok [])
  | p :: ps =>
    match s.fetchInstr gid p off with
    | (s, .words ws) =>
      match s.fetchPlanes gid off ps with
      | (s, .ok l) => (s, .ok ((p, ws) :: l))
      | r => r
    | (s, f) => (s, .error (p, f))

/-- Whether the F5 of a plane-invariant lane instruction is reserved: a direction of QSWP, a kind of VVOTE, or the type code of an instruction
that takes its element type from there (R79; log 103). -/
def reservedF5 (op : Nat) (t : BitVec 2) (f : BitVec 5) : Bool :=
  if op = 0x0A2 then (SwapDir.of (f.getLsbD 4) (f.getLsbD 3)).isNone
  else
    (op == 0x0A5 && (VoteKind.of (f.getLsbD 4) (f.getLsbD 3)).isNone)
    || ([0x0A0, 0x0A1, 0x0A4, 0x0A5, 0x0A6, 0x0A7, 0x0AA, 0x140, 0x141].contains op && (Elem.ofCode t (f5lo f)).isNone)

/-- Whether the instruction whose words start a list is plane-variant (R54, R83); a lane word that is not an instruction is (R96). -/
def planeVariant (ws : List CodeWord) : Bool :=
  let ws := match ws with
    | a :: b :: l => if (wordLS a).toNat = 2 then b :: l else ws
    | _ => ws
  match ws with
  | [] => true
  | h :: l =>
    if wordP h then false
    else if (wordLS h).toNat = 1 then
      let op := (CodeWord.field h 18 9).toNat
      !((0x0A0 ≤ op && op ≤ 0x0AB) || op == 0x140 || op == 0x141 || op == 0x145)
        || l.head?.any fun t => (wordLS t).toNat == 3 && reservedF5 op (CodeWord.field h 0 2) (CodeWord.field t 0 5)
    else true

/-- Words without their W fields, for the comparison of R55. -/
def maskW (ws : List CodeWord) : List CodeWord :=
  ws.map fun w => if (wordLS w).toNat ≤ 1 then w &&& ~~~(0b11#32 <<< 27) else w

/-- The LS fields that R55 compares: that of the first word and, after a prefix, that of the word it prefixes. -/
def lsFields (ws : List CodeWord) : List Nat :=
  match ws with
  | a :: b :: _ => if (wordLS a).toNat = 2 then [2, (wordLS b).toNat] else [(wordLS a).toNat]
  | [a] => [(wordLS a).toNat]
  | [] => []

/-- The words that an instruction takes by its LS fields (R70). -/
def wordCount (ws : List CodeWord) : Nat :=
  match lsFields ws with
  | [2, 1] => 3
  | [2, _] => 2
  | [1] => 2
  | _ => 1

/-- The checks of R55 over two or more occupied planes: PLANE_MISALIGN, PLANE_MISMATCH. -/
def planeCheck (l : List (Nat × List CodeWord)) : Option Nat :=
  match l with
  | [] => none
  | (_, w0) :: rest =>
    if rest.any fun x => lsFields x.2 != lsFields w0 then some 0x05
    else if l.any (fun x => !planeVariant x.2) && rest.any (fun x => maskW x.2 != maskW w0) then some 0x06
    else none

/-- The TADDR of a decode trap, in words from the instruction's offset, and whether it is ILLEGAL_PREFIX (R94, R95). -/
def decodePlace : DecodeError → Bool × Nat
  | .illegalPrefix => (true, 0)
  | .tailWithoutHead k | .headWithoutTail k | .tailOfOtherPipe k => (false, k)
  | .zeroWord | .reservedOrField | .noWord => (false, 0)

/-! ### Control transfers (R86, R87, R168) -/

/-- The word at an offset of a plane, where a fetch would succeed. -/
def State.peekWord (s : State) (g : Group) (p off : Nat) : Option CodeWord :=
  match (s.fetchWord g.cx.core g.cx.asid (g.codeVa p off)).2 with
  | .words [w] => some w
  | _ => none

/-- How the checks of a taken control transfer end. -/
inductive Transfer where
  | ok
  /-- BAD_TARGET or ORPHAN_PREFIX. -/
  | bad (cause : Nat)
  /-- A word that they read cannot be fetched: its virtual address, and how the fetch ended (log 48). -/
  | unread (va : Nat) (f : Fetched)
deriving DecidableEq, Repr, Inhabited

/-- Reads the word at an offset of each plane of a list: `bad` with a cause where one has an LS field, else the first that cannot be fetched. -/
def State.scanPlanes (s : State) (g : Group) (off ls cause : Nat) (planes : List Nat) : Transfer :=
  let f (p : Nat) : Fetched := (s.fetchWord g.cx.core g.cx.asid (g.codeVa p off)).2
  if planes.any fun p => match f p with | .words [w] => (wordLS w).toNat == ls | _ => false then .bad cause
  else match planes.find? fun p => match f p with | .words _ => false | _ => true with
    | some p => .unread (g.codeVa p off) (f p)
    | none => .ok

/-- The checks of a taken control transfer for the planes that the lanes taking it occupy: BAD_TARGET, then ORPHAN_PREFIX (R86, R87). -/
def State.transfer (s : State) (g : Group) (planes : List Nat) (target : Int) : Transfer :=
  if target < 0 ∨ target % 4 ≠ 0 ∨ (g.regionLen : Int) ≤ target then .bad 0x04
  else match s.scanPlanes g target.toNat 3 0x04 planes with
    | .ok => if target = 0 then .ok else s.scanPlanes g (target.toNat - 4) 2 0x03 planes
    | r => r

/-- A displacement target (R84): relative to the word after the instruction. -/
def dispTarget (next : Nat) (words : Int) : Int := (next : Int) + 4 * words

/-- A target as the 64-bit detail of a trap. -/
def targetWord (t : Int) : Word := BitVec.ofInt 64 t

/-- A split becomes FAULTED at its instruction and records the lanes that retry and a trap it holds (R329, R335, R484). -/
def State.setFaulted (s : State) (gid e : Nat) (retry : Mask) (entry : List Nat) (fetch : Bool) (held : Option Trap) (va : Word) : State :=
  (s.modGroup gid fun g => g.modSplit e fun p => { p with st := .faulted retry entry (p.since.getD s.uid) fetch held va }).bump

/-- A split attempts its instruction again in the next clk; after the last rejection in a row it fails (R325). -/
def State.attemptLater (s : State) (gid e : Nat) (rejected : Bool) (fail : State → State) : State :=
  let p := (s.group gid).split e
  if rejected && decide (maxRejections ≤ p.rejects + 1) then
    fail (s.modGroup gid fun g => g.modSplit e fun p => { p with rejects := 0 })
  else s.modGroup gid fun g => g.modSplit e fun p =>
    { p with readyAt := s.clk + 1, rejects := if rejected then p.rejects + 1 else p.rejects }

/-- A split stands at its offset and cannot fetch a word that it needs there (R335; log 48): a served fault makes it FAULTED, with the trap to be
raised should the fault be delivered, and is a double trap at the trap-entry offset of a running handler; a refusal raises its trap; and
another attempt is made in the next clk, with a fresh walk after a rejection (R325). -/
def State.unfetched (s : State) (gid e taddr : Nat) : Fetched → State
  | .served va reason page size =>
    let g := s.group gid
    let p := g.split e
    let t : Trap := ⟨0x10, p.off, BitVec.ofNat 64 taddr, p.exec, 0, .none⟩
    if g.handler = some e ∧ p.off = g.cx.trapOff then s.doubleTrap gid t
    else
      let (s, k) := s.appendFault (dieOfCore g.cx.core) g.cx.asid va page size reason AccessKind.fetch.code
      s.setFaulted gid e 0 k.toList true (some t) t.taddr
  | .trap cause _ =>
    let p := (s.group gid).split e
    s.raiseAt gid e ⟨BitVec.ofNat 8 cause, p.off, BitVec.ofNat 64 taddr, p.exec, 0, .none⟩
  | .again r =>
    let g := s.group gid
    (if r then s.tlbDrop g.cx.core g.cx.asid taddr else s).attemptLater gid e r fun s =>
    let p := (s.group gid).split e
    s.raiseAt gid e ⟨0x17, p.off, BitVec.ofNat 64 taddr, p.exec, 0, .none⟩
  | .words _ => s

/-- The issuing split cannot fetch a word that it needs; the issue is over. -/
def State.unfetchedHere (s : State) (taddr : Nat) (f : Fetched) : State :=
  (s.unfetched s.cur.gid s.cur.ent taddr f).setFlow (match f with | .trap .. => .trapped | _ => .stall)

/-- A taken control transfer of the issuing split to a target, for lanes that take it: it goes on where the checks pass (R86, R87, R169). -/
def State.transferTo (s : State) (lanes : Mask) (target : Int) (go : State → State) : State :=
  match s.transfer s.grp (s.grp.occupied lanes) target with
  | .ok => go s
  | .bad cause => s.trapExec cause (targetWord target)
  | .unread va f => s.unfetchedHere va f

/-- The issuing split moves as a whole to a target, or raises the trap of the transfer. A displacement that leads below offset 0 is no offset of the
region: BAD_TARGET, with the target as a 64-bit two's complement number in TADDR (R86; log 120). -/
def State.moveTo (s : State) (target : Int) : State :=
  s.transferTo s.spl.owned target fun s => (s.modSpl fun p => { p with off := target.toNat }).setFlow .moved

/-- What the end of an iteration leaves to be done. -/
inductive LoopStep where
  /-- The split stays where it stands, with these levels. -/
  | stay (ls : List Loop)
  /-- The split moves along a back-edge. -/
  | back (ls : List Loop) (off : Nat)
  /-- The back-edge fails its checks, with the levels as they are. -/
  | fails (ls : List Loop) (lb : Nat) (t : Transfer)
deriving DecidableEq, Repr, Inhabited

/-- The rule of R174 at an offset, from the top level down: a level that ends there with a count of at most 1 is popped, and the rule is applied
again; one with a larger count goes to lb. A back-edge to le itself ends its next iteration at once, down to the last. -/
def iterationEnd (off : Nat) (check : Nat → Transfer) : List Loop → LoopStep
  | [] => .stay []
  | l :: ls =>
    if l.le ≠ off then .stay (l :: ls)
    else if l.lc.toNat ≤ 1 then iterationEnd off check ls
    else match check l.lb with
      | .ok => if l.lb = off then iterationEnd off check ls else .back ({ l with lc := l.lc - 1 } :: ls) l.lb
      | t => .fails (l :: ls) l.lb t

/-- The end of an iteration (R174) for a split whose offset has become le of its top level: a back-edge that fails is attributed to le, where
the split stands, with RPL 0 (R191). -/
def State.loopEndAt (s : State) (gid e : Nat) : State :=
  let g := s.group gid
  let p := g.split e
  let put (ls : List Loop) (off : Nat) : State := s.modGroup gid fun g => g.modSplit e fun p => { p with loops := ls, off := off }
  match iterationEnd p.off (fun lb => s.transfer g (g.occupied p.owned) lb) p.loops with
  | .stay ls => put ls p.off
  | .back ls off => put ls off
  | .fails ls lb (.bad cause) => (put ls p.off).raiseAt gid e ⟨BitVec.ofNat 8 cause, p.off, BitVec.ofNat 64 lb, p.exec, 0, .none⟩
  | .fails ls _ (.unread va f) => (put ls p.off).unfetched gid e va f
  | .fails ls _ .ok => put ls p.off

/-- The end of an iteration of the issuing split. -/
def State.loopEnd (s : State) : State := s.loopEndAt s.cur.gid s.cur.ent

end Sys2Proof.Machine
end

