-- ==== Sys2Proof/Machine/Flags.lean ====
section
/-! DEFINITION. The floating-point controls FPM, the sticky flags FPST and FP_EXCEPTION (spec/01_number_formats.md R14, R19, R23 to
R25), and the settings under which an issue computes. -/

namespace Sys2Proof.Machine

/-- FPM.RMODE as a mode; stored codes always name one (R23). -/
def Group.rmode (g : Group) : Rm := (Rm.ofCode (g.fpm.toNat % 8)).getD .rne

/-- FPM after a write of its register: RMODE codes that name no mode store 001, and reserved bits are ignored (R23). -/
def fpmWrite (x : Word) : BitVec 9 :=
  let m := wbits x 2 0
  let r := if (Rm.ofCode m).isSome then m else 1
  BitVec.ofNat 9 (r + wbits x 8 4 * 16)

/-- FPM after reset (R23). -/
def fpmReset : BitVec 9 := 1

/-- The settings of the issue in progress: its prefix, or FPM (R19). -/
def State.fpCtx (s : State) : FpCtx :=
  { rm := s.cur.rm.getD s.grp.rmode, sat := s.cur.sat, ftz := s.cur.ftz || s.grp.fpm.getLsbD 4, daz := s.grp.fpm.getLsbD 5 }

/-- The flags whose trap enables are set (R23). -/
def Group.enabled (g : Group) : FpFlags := BitVec.ofNat 5 ((g.fpm.toNat >>> 6) % 8)

/-- Sets sticky flags (R24). -/
def State.setFlags (s : State) (f : FpFlags) : State := s.modGrp fun g => { g with fpst := g.fpst ||| f }

/-- The flags that the active lanes of an issue raise. -/
def activeFlags (m : Mask) (per : Nat → FpFlags) : FpFlags := (lanesOf m).foldl (fun a i => a ||| per i) 0

/-- The end of an issue that may raise flags (R24, R25): the flags of its active lanes are set; if one is enabled the issue raises
FP_EXCEPTION, blames the lanes that raised it and writes nothing, and otherwise it writes. -/
def State.withFlags (s : State) (per : Nat → FpFlags) (write : State → State) : State :=
  let f := activeFlags s.cur.mask per
  let en := s.grp.enabled
  let t := s.setFlags f
  if f &&& en = 0 then write t
  else t.takeTrap 0x0D (f.setWidth 64) (maskOf fun i => s.cur.mask.getLsbD i && per i &&& en != 0)

/-- The end of a uniform issue that may set OF under SAT = 10 (R14, R125). -/
def State.withUniFlags (s : State) (f : FpFlags) (write : State → State) : State :=
  let t := s.setFlags f
  if f &&& s.grp.enabled = 0 then write t else t.trapExec 0x0D (f.setWidth 64)

end Sys2Proof.Machine
end

