-- ==== Sys2Proof/Machine/Operands.lean ====
section
/-! DEFINITION. The operands of instructions: which registers an issue names, the checks made on them before it acts
(spec/02_group_and_lanes.md R46, R67; spec/06_control_planes_and_traps.md R186; spec/09_matrix_engine.md R275, R276;
spec/08_core_memory_and_ladle.md R228, R234), and the operand forms of lane and uniform instructions
(spec/04_integer_and_uniform_instructions.md R110, R111, R126). -/

namespace Sys2Proof.Machine

/-- A register that an issue names: the halves it reads (1 the low half, 2 the high half) and whether it writes it. -/
structure Use where
  (kind : RegKind) (num : Nat) (rd : Nat) (wr : Bool)
deriving DecidableEq, Repr, Inhabited

/-- Reads a vector register. -/
def rdV (r : VReg) : Use := ⟨.vec, r.toNat, 3, false⟩
/-- Writes a vector register. -/
def wrV (r : VReg) : Use := ⟨.vec, r.toNat, 0, true⟩
/-- Reads and writes a vector register. -/
def rwV (r : VReg) : Use := ⟨.vec, r.toNat, 3, true⟩
/-- Reads the low half of a vector register. -/
def rdVlo (r : VReg) : Use := ⟨.vec, r.toNat, 1, false⟩
/-- Reads a uniform register. -/
def rdU (r : UReg) : Use := ⟨.uni, r.toNat, 3, false⟩
/-- Reads the low half of a uniform register. -/
def rdUlo (r : UReg) : Use := ⟨.uni, r.toNat, 1, false⟩
/-- Reads a uniform register at a width. -/
def rdUw (w : Nat) (r : UReg) : Use := ⟨.uni, r.toNat, if w = 64 then 3 else 1, false⟩
/-- Writes a uniform register. -/
def wrU (r : UReg) : Use := ⟨.uni, r.toNat, 0, true⟩
/-- Reads and writes a uniform register. -/
def rwU (r : UReg) : Use := ⟨.uni, r.toNat, 3, true⟩
/-- Names a tile. -/
def useM (t : TReg) : Use := ⟨.tile, t.toNat, 0, false⟩
/-- Reads SC. -/
def rdSc : Use := ⟨.sc, 0, 1, false⟩
/-- Writes SC. -/
def wrSc : Use := ⟨.sc, 0, 0, true⟩

/-- Register number and kind as TADDR codes them (R186). -/
def regCode : RegKind → Nat → Nat
  | .vec, n => n
  | .uni, n => 256 + n
  | .tile, n => 512 + n
  | .sc, _ => 768

/-- Whether a register lies at or above the group's allocation (R46). -/
def Group.unallocated (g : Group) (u : Use) : Bool :=
  match u.kind with
  | .vec => decide (g.cx.nv ≤ u.num)
  | .uni => decide (g.cx.nu ≤ u.num)
  | .tile => decide (g.cx.nt ≤ u.num)
  | .sc => false

/-- Whether another instruction's result for a register is pending or not covered, whichever lanes it concerns (R186, R228; log 49). -/
def Group.pendingUse (g : Group) (clk iid : Nat) (own : Mask) (u : Use) : Bool :=
  (g.late.any fun l => l.kind = u.kind && (u.kind = .sc || l.num == u.num) && decide (clk < l.land) && l.iid != iid
      && (u.kind != .sc || (l.own &&& own) != 0))
  || g.uncov.any fun c => c.kind = u.kind && c.num == u.num && c.iid != iid

/-- The operand registers of a matrix operation that must not be written (R275). -/
def MOp.holds (o : MOp) (u : Use) : Bool :=
  match o with
  | .mma m => u.kind = .vec && ((m.va.toNat ≤ u.num && u.num ≤ m.va.toNat + 3) || (m.vb.toNat ≤ u.num && u.num ≤ m.vb.toNat + 3))
  | .oadd m _ _ => (u.kind = .vec && m.va.toNat ≤ u.num && u.num ≤ m.va.toNat + 3) || (u.kind = .uni && u.num == m.sb.toNat)
  | _ => false

/-- The columns that the entries of an outlier list name (R265). -/
def State.listCols (s : State) (blk list count : Nat) : List Nat :=
  ((List.range count).map fun i => (s.block blk).readN (list + 8 * i) 4 % 32).eraseDups

/-- The elements that an operation writes: tiles, rows and columns, and whether they are shadows. -/
def State.written (s : State) (e : MEntry) : List Nat × List Nat × List Nat × Bool :=
  let all := List.range 32
  match e.op with
  | .mma m => ([m.md.toNat], lanesOf e.exec, all, m.spec)
  | .oadd m list n => ([m.md.toNat], lanesOf e.exec, s.listCols (s.group e.gid).cx.blk list n, m.spec)
  | .spec _ ts => (ts, all, all, true)
  | .commit ts => (ts, all, all, false)
  | .drop _ => ([], [], [], false)

/-- Elements of tiles, undefined (R9, R275; log 5). -/
def freeElems (tick : Nat) (ts rows cols : List Nat) (m : Tab (BitVec 32)) : Tab (BitVec 32) :=
  ts.foldl (fun m t => rows.foldl (fun m i => cols.foldl (fun m j =>
    m.setD 0 (mkey t i j) ((Config.freeWord tick (freeKey .tile t) (32 * i + j)).setWidth 32)) m) m) m

/-- The elements that an operation writes become undefined (R275). -/
def State.freeWritten (s : State) (e : MEntry) : State :=
  let (ts, rows, cols, shadow) := s.written e
  s.modGroup e.gid fun g =>
    if shadow then { g with shadow := freeElems s.tick ts rows cols g.shadow } else { g with m := freeElems s.tick ts rows cols g.m }

/-- Every element that an operation writes is undefined (R275): now if it has completed, at its completion otherwise. -/
def State.taint (s : State) (n : Nat) (e : MEntry) : State :=
  let c := s.curCore
  if (s.core c).engine.any fun p => p.1 == n then
    s.modCore c fun k => { k with engine := k.engine.map fun p => if p.1 == n then (p.1, { p.2 with tainted := true }) else p }
  else s.freeWritten e

/-- The outstanding operations whose operand registers an issue writes (R275). -/
def State.operandHazards (s : State) (uses : List Use) : List (Nat × MEntry × Use) :=
  s.grp.mops.flatMap fun p => (uses.filter fun u => u.wr && p.2.op.holds u).map fun u => (p.1, p.2, u)

/-- The first poisoned half that an issue reads for a lane of a mask: its register, half and kind (R67, R234). A
uniform half is read whatever EXEC is (R125; log 129). -/
def State.poisonHit (s : State) (lanes : Mask) (u : Use) : Option (Nat × Bool) :=
  let g := s.grp
  let hit (k : Nat) (t : Tab Bool) : Option (Nat × Bool) :=
    match (if u.rd % 2 = 1 then t.find? (2 * k) else none) with
    | some b => some (0, b)
    | none => (if 2 ≤ u.rd then t.find? (2 * k + 1) else none).map fun b => (1, b)
  match u.kind with
  | .vec => if g.vpois.isEmpty then none else (lanesOf lanes).findSome? fun i => hit (vkey u.num i) g.vpois
  | .uni => hit u.num g.upois
  | _ => none

/-- The lanes of a mask that read poison in a half of a register that an issue reads: every one for a uniform register (R67). -/
def State.poisonLanes (s : State) (lanes : Mask) (uses : List Use) : Mask :=
  maskOf fun i => lanes.getLsbD i && uses.any fun u => (s.poisonHit (1#32 <<< i) u).isSome

/-- The poison that an issue names: that of its first operand that holds poison, there the lowest lane, and there the low half first, with
its kind (log 102). -/
def State.firstPoison (s : State) (lanes : Mask) : List Use → Option (Use × Nat × Bool)
  | [] => none
  | u :: us => match s.poisonHit lanes u with
    | some (h, k) => some (u, h, k)
    | none => s.firstPoison lanes us

/-- The checks that every issue makes on the registers it names, before its meaning acts: allocation (R46), the scoreboard (R186, R228),
matrix operands (R275), poison (R67, R234). An issue that fails one writes nothing. With SBCHK = 0 a write of a matrix operand makes
the operation's elements undefined and goes on. A plane that has no active lane makes no decode check (R94). -/
def State.guarded (s : State) (lanes : Mask) (uses : List Use) (body : State → State) : State :=
  let g := s.grp
  if uses.any g.unallocated then
    if s.cur.mask = 0 ∧ !s.cur.uni then s else s.takeTrap 0x01 (BitVec.ofNat 64 s.cur.off) s.cur.mask
  else
    let pend := if g.sbchk then uses.find? (g.pendingUse s.now s.iid s.spl.owned) else none
    match pend with
    | some u => s.trapExec 0x0A (BitVec.ofNat 64 (regCode u.kind u.num))
    | none =>
      match s.operandHazards uses with
      | h :: hs =>
        if g.sbchk then s.takeTrap 0x0B (BitVec.ofNat 64 (regCode h.2.2.kind h.2.2.num)) s.cur.mask
        else
          let s := (h :: hs).foldl (fun s h => s.taint h.1 h.2.1) s
          poisonCheck s lanes uses body
      | [] => poisonCheck s lanes uses body
where
  poisonCheck (s : State) (lanes : Mask) (uses : List Use) (body : State → State) : State :=
    match s.firstPoison lanes uses with
    | some (u, h, k) =>
      s.takeTrap (if k then 0x16 else 0x0C) (BitVec.ofNat 64 (regCode u.kind u.num + 1024 * h)) (s.poisonLanes lanes uses)
    | none => body s

/-! ### Lane operands -/

/-- The lanes for which a lane arithmetic instruction executes: active and helper lanes of the plane (R66, R112). -/
def State.lanes (s : State) : Mask := s.cur.mask ||| s.cur.help

/-- A lane source B (R110): a vector register, or a uniform register whose low w bits serve every sub-element (R111). -/
def State.readB (s : State) (w : Nat) (b : VSrc) (lane : Nat) : Word :=
  match b with
  | .vec r => s.readV r.toNat lane
  | .uni r => let x := s.readU r.toNat; packElems w fun _ => elemAt w 0 x

/-- The whole 64 bits of a lane source B (R118). -/
def State.readBAll (s : State) (b : VSrc) (lane : Nat) : Word :=
  match b with
  | .vec r => s.readV r.toNat lane
  | .uni r => s.readU r.toNat

/-- The use of a lane source B at a width. -/
def useB (w : Nat) : VSrc → Use
  | .vec r => rdV r
  | .uni r => rdUw w r

/-- A lane instruction that writes vd in the active and helper lanes with a latency and raises no flag. -/
def State.laneOp (s : State) (d : VReg) (uses : List Use) (lat : Nat) (f : State → Nat → Word) : State :=
  s.guarded s.lanes uses fun s => s.writeV d.toNat s.lanes lat (f s)

/-- A lane instruction that writes vd in the active and helper lanes with a latency; active lanes may raise flags (R24, R25). -/
def State.laneFlagOp (s : State) (d : VReg) (uses : List Use) (lat : Nat) (f : State → Nat → Word × FpFlags) : State :=
  s.guarded s.lanes uses fun s => s.withFlags (fun i => (f s i).2) fun t => t.writeV d.toNat s.lanes lat fun i => (f s i).1

/-- Combines sub-elements of width w one by one, with the flags of each. -/
def packFlags (w : Nat) (f : Nat → Nat × FpFlags) : Word × FpFlags :=
  (packElems w fun j => (f j).1, (List.range (64 / w)).foldl (fun a j => a ||| (f j).2) 0)

/-! ### Uniform operands -/

/-- A uniform second source: a register, or its sign-extended immediate (R126). -/
def State.readS (s : State) : USrc → Word
  | .reg r => s.readU r.toNat
  | .imm k => k.signExtend 64

/-- The use of a uniform second source at a width. -/
def usesS (w : Nat) : USrc → List Use
  | .reg r => [rdUw w r]
  | .imm _ => []

/-- The result of a uniform instruction at width 32 or 64, extended to 64 bits (R126). -/
def extU (w : Nat) (signed : Bool) (v : Nat) : Word :=
  if w = 64 then BitVec.ofNat 64 v else if signed then BitVec.ofInt 64 (sext 32 v) else BitVec.ofNat 64 (v % 2 ^ 32)

/-- A uniform instruction that writes sd with a latency. -/
def State.uniOp (s : State) (d : UReg) (uses : List Use) (lat : Nat) (f : State → Word) : State :=
  s.guarded s.cur.mask uses fun s => s.writeU d.toNat (f s) lat

end Sys2Proof.Machine
end

