-- ==== Sys2Proof/Machine/LaneInt.lean ====
section
/-! DEFINITION. The lane integer and logic block and its short forms (spec/04_integer_and_uniform_instructions.md R110 to R124, R135). -/

namespace Sys2Proof.Machine

/-! ### Element rules -/

/-- The value of sub-element j of a register as the type reads it (R115). -/
def elemVal (e : Elem) (j : Nat) (x : Word) : Int := readInt e.isSigned e.w (elemAt e.w j x)

/-- Fit (R113): the sub-element written for an exact result, and OF where it clamps under SAT = 10. -/
def elemFit (e : Elem) (sat : Sat) (z : Int) : Nat × FpFlags :=
  let r := fit e.isSigned e.w sat z
  (r.1, flagIf (r.2 && sat = .flagged) fOF)

/-- The high half of a product (R115). -/
def mulHigh (w : Nat) (a b : Int) : Nat := wrapNat w ((a * b) / (2 ^ w : Nat))

/-- VSHL of a w-bit pattern (R116). -/
def shlElem (w a k : Nat) : Nat := if w ≤ k then 0 else (a * 2 ^ k) % 2 ^ w
/-- VSHR (R116). -/
def shrElem (w a k : Nat) : Nat := if w ≤ k then 0 else a / 2 ^ k
/-- VSRA (R116). -/
def sraElem (w a k : Nat) : Nat := wrapNat w (sext w a / ((2 ^ min k w : Nat) : Int))
/-- VROT (R116). -/
def rotElem (w a k : Nat) : Nat := (a * 2 ^ (k % w) + a / 2 ^ (w - k % w)) % 2 ^ w

/-- The offset and the effective width of a field that a control value names (R118). -/
def fieldOf (w : Nat) (q : Word) : Nat × Nat :=
  let o := wbits q 6 0
  (o, if w ≤ o then 0 else min (wbits q 14 8) (w - o))

/-- VBFX of a sub-element (R118). -/
def bfxElem (signed : Bool) (w a : Nat) (q : Word) : Nat :=
  let (o, m) := fieldOf w q
  if m = 0 then 0
  else
    let f := (a / 2 ^ o) % 2 ^ m
    if signed then wrapNat w (sext m f) else f

/-- VBFI of a sub-element (R118). -/
def bfiElem (w d a : Nat) (q : Word) : Nat :=
  let (o, m) := fieldOf w q
  d - ((d / 2 ^ o) % 2 ^ m) * 2 ^ o + (a % 2 ^ m) * 2 ^ o

/-- Whether an integer condition holds (R120). -/
def icondHolds (c : ICond) (a b : Int) : Bool :=
  match c with
  | .eq => a == b
  | .ne => a != b
  | .lt => decide (a < b)
  | .le => decide (a ≤ b)
  | .gt => decide (b < a)
  | .ge => decide (b ≤ a)

/-! ### Shapes -/

/-- A lane instruction that writes each sub-element from a rule on sub-element indices, with latency 4 (R135). -/
def State.laneMap (s : State) (d : VReg) (uses : List Use) (w : Nat) (f : State → Nat → Nat → Nat) : State :=
  s.laneOp d (uses ++ [wrV d]) 4 fun s i => packElems w (f s i)

/-- A lane instruction that writes Fit of an exact result into each sub-element (R113). -/
def State.laneFit (s : State) (d : VReg) (uses : List Use) (e : Elem) (f : State → Nat → Nat → Int) : State :=
  s.laneFlagOp d (uses ++ [wrV d]) 4 fun s i => packFlags e.w fun j => elemFit e s.cur.sat (f s i j)

/-- Two sources and Fit. -/
def State.fitBin (s : State) (d a : VReg) (b : VSrc) (e : Elem) (f : Int → Int → Int) : State :=
  s.laneFit d [rdV a, useB e.w b] e fun s i j => f (elemVal e j (s.readV a.toNat i)) (elemVal e j (s.readB e.w b i))

/-- Two sources and a rule on values that needs no Fit. -/
def State.valBin (s : State) (d a : VReg) (b : VSrc) (e : Elem) (f : Int → Int → Nat) : State :=
  s.laneMap d [rdV a, useB e.w b] e.w fun s i j => f (elemVal e j (s.readV a.toNat i)) (elemVal e j (s.readB e.w b i))

/-- Two sources and a rule on w-bit patterns. -/
def State.patBin (s : State) (d a : VReg) (b : VSrc) (w : Nat) (f : Nat → Nat → Nat) : State :=
  s.laneMap d [rdV a, useB w b] w fun s i j => f (elemAt w j (s.readV a.toNat i)) (elemAt w j (s.readB w b i))

/-- One source and a rule on w-bit patterns. -/
def State.patUn (s : State) (d a : VReg) (w : Nat) (f : Nat → Nat) : State :=
  s.laneMap d [rdV a] w fun s i j => f (elemAt w j (s.readV a.toNat i))

/-- A shift or rotate (R116). -/
def State.laneShift (s : State) (o : LaneShift) (f : Nat → Nat → Nat) : State :=
  let w := o.e.w
  match o.k with
  | .reg b => s.patBin o.d o.a b w f
  | .imm k => s.patUn o.d o.a w fun a => f a k.toNat

/-- The smaller or larger of two values (R115). -/
def minMaxElem (e : Elem) (isMax : Bool) (a b : Int) : Nat := wrapNat e.w (if isMax then max a b else min a b)

/-- A lane comparison's mask register after a plane issue (R120, R146): bits of lanes outside EXEC are 0, those of the issue mask hold its
results, and the others are kept. -/
def compareMask (old : Word) (exec m : Mask) (r : Nat → Bool) : Word :=
  ((maskLow old &&& exec &&& ~~~m) ||| (m &&& maskOf r)).setWidth 64

/-! ### Meanings -/

/-- VADD (R115). -/
def execVadd (o : LaneBin) (s : State) : Host.Outcome State Fault Refusal := .next (s.fitBin o.d o.a o.b o.e (· + ·))
/-- VSUB (R115). -/
def execVsub (o : LaneBin) (s : State) : Host.Outcome State Fault Refusal := .next (s.fitBin o.d o.a o.b o.e (· - ·))
/-- VMUL (R115). -/
def execVmul (o : LaneBin) (s : State) : Host.Outcome State Fault Refusal := .next (s.fitBin o.d o.a o.b o.e (· * ·))
/-- VMULH (R115). -/
def execVmulh (o : LaneBin) (s : State) : Host.Outcome State Fault Refusal := .next (s.valBin o.d o.a o.b o.e (mulHigh o.e.w))
/-- VMAD (R115). -/
def execVmad (o : LaneTri) (s : State) : Host.Outcome State Fault Refusal :=
  .next (s.laneFit o.d [rdV o.a, useB o.e.w o.b, rdV o.c] o.e fun s i j =>
    elemVal o.e j (s.readV o.a.toNat i) * elemVal o.e j (s.readB o.e.w o.b i) + elemVal o.e j (s.readV o.c.toNat i))
/-- VAND (R115). -/
def execVand (o : LaneBin) (s : State) : Host.Outcome State Fault Refusal := .next (s.patBin o.d o.a o.b o.e.w (· &&& ·))
/-- VOR (R115). -/
def execVor (o : LaneBin) (s : State) : Host.Outcome State Fault Refusal := .next (s.patBin o.d o.a o.b o.e.w (· ||| ·))
/-- VXOR (R115). -/
def execVxor (o : LaneBin) (s : State) : Host.Outcome State Fault Refusal := .next (s.patBin o.d o.a o.b o.e.w (· ^^^ ·))
/-- VNOT (R115). -/
def execVnot (o : LaneUn) (s : State) : Host.Outcome State Fault Refusal :=
  .next (s.patUn o.d o.a o.e.w fun a => 2 ^ o.e.w - 1 - a)
/-- VSHL (R116). -/
def execVshl (o : LaneShift) (s : State) : Host.Outcome State Fault Refusal := .next (s.laneShift o (shlElem o.e.w))
/-- VSHR (R116). -/
def execVshr (o : LaneShift) (s : State) : Host.Outcome State Fault Refusal := .next (s.laneShift o (shrElem o.e.w))
/-- VSRA (R116). -/
def execVsra (o : LaneShift) (s : State) : Host.Outcome State Fault Refusal := .next (s.laneShift o (sraElem o.e.w))
/-- VROT (R116). -/
def execVrot (o : LaneShift) (s : State) : Host.Outcome State Fault Refusal := .next (s.laneShift o (rotElem o.e.w))
/-- VMIN (R115). -/
def execVmin (o : LaneBin) (s : State) : Host.Outcome State Fault Refusal := .next (s.valBin o.d o.a o.b o.e (minMaxElem o.e false))
/-- VMAX (R115). -/
def execVmax (o : LaneBin) (s : State) : Host.Outcome State Fault Refusal := .next (s.valBin o.d o.a o.b o.e (minMaxElem o.e true))
/-- VABS (R115). -/
def execVabs (o : LaneUn) (s : State) : Host.Outcome State Fault Refusal :=
  .next (s.laneFit o.d [rdV o.a] o.e fun s i j => ((elemVal o.e j (s.readV o.a.toNat i)).natAbs : Int))
/-- VNEG (R115). -/
def execVneg (o : LaneUn) (s : State) : Host.Outcome State Fault Refusal :=
  .next (s.laneFit o.d [rdV o.a] o.e fun s i j => -(elemVal o.e j (s.readV o.a.toNat i)))
/-- VCLZ (R117). -/
def execVclz (o : LaneUn) (s : State) : Host.Outcome State Fault Refusal := .next (s.patUn o.d o.a o.e.w (clz o.e.w))
/-- VPOPC (R117). -/
def execVpopc (o : LaneUn) (s : State) : Host.Outcome State Fault Refusal := .next (s.patUn o.d o.a o.e.w (popcountNat o.e.w))
/-- VBREV (R117). -/
def execVbrev (o : LaneUn) (s : State) : Host.Outcome State Fault Refusal := .next (s.patUn o.d o.a o.e.w (bitRev o.e.w))
/-- VBFX (R118). -/
def execVbfx (o : LaneBin) (s : State) : Host.Outcome State Fault Refusal :=
  .next (s.laneMap o.d [rdV o.a, useB 64 o.b] o.e.w fun s i j =>
    bfxElem o.e.isSigned o.e.w (elemAt o.e.w j (s.readV o.a.toNat i)) (s.readBAll o.b i))
/-- VBFI (R118). -/
def execVbfi (o : LaneBin) (s : State) : Host.Outcome State Fault Refusal :=
  .next (s.laneMap o.d [rdV o.a, useB 64 o.b, rdV o.d] o.e.w fun s i j =>
    bfiElem o.e.w (elemAt o.e.w j (s.readV o.d.toNat i)) (elemAt o.e.w j (s.readV o.a.toNat i)) (s.readBAll o.b i))
/-- VSEL (R119). -/
def execVsel (o : LaneTri) (s : State) : Host.Outcome State Fault Refusal :=
  .next (s.laneOp o.d [rdV o.a, useB o.e.w o.b, rdV o.c, wrV o.d] 4 fun s i =>
    let c := s.readV o.c.toNat i
    (s.readV o.a.toNat i &&& c) ||| (s.readB o.e.w o.b i &&& ~~~c))
/-- VCMP (R120). -/
def execVcmp (o : LaneCmp) (s : State) : Host.Outcome State Fault Refusal :=
  .next (s.guarded s.lanes [rdV o.a, useB o.e.w o.b, wrU o.d] fun s =>
    let holds (i j : Nat) : Bool := icondHolds o.cond (elemVal o.e j (s.readV o.a.toNat i)) (elemVal o.e j (s.readB o.e.w o.b i))
    let lane (i : Nat) : Bool := if o.any then (List.range o.e.n).any (holds i) else (List.range o.e.n).all (holds i)
    s.writeUBits o.d.toNat (compareMask (s.grp.ureg o.d.toNat) s.spl.exec s.cur.mask lane) 4 (s.spl.exec &&& ~~~s.cur.mask == 0))
/-- VCMPV (R120). -/
def execVcmpv (o : LaneCmpV) (s : State) : Host.Outcome State Fault Refusal :=
  .next (s.valBin o.d o.a o.b o.e fun a b => if icondHolds o.cond a b then 2 ^ o.e.w - 1 else 0)

/-- Reads one half or both of a vector register, by the sub-element of width w that is read (R67). -/
def rdVsub (w j : Nat) (r : VReg) : Use := ⟨.vec, r.toNat, if w = 64 then 3 else if w * j < 32 then 1 else 2, false⟩
/-- Reads the halves of a vector register that keep a bit when sub-element j of width w is replaced. -/
def rdVkept (w j : Nat) (r : VReg) : Use := ⟨.vec, r.toNat, if w = 64 then 0 else if w = 32 then (if j = 0 then 2 else 1) else 3, false⟩

/-- VMOV (R121). -/
def execVmov (o : LaneMov) (s : State) : Host.Outcome State Fault Refusal :=
  let w := o.e.w
  .next (match o.mode with
    | .copy => s.laneOp o.d [rdV o.a, wrV o.d] 4 fun s i => s.readV o.a.toNat i
    | .ext j => s.laneOp o.d [rdVsub w j.toNat o.a, wrV o.d] 4 fun s i => wordOfInt (elemVal o.e j.toNat (s.readV o.a.toNat i))
    | .ins j => s.laneOp o.d [rdVsub w 0 o.a, rdVkept w j.toNat o.d, wrV o.d] 4 fun s i =>
        setElem w j.toNat (s.readV o.d.toNat i) (elemAt w 0 (s.readV o.a.toNat i)))
/-- Long VMOVS (R121). -/
def execVmovs (o : LaneMovS) (s : State) : Host.Outcome State Fault Refusal :=
  let w := o.e.w
  .next (match o.mode with
    | .copy => s.laneOp o.d [rdU o.b, wrV o.d] 4 fun s _ => s.readU o.b.toNat
    | .splat j =>
      s.laneOp o.d [⟨.uni, o.b.toNat, if w = 64 then 3 else if w * j.toNat < 32 then 1 else 2, false⟩, wrV o.d] 4 fun s _ =>
        packElems w fun _ => elemAt w j.toNat (s.readU o.b.toNat))
/-- VIDX (R122). -/
def execVidx (o : LaneIdx) (s : State) : Host.Outcome State Fault Refusal :=
  .next (s.laneMap o.d [] o.e.w fun _ i j => wrapNat o.e.w (sext 8 o.k.toNat + ((i * o.e.n + j : Nat) : Int)))
/-- VPACK (R123): T names the destination width. -/
def execVpack (o : LanePack) (s : State) : Host.Outcome State Fault Refusal :=
  let w := o.e.w
  let h := o.e.n / 2
  .next (s.laneFit o.d [rdV o.a, rdV o.b] o.e fun s i j =>
    if j < h then readInt o.e.isSigned (2 * w) (elemAt (2 * w) j (s.readV o.a.toNat i))
    else readInt o.e.isSigned (2 * w) (elemAt (2 * w) (j - h) (s.readV o.b.toNat i)))
/-- VUNPK (R123): the source sub-elements are half as wide and lie in one half of va. -/
def execVunpk (o : LaneUnX) (s : State) : Host.Outcome State Fault Refusal :=
  let w := o.e.w
  let v := w / 2
  .next (s.laneMap o.d [⟨.vec, o.a.toNat, if o.x then 2 else 1, false⟩] w fun s i j =>
    wrapNat w (readInt o.e.isSigned v (elemAt v ((if o.x then o.e.n else 0) + j) (s.readV o.a.toNat i))))

/-! ### Short forms (R124): type I32 -/

/-- Short VADD. -/
def execVaddShort (o : ShV) (s : State) : Host.Outcome State Fault Refusal := .next (s.fitBin o.d o.a (.vec o.b) .i32 (· + ·))
/-- Short VSUB. -/
def execVsubShort (o : ShV) (s : State) : Host.Outcome State Fault Refusal := .next (s.fitBin o.d o.a (.vec o.b) .i32 (· - ·))
/-- VADDI: the immediate is signed (R89). -/
def execVaddi (o : ShI) (s : State) : Host.Outcome State Fault Refusal :=
  .next (s.laneFit o.d [rdV o.a] .i32 fun s i j => elemVal .i32 j (s.readV o.a.toNat i) + sext 8 o.k.toNat)
/-- Short VMUL. -/
def execVmulShort (o : ShV) (s : State) : Host.Outcome State Fault Refusal := .next (s.fitBin o.d o.a (.vec o.b) .i32 (· * ·))
/-- Short VAND. -/
def execVandShort (o : ShV) (s : State) : Host.Outcome State Fault Refusal := .next (s.patBin o.d o.a (.vec o.b) 32 (· &&& ·))
/-- Short VOR. -/
def execVorShort (o : ShV) (s : State) : Host.Outcome State Fault Refusal := .next (s.patBin o.d o.a (.vec o.b) 32 (· ||| ·))
/-- Short VXOR. -/
def execVxorShort (o : ShV) (s : State) : Host.Outcome State Fault Refusal := .next (s.patBin o.d o.a (.vec o.b) 32 (· ^^^ ·))
/-- VSHLI: the immediate is unsigned (R89). -/
def execVshli (o : ShI) (s : State) : Host.Outcome State Fault Refusal := .next (s.patUn o.d o.a 32 fun a => shlElem 32 a o.k.toNat)
/-- VSHRI. -/
def execVshri (o : ShI) (s : State) : Host.Outcome State Fault Refusal := .next (s.patUn o.d o.a 32 fun a => shrElem 32 a o.k.toNat)
/-- VSRAI. -/
def execVsrai (o : ShI) (s : State) : Host.Outcome State Fault Refusal := .next (s.patUn o.d o.a 32 fun a => sraElem 32 a o.k.toNat)
/-- Short VMIN, signed. -/
def execVminShort (o : ShV) (s : State) : Host.Outcome State Fault Refusal :=
  .next (s.valBin o.d o.a (.vec o.b) .i32 (minMaxElem .i32 false))
/-- Short VMAX, signed. -/
def execVmaxShort (o : ShV) (s : State) : Host.Outcome State Fault Refusal :=
  .next (s.valBin o.d o.a (.vec o.b) .i32 (minMaxElem .i32 true))
/-- VADDS. -/
def execVadds (o : ShS) (s : State) : Host.Outcome State Fault Refusal := .next (s.fitBin o.d o.a (.uni o.b) .i32 (· + ·))
/-- VMULS. -/
def execVmuls (o : ShS) (s : State) : Host.Outcome State Fault Refusal := .next (s.fitBin o.d o.a (.uni o.b) .i32 (· * ·))
/-- Short VMOVS: copy mode. -/
def execVmovsShort (o : ShMovS) (s : State) : Host.Outcome State Fault Refusal :=
  .next (s.laneOp o.d [rdU o.b, wrV o.d] 4 fun s _ => s.readU o.b.toNat)

end Sys2Proof.Machine
end

