-- ==== Sys2Proof/Machine/LaneFp.lean ====
section
/-! DEFINITION. The lane floating-point and conversion block, FDOT and the short floating-point forms
(spec/05_float_crosslane_and_search_instructions.md R138 to R151, R165). -/

namespace Sys2Proof.Machine

/-! ### Element rules -/

/-- The format of an element type; types that name none are refused by the decoder. -/
def fmtOf (e : Elem) : Fmt := (Fmt.ofElem e).getD .f32

/-- An exact value and the flags it raised, rounded into a format (R26). -/
def roundVal (f : Fmt) (c : FpCtx) (v : Fv × FpFlags) : Nat × FpFlags :=
  let r := f.round c v.1
  (r.1, v.2 ||| r.2)

/-- FADD and FSUB of two codes (R142). -/
def faddElem (f : Fmt) (c : FpCtx) (sub : Bool) (a b : Nat) : Nat × FpFlags :=
  let y := f.read c.daz b
  roundVal f c ((f.read c.daz a).add c.rm (if sub then y.neg else y))
/-- FMUL of two codes. -/
def fmulElem (f : Fmt) (c : FpCtx) (a b : Nat) : Nat × FpFlags := roundVal f c ((f.read c.daz a).mul (f.read c.daz b))
/-- FFMA of three codes; NP negates the product. -/
def ffmaElem (f : Fmt) (c : FpCtx) (np : Bool) (a b z : Nat) : Nat × FpFlags :=
  let x := f.read c.daz a
  roundVal f c (Fv.fma c.rm (if np then x.neg else x) (f.read c.daz b) (f.read c.daz z))

/-- Whether a code ranks below another in FMIN and FMAX, where -0 ranks below +0 (R143). -/
def fpBelow (a b : Fv) : Bool :=
  match a, b with
  | .fin x, .fin y => if x.m = 0 ∧ y.m = 0 then x.neg && !y.neg else (a.cmp b).2.1
  | _, _ => (a.cmp b).2.1

/-- A chosen operand's code, or a zero of its sign when DAZ read it as zero (R143). -/
def chosen (f : Fmt) (daz : Bool) (x : Nat) : Nat := f.leaf daz x

/-- FMIN and FMAX (R143). -/
def fminmaxElem (f : Fmt) (daz isMax : Bool) (a b : Nat) : Nat × FpFlags :=
  let x := f.read daz a
  let y := f.read daz b
  let fl := flagIf (x.isSig || y.isSig) fNV
  if x.isNan && y.isNan then (f.nanCode, fl)
  else if x.isNan then (chosen f daz b, fl)
  else if y.isNan then (chosen f daz a, fl)
  else (chosen f daz (if isMax then (if fpBelow x y then b else a) else (if fpBelow y x then b else a)), fl)

/-- Whether a floating-point condition holds, and whether it raises invalid (R146). -/
def fcondHolds (c : FCond) (a b : Fv) : Bool × FpFlags :=
  let (un, lt, eq) := a.cmp b
  let sig := flagIf (a.isSig || b.isSig) fNV
  let any := flagIf un fNV
  match c with
  | .eq => (!un && eq, sig)
  | .ne => (un || !eq, sig)
  | .lt => (!un && lt, any)
  | .le => (!un && (lt || eq), any)
  | .gt => (!un && !(lt || eq), any)
  | .ge => (!un && !lt, any)
  | .un => (un, sig)
  | .ord => (!un, sig)

/-- FCLASS of a code (R144). -/
def fclassElem (f : Fmt) (x : Nat) : Nat :=
  let neg := x.testBit (f.w - 1)
  match f.decode x with
  | .nan s => if s then 1 else 2
  | .inf n => if n then 2 ^ 2 else 2 ^ 9
  | .fin d =>
    if d.m = 0 then (if neg then 2 ^ 5 else 2 ^ 6)
    else if f.isSub x then (if neg then 2 ^ 4 else 2 ^ 7)
    else (if neg then 2 ^ 3 else 2 ^ 8)

/-- FSCALE: a * 2^k (R142). -/
def fscaleElem (f : Fmt) (c : FpCtx) (a : Nat) (k : Int) : Nat × FpFlags :=
  match f.read c.daz a with
  | .nan s => (f.nanCode, flagIf s fNV)
  | .fin d => f.round c (.fin ⟨d.neg, d.m, if d.m = 0 then d.e else d.e + k⟩)
  | .inf n => f.round c (.inf n)

/-- The integer that a finite value rounds to (R145, R149), and whether it differs. -/
def roundInt (rm : Rm) (d : Dy) : Dy × Bool := d.roundAt rm 0

/-- FRND (R145): a zero keeps its sign, and inexact is raised only with X. -/
def frndElem (f : Fmt) (c : FpCtx) (x : Bool) (a : Nat) : Nat × FpFlags :=
  match f.read c.daz a with
  | .nan s => (f.nanCode, flagIf s fNV)
  | .inf n => (f.signed n f.infCode, 0)
  | .fin d =>
    let (r, lost) := roundInt c.rm d
    (f.encode r, flagIf (x && lost) fNX)

/-- FCVT of a code (R149): a widening result is exact, even subnormal. -/
def fcvtElem (dst src : Fmt) (c : FpCtx) (a : Nat) : Nat × FpFlags :=
  match src.read c.daz a with
  | .nan s => (dst.nanCode, flagIf s fNV)
  | v => if src.w < dst.w then dst.round { c with ftz := false } v else dst.round c v

/-- ICVT of an integer pattern (R149). -/
def icvtElem (dst : Fmt) (src : Elem) (c : FpCtx) (a : Nat) : Nat × FpFlags :=
  let v := readInt src.isSigned src.w a
  dst.round c (.fin ⟨v < 0, v.natAbs, 0⟩)

/-- FTOI of a code (R149): NaN gives 0, and a value out of range the nearest bound. -/
def ftoiElem (dst : Elem) (src : Fmt) (c : FpCtx) (x : Bool) (a : Nat) : Nat × FpFlags :=
  let w := dst.w
  let bad := fNV ||| flagIf (c.sat = .flagged) fOF
  let hi : Int := if dst.isSigned then (2 ^ (w - 1) : Nat) - 1 else (2 ^ w : Nat) - 1
  let lo : Int := if dst.isSigned then -((2 ^ (w - 1) : Nat) : Int) else 0
  match src.read c.daz a with
  | .nan _ => (0, bad)
  | .inf n => (wrapNat w (if n then lo else hi), bad)
  | .fin d =>
    let (r, lost) := roundInt c.rm d
    let v := r.intAt 0
    if hi < v then (wrapNat w hi, bad)
    else if v < lo then (wrapNat w lo, bad)
    else (wrapNat w v, flagIf (x && lost) fNX)

/-! ### Shapes -/

/-- The result latency of block 0x040 (R165): 5, or 8 with an F64 source or result, counted from the second of its two cycles. -/
def fpLat (wide : Bool) : Nat := if wide then 9 else 5

/-- A lane floating-point instruction that writes each sub-element and raises flags (R140). -/
def State.fpMap (s : State) (d : VReg) (uses : List Use) (e : Elem) (lat : Nat) (f : State → Nat → Nat → Nat × FpFlags) : State :=
  s.laneFlagOp d (uses ++ [wrV d]) lat fun s i => packFlags e.w (f s i)

/-- Two floating-point sources. -/
def State.fpBin (s : State) (d a : VReg) (b : VSrc) (e : Elem) (f : FpCtx → Nat → Nat → Nat × FpFlags) : State :=
  s.fpMap d [rdV a, useB e.w b] e (fpLat (e == .f64)) fun s i j => f s.fpCtx (elemAt e.w j (s.readV a.toNat i)) (elemAt e.w j (s.readB e.w b i))

/-- One floating-point source. -/
def State.fpUn (s : State) (d a : VReg) (e : Elem) (f : FpCtx → Nat → Nat × FpFlags) : State :=
  s.fpMap d [rdV a] e (fpLat (e == .f64)) fun s i j => f s.fpCtx (elemAt e.w j (s.readV a.toNat i))

/-- Three floating-point sources. -/
def State.fpTri (s : State) (d a : VReg) (b : VSrc) (c : VReg) (e : Elem) (f : FpCtx → Nat → Nat → Nat → Nat × FpFlags) : State :=
  s.fpMap d [rdV a, useB e.w b, rdV c] e (fpLat (e == .f64)) fun s i j =>
    f s.fpCtx (elemAt e.w j (s.readV a.toNat i)) (elemAt e.w j (s.readB e.w b i)) (elemAt e.w j (s.readV c.toNat i))

/-! ### Meanings -/

/-- FADD (R142). -/
def execFadd (o : LaneBin) (s : State) : Host.Outcome State Fault Refusal :=
  .next (s.fpBin o.d o.a o.b o.e fun c => faddElem (fmtOf o.e) c false)
/-- FSUB (R142). -/
def execFsub (o : LaneBin) (s : State) : Host.Outcome State Fault Refusal :=
  .next (s.fpBin o.d o.a o.b o.e fun c => faddElem (fmtOf o.e) c true)
/-- FMUL (R142). -/
def execFmul (o : LaneBin) (s : State) : Host.Outcome State Fault Refusal := .next (s.fpBin o.d o.a o.b o.e (fmulElem (fmtOf o.e)))
/-- FFMA (R142). -/
def execFfma (o : LaneTriX) (s : State) : Host.Outcome State Fault Refusal :=
  .next (s.fpTri o.d o.a o.b o.c o.e fun c => ffmaElem (fmtOf o.e) c o.x)
/-- FMIN (R143). -/
def execFmin (o : LaneBin) (s : State) : Host.Outcome State Fault Refusal :=
  .next (s.fpBin o.d o.a o.b o.e fun c => fminmaxElem (fmtOf o.e) c.daz false)
/-- FMAX (R143). -/
def execFmax (o : LaneBin) (s : State) : Host.Outcome State Fault Refusal :=
  .next (s.fpBin o.d o.a o.b o.e fun c => fminmaxElem (fmtOf o.e) c.daz true)
/-- FABS (R144). -/
def execFabs (o : LaneUn) (s : State) : Host.Outcome State Fault Refusal :=
  .next (s.fpUn o.d o.a o.e fun _ x => (x % (fmtOf o.e).signBit, 0))
/-- FNEG (R144). -/
def execFneg (o : LaneUn) (s : State) : Host.Outcome State Fault Refusal :=
  .next (s.fpUn o.d o.a o.e fun _ x => (x ^^^ (fmtOf o.e).signBit, 0))
/-- FCMP (R146). -/
def execFcmp (o : LaneFCmp) (s : State) : Host.Outcome State Fault Refusal :=
  .next (s.guarded s.lanes [rdV o.a, useB o.e.w o.b, wrU o.d] fun s =>
    let f := fmtOf o.e
    let r (i j : Nat) : Bool × FpFlags :=
      fcondHolds o.cond (f.read s.fpCtx.daz (elemAt o.e.w j (s.readV o.a.toNat i))) (f.read s.fpCtx.daz (elemAt o.e.w j (s.readB o.e.w o.b i)))
    let js := List.range o.e.n
    s.withFlags (fun i => js.foldl (fun a j => a ||| (r i j).2) 0) fun t =>
      t.writeUBits o.d.toNat (compareMask (s.grp.ureg o.d.toNat) s.spl.exec s.cur.mask fun i =>
        if o.any then js.any fun j => (r i j).1 else js.all fun j => (r i j).1) (fpLat (o.e == .f64)) (s.spl.exec &&& ~~~s.cur.mask == 0))
/-- FCMPV (R146). -/
def execFcmpv (o : LaneFCmpV) (s : State) : Host.Outcome State Fault Refusal :=
  .next (s.fpBin o.d o.a o.b o.e fun c a b =>
    let f := fmtOf o.e
    let r := fcondHolds o.cond (f.read c.daz a) (f.read c.daz b)
    (if r.1 then 2 ^ o.e.w - 1 else 0, r.2))
/-- FCLASS (R144). -/
def execFclass (o : LaneUn) (s : State) : Host.Outcome State Fault Refusal :=
  .next (s.fpUn o.d o.a o.e fun _ x => (fclassElem (fmtOf o.e) x, 0))
/-- FSCALE (R142): the counts are integers of the same width. -/
def execFscale (o : LaneBin) (s : State) : Host.Outcome State Fault Refusal :=
  .next (s.fpBin o.d o.a o.b o.e fun c a k => fscaleElem (fmtOf o.e) c a (sext o.e.w k))
/-- FRND (R145). -/
def execFrnd (o : LaneUnX) (s : State) : Host.Outcome State Fault Refusal :=
  .next (s.fpUn o.d o.a o.e fun c x => frndElem (fmtOf o.e) c o.x x)

/-! ### Conversions (R147 to R149) -/

/-- The halves of vd that Pack keeps sub-elements in, of a narrowing to positions 2 q ns to 2 q ns + 2 ns - 1 (R67, R148). -/
def keptHalves (ws wd q : Nat) : Nat :=
  if ws ≤ wd then 0
  else
    let ns := 64 / ws
    let lo := 2 * q * ns * wd
    let hi := lo + 2 * ns * wd
    let half (h : Nat) : Bool := !(decide (lo ≤ 32 * h) && decide (32 * h + 32 ≤ hi))
    (if half 0 then 1 else 0) + (if half 1 then 2 else 0)

/-- The halves of va that a widening from sub-elements h nd to h nd + nd - 1 reads (R148). -/
def widenHalves (ws wd h : Nat) : Nat :=
  let nd := 64 / wd
  let lo := h * nd * ws
  let hi := lo + nd * ws
  (if lo < 32 then 1 else 0) + (if 32 < hi then 2 else 0)

/-- Pack (R148): where a destination sub-element comes from: 0 va, 1 vb, or 2 for one that keeps its value; and which source sub-element. -/
def packFrom (ws wd pos k : Nat) : Nat × Nat :=
  if wd < ws then
    let ns := 64 / ws
    let lo := 2 * pos * ns
    if k < lo then (2, 0) else if k < lo + ns then (0, k - lo) else if k < lo + 2 * ns then (1, k - lo - ns) else (2, 0)
  else if ws < wd then (0, pos * (64 / wd) + k)
  else (0, k)

/-- A conversion (R147, R148). -/
def State.convert (s : State) (o : LaneCvt) (conv : FpCtx → Nat → Nat × FpFlags) : State :=
  let ws := o.s.w
  let wd := o.e.w
  let pos := o.pos.toNat
  let uses := (if wd < ws then [rdV o.a, rdV o.b] else [⟨.vec, o.a.toNat, if ws < wd then widenHalves ws wd pos else 3, false⟩])
    ++ (if wd < ws then [⟨.vec, o.d.toNat, keptHalves ws wd pos, false⟩] else [])
  s.fpMap o.d uses o.e (fpLat (o.e == .f64 || o.s == .f64)) fun s i k =>
    match packFrom ws wd pos k with
    | (0, j) => conv s.fpCtx (elemAt ws j (s.readV o.a.toNat i))
    | (1, j) => conv s.fpCtx (elemAt ws j (s.readV o.b.toNat i))
    | _ => (elemAt wd k (s.readV o.d.toNat i), 0)

/-- FCVT. -/
def execFcvt (o : LaneCvt) (s : State) : Host.Outcome State Fault Refusal := .next (s.convert o (fcvtElem (fmtOf o.e) (fmtOf o.s)))
/-- ICVT. -/
def execIcvt (o : LaneCvt) (s : State) : Host.Outcome State Fault Refusal := .next (s.convert o (icvtElem (fmtOf o.e) o.s))
/-- FTOI. -/
def execFtoi (o : LaneCvt) (s : State) : Host.Outcome State Fault Refusal :=
  .next (s.convert o fun c => ftoiElem o.e (fmtOf o.s) c o.x)

/-- FDOT (R150): the whole of B is the second operand, and the form reads only the halves of vc that it uses. -/
def execFdot (o : LaneTriX) (s : State) : Host.Outcome State Fault Refusal :=
  .next (s.laneFlagOp o.d [rdV o.a, useB 64 o.b, ⟨.vec, o.c.toNat, if o.x then 3 else 1, false⟩, wrV o.d] 6 fun s i =>
    let f := fmtOf o.e
    let n := o.e.n
    let c := s.fpCtx
    let a := s.readV o.a.toNat i
    let b := s.readBAll o.b i
    let z := s.readV o.c.toNat i
    let sum (lo k h : Nat) : Nat × FpFlags :=
      windowSumF32 c ((List.range k).map fun j => (f.read c.daz (elemAt o.e.w (lo + j) a), f.read c.daz (elemAt o.e.w (lo + j) b)))
        (Fmt.f32.read c.daz (elemAt 32 h z))
    packFlags 32 fun h => if o.x then sum (h * (n / 2)) (n / 2) h else if h = 0 then sum 0 n 0 else (0, 0))

/-! ### Short forms (R151): type F32 -/

/-- Short FADD. -/
def execFaddShort (o : ShV) (s : State) : Host.Outcome State Fault Refusal :=
  .next (s.fpBin o.d o.a (.vec o.b) .f32 fun c => faddElem .f32 c false)
/-- Short FSUB. -/
def execFsubShort (o : ShV) (s : State) : Host.Outcome State Fault Refusal :=
  .next (s.fpBin o.d o.a (.vec o.b) .f32 fun c => faddElem .f32 c true)
/-- Short FMUL. -/
def execFmulShort (o : ShV) (s : State) : Host.Outcome State Fault Refusal := .next (s.fpBin o.d o.a (.vec o.b) .f32 (fmulElem .f32))
/-- FADDS. -/
def execFadds (o : ShS) (s : State) : Host.Outcome State Fault Refusal :=
  .next (s.fpBin o.d o.a (.uni o.b) .f32 fun c => faddElem .f32 c false)
/-- FMULS. -/
def execFmuls (o : ShS) (s : State) : Host.Outcome State Fault Refusal := .next (s.fpBin o.d o.a (.uni o.b) .f32 (fmulElem .f32))
/-- Short FMIN. -/
def execFminShort (o : ShV) (s : State) : Host.Outcome State Fault Refusal :=
  .next (s.fpBin o.d o.a (.vec o.b) .f32 fun c => fminmaxElem .f32 c.daz false)
/-- Short FMAX. -/
def execFmaxShort (o : ShV) (s : State) : Host.Outcome State Fault Refusal :=
  .next (s.fpBin o.d o.a (.vec o.b) .f32 fun c => fminmaxElem .f32 c.daz true)
/-- Short FFMA: VD is the third source. -/
def execFfmaShort (o : ShV) (s : State) : Host.Outcome State Fault Refusal :=
  .next (s.fpTri o.d o.a (.vec o.b) o.d .f32 fun c => ffmaElem .f32 c false)

end Sys2Proof.Machine
end

