-- ==== Sys2Proof/Machine/Access.lean ====
section
/-! DEFINITION. Memory accesses of groups: the checks of lanes, the record of an issue, the performance of its pieces, and the writing of
destinations (spec/08_core_memory_and_ladle.md R225 to R234; spec/11_die_memory_model_and_translation.md R310 to R316, R327;
spec/07_core_issue_pool_and_mailboxes.md R211, R212, R219; spec/10_cluster_and_casts.md R294 to R296;
spec/16_fabric_collectives_and_checkpoint.md R461). -/

namespace Sys2Proof.Machine

/-! ### Lane checks (R227) -/

/-- What the checks of a lane give: where it is performed, the cause of its trap, or a served fault. -/
inductive LaneRes where
  | pass (addr blk : Nat) (home device : Bool)
  | fail (cause : Nat)
  | served (reason page size : Nat)
  /-- The home slice has rejected the generation (R325), or the check must wait: another attempt. -/
  | again (rejected : Bool)
deriving DecidableEq, Repr, Inhabited

/-- A lane with the address that its instruction computed. -/
structure LaneChk where
  (lane : Nat) (va : Word) (res : LaneRes)
deriving DecidableEq, Repr, Inhabited

/-- Whether a page admits a plain access of a size (R316): a DEVICE register takes 8-byte loads and, where `devOk`, stores. -/
def pageOk (here : Nat) (a : AccessKind) (size : Nat) (devOk : Bool) (t : Tlb) : Bool :=
  kindAdmits t.kind (dieOfPa (t.frame % 2 ^ 44) == here) a && (t.kind != kDevice || (size == 8 && devOk))

/-- The checks of a lane of a global access (R227): bits [63:56], alignment, then translation. -/
def State.checkGlobal (s : State) (a : AccessKind) (size : Nat) (devOk : Bool) (va : Word) : State × LaneRes :=
  let g := s.grp
  let here := dieOfCore g.cx.core
  if 2 ^ 56 ≤ va.toNat then (s, .fail 0x10)
  else if va.toNat % size ≠ 0 then (s, .fail 0x13)
  else match s.translateWith g.cx.core g.cx.asid va.toNat a (pageOk here a size devOk) with
    | (s, .ok pa t) => (s, .pass (pa % 2 ^ 44) 0 (t.kind = kShared || t.kind = kMould) (t.kind = kDevice))
    | (s, .served r p n) => (s, .served r p n)
    | (s, .trap c) => (s, .fail c)
    | (s, .again r) => (s, .again r)

/-- The checks of the lanes of a mask, in ascending order. -/
def State.checkLanes (s : State) (m : Mask) (f : State → Nat → State × Word × LaneRes) : State × List LaneChk :=
  (lanesOf m).foldl (fun a i => let r := f a.1 i; (r.1, a.2 ++ [⟨i, r.2.1, r.2.2⟩])) (s, [])

/-- Whether the checks of a list of lanes are to be made again. -/
def retries (rejected : Bool) (l : List LaneChk) : Bool := l.any fun x => x.res = .again rejected

/-- Goes on with the checked lanes of a plane issue. Where a lane's check is to be made again, the split makes this plane issue in the next clk; a
lane that has been rejected 16 times in a row fails with GEN_RETRY_FAIL (R325). -/
def State.withChecks (s : State) (l : List LaneChk) (go : State → List LaneChk → State) : State :=
  if retries false l then (s.attemptLater s.cur.gid s.cur.ent false id).setFlow .stall
  else if retries true l && decide (s.spl.rejects + 1 < maxRejections) then (s.attemptLater s.cur.gid s.cur.ent true id).setFlow .stall
  else go s (l.map fun x => match x.res with | .again _ => { x with res := .fail 0x17 } | _ => x)

/-- The lanes that pass. -/
def passing (l : List LaneChk) : List (LaneChk × Nat × Nat × Bool × Bool) :=
  l.filterMap fun x => match x.res with | .pass a b h d => some (x, a, b, h, d) | _ => none

/-- The trap of an issue whose lanes failed: the lowest cause, the lanes that failed with it, and the address of the lowest of them. -/
def worstFail (l : List LaneChk) : Option (Nat × Mask × Word) :=
  let fs := l.filterMap fun x => match x.res with | .fail c => some (c, x.lane, x.va) | _ => none
  match fs with
  | [] => none
  | f :: rest =>
    let c := rest.foldl (fun m x => min m x.1) f.1
    let at_ := fs.filter fun x => x.1 == c
    some (c, at_.foldl (fun m x => m ||| laneBit x.2.1) 0, (at_.head?.map (·.2.2)).getD 0)

/-- Raises the trap of the lanes that failed, if any. -/
def State.trapFails (s : State) (l : List LaneChk) : State :=
  match worstFail l with
  | some (c, blame, va) => s.takeTrap c va blame
  | none => s

/-- Sends the served faults of lanes to the fault queue (R327, R332) and answers the entries. -/
def State.serveLanes (s : State) (acc : Nat) (l : List LaneChk) : State × Mask × List Nat :=
  let d := s.curDie
  let asid := s.grp.cx.asid
  l.foldl (fun (a : State × Mask × List Nat) x => match x.res with
    | .served r p n =>
      let (t, e) := a.1.appendFault d asid x.va.toNat p n r acc
      (t, a.2.1 ||| laneBit x.lane, a.2.2 ++ e.toList.filter fun k => !a.2.2.contains k)
    | _ => a) (s, 0, [])

/-- Adds the lanes with served faults to the set F of the issue (R329). -/
def State.noteServed (s : State) (acc : Nat) (l : List LaneChk) : State :=
  let (s, m, es) := s.serveLanes acc l
  let vas (t : Tab Word) : Tab Word := l.foldl (fun t x => if m.getLsbD x.lane then t.insert x.lane x.va else t) t
  if m = 0 then s else s.modCur fun c => { c with fset := c.fset ||| m, fent := c.fent ++ es, fva := vas c.fva }

/-- A served fault of a uniform access makes its whole split FAULTED (R131, R329). -/
def State.faultSplit (s : State) (acc : Nat) (l : List LaneChk) : State :=
  let (s, _, es) := s.serveLanes acc l
  ((s.modSpl fun p => { p with
      st := .faulted p.exec es (p.since.getD s.uid) false p.held ((l.head?.map (·.va)).getD 0)
      owes := l.map fun x => x.va.toNat / 8 }).bump).setFlow .stall

/-! ### Extension and width -/

/-- The bytes of an access at a width. -/
def bytesOfWidth : Width → Nat
  | .w8 => 1 | .w16 => 2 | .w32 => 4 | .w64 => 8

/-- Loaded bytes extended to 64 bits (R230). -/
def extLoad (size : Nat) (zext : Bool) (v : Nat) : Word :=
  if size = 8 ∨ zext then BitVec.ofNat 64 (v % 2 ^ (8 * size)) else BitVec.ofInt 64 (sext (8 * size) v)

/-! ### Phase barriers (R218, R219) -/

/-- One update of a phase barrier word: ARRIVED grows by c and PENDING by b; a phase completes when the count and the bytes allow it. -/
def phaseUpdate (w : Word) (c : Nat) (b : Int) : Word :=
  let expected := wbits w 15 0
  let arrived := (wbits w 31 16 + c) % 2 ^ 16
  let pending := wrapNat 31 (sext 31 (wbits w 63 33) + b)
  let phase := wbits w 32 32
  let done := expected ≠ 0 ∧ expected ≤ arrived ∧ pending = 0
  BitVec.ofNat 64 (pending * 2 ^ 33 + (if done then 1 - phase else phase) * 2 ^ 32 + (if done then arrived - expected else arrived) * 2 ^ 16 + expected)

/-- One update of the phase barrier at an address of a block's scratchpad; a completed phase is a wake reason of the block's core (R210, R219). A
poisoned word stays as it is (R221, R234; log 124). -/
def State.updatePhase (s : State) (blk addr c : Nat) (b : Int) : State :=
  let old := BitVec.ofNat 64 ((s.block blk).readN addr 8)
  let new := phaseUpdate old c b
  let x := (s.block blk).poisoned addr 8
  let s := if x then s else s.modBlock blk fun x => x.writeBytes addr (bytesOf 8 new.toNat)
  if !x && wbits new 32 32 != wbits old 32 32 then s.wake (s.block blk).core whyBarrier else s

/-! ### Atomic operations (R233) -/

/-- The new value of an atomic's word. -/
def atomResult (op : AtomOp) (uns : Bool) (size : Nat) (cx : FpCtx) (old b : Nat) : Nat :=
  let w := 8 * size
  let v (x : Nat) : Int := readInt (!uns) w x
  match op with
  | .add => (old + b) % 2 ^ w
  | .min => if v b < v old then b else old
  | .max => if v old < v b then b else old
  | .and => old &&& b
  | .or => old ||| b
  | .xor => old ^^^ b
  | .xchg => b
  | .inc => if b ≤ old then 0 else old + 1
  | .fadd =>
    let f : Fmt := if size = 8 then .f64 else .f32
    (roundVal f cx ((f.read cx.daz old).add cx.rm (f.read cx.daz b))).1

/-! ### The record of an issue -/

/-- Whether an access counts in LCNT (R228): a look at a phase and a CRRD do not (R407). -/
def Acc.counts (a : Acc) : Bool := a.dst != .none && a.dst != .phase && a.dst != .crucible

/-- Records an issue of accesses under a fresh name; loads and atomics count in LCNT (R228) and leave their destinations uncovered. A
destination that is itself pending or not covered will be undefined (R186, R228; log 5). -/
def State.addAcc (s : State) (a : Acc) : State :=
  let n := s.uid
  let a := { a with since := s.spl.since.getD n }
  let g := s.grp
  let late (k : RegKind) (num lane : Nat) : Bool :=
    if k = .tile then (List.range 32).any fun j => (g.lateOf s.now s.iid k num (32 * lane + j)).isSome else (g.lateOf s.now s.iid k num lane).isSome
  let mk (k : RegKind) (num lane : Nat) : Uncov := ⟨k, num, lane, n, g.uncovered s.iid k num lane || late k num lane, s.iid⟩
  let unc : List Uncov := (match a.dst with
    | .none | .phase | .crucible => []
    | .vec => a.pieces.map fun p => mk .vec p.dst p.lane
    | .uni => a.pieces.map fun p => mk .uni p.dst 0
    | .tile => (a.pieces.filter fun p => p.dst % 32 == 0).map fun p => mk .tile (p.dst / 1024) p.lane)
    ++ (match a.ldf with | some (r, _) => [mk .uni r 0] | none => [])
  (s.modGrp fun g => { g with
    accs := g.accs.insert n a
    lcnt := if a.counts then g.lcnt + 1 else g.lcnt
    uncov := unc.foldl (fun l u => l.map fun o =>
      if o.kind = u.kind && o.num == u.num && o.lane == u.lane && o.iid != s.iid then { o with clobbered := true } else o) g.uncov ++ unc }).bump

/-- Runs an issue that counts in LCNT, or holds its split at it while the count would rise above 127 (R228). -/
def State.counted (s : State) (body : State → State) : State :=
  if s.grp.lcnt + 1 ≤ 127 then body s else s.waitFor .loadSlot

/-- Folds an access into the digest when DGEN is set (R461): the fold is made at the issue that performs the lane (log 30). -/
def State.fold (s : State) (a d : Word) : State :=
  if s.grp.dgen then s.modGrp fun g => { g with dgst := g.dgst + mix64 (a ^^^ rotL64 d 17) } else s

/-! ### Performing a piece -/

/-- Whether two accesses overlap. -/
def piecesOverlap (sp sp' : Space) (n n' : Nat) (p p' : Piece) : Bool :=
  let scr (x : Space) : Bool := x = .scratch || x = .window
  scr sp == scr sp' && p.blk == p'.blk && decide (p.addr < p'.addr + n') && decide (p'.addr < p.addr + n)

/-- Whether a piece is still to be performed. -/
def Piece.pending (p : Piece) : Bool := p.st = .sent

/-- Whether an order field has acquire. -/
def ordAcq : Order → Bool | .acq | .acqrel => true | _ => false
/-- Whether an order field has release. -/
def ordRel : Order → Bool | .rel | .acqrel => true | _ => false

/-- Whether every piece of an access has its value. -/
def Acc.ready (a : Acc) : Bool := a.pieces.all fun p => match p.st with | .ready .. => true | _ => false

/-- Whether an access only reads. -/
def AccKind.isLoad : AccKind → Bool
  | .load | .crucible .. => true
  | _ => false

/-- Whether an access of a group has pieces not performed; a look at a phase is no access that others wait for. -/
def Acc.pending (a : Acc) : Bool := a.dst != .phase && a.pieces.any (·.pending)

/-- Whether a split owes accesses that stand before a stamp: those of lanes whose fault is not resolved, or that are still to retry (R330). -/
def Split.owesBefore (p : Split) (stamp : Nat) : Bool :=
  p.since.any (fun t => decide (t < stamp)) || (match p.st with
    | .faulted _ _ t fetch .. => !fetch && decide (t < stamp)
    | _ => false)

/-- Whether accesses of splits of a group that have faulted stand before a stamp (R330). -/
def Group.faultedBefore (g : Group) (stamp : Nat) : Bool := g.splits.any fun p => p.2.owesBefore stamp

/-- Whether an access must wait for an earlier one of its group (R229, R311, R312): an acquire, a same byte, or anything when it is a
release; DEVICE accesses keep issue order (R316). -/
def holdsBefore (a : Acc) (p : Piece) (b : Acc) : Bool :=
  (ordAcq b.order && (b.pending || b.dst != .none && b.pieces.any fun q => match q.st with | .ready .. => false | _ => true))
  || (ordRel a.order && b.pending)
  || (p.dev && b.pieces.any fun q => q.dev && q.pending)
  || b.pieces.any fun q => q.pending && piecesOverlap a.space b.space a.size b.size p q

/-- Whether access b of a group, named m, stands before access a, named n, in issue order; the accesses of a retry keep the place of the first
issue (R229, R330). -/
def Acc.before (b : Acc) (m : Nat) (a : Acc) (n : Nat) : Bool := decide (b.since < a.since) || (b.since == a.since && decide (m < n))

/-- Whether a piece is served at the banks of its own core (R211): in a scratchpad, not by a message (R294). -/
def Piece.banked (p : Piece) (own : Nat) (sp : Space) : Bool := sp != .mem && p.blk == own

/-- The pieces of an issue that are served together with piece j: at a bank those of lanes that touch the same word (R211), and of an atomic those that
name the same word (R229, R296). -/
def together (own : Nat) (a : Acc) (j : Nat) : List Nat :=
  match a.pieces[j]? with
  | none => [j]
  | some p =>
    let banked := p.banked own a.space
    let atomic := match a.kind with | .atom .. => true | _ => false
    if banked || atomic then
      (List.range a.pieces.length).filter fun k => (a.pieces[k]?).any fun q =>
        q.pending && q.blk == p.blk && (if banked then q.addr / 8 == p.addr / 8 else q.addr == p.addr)
    else [j]

/-- Whether a piece of access n of a group must wait for another access of the group, or for its memory. -/
def State.pieceHeld (s : State) (g : Group) (n : Nat) (a : Acc) (p : Piece) : Bool :=
  (g.accs.any fun b => b.2.before b.1 a n && holdsBefore a p b.2)
  || (ordRel a.order && g.faultedBefore a.since)
  || (a.space = .mem && g.splits.any fun q => q.2.owesBefore a.since && q.2.owes.contains (p.va / 8))
  || !(a.space = .scratch || a.space = .window || s.memReady p.addr)

/-- Whether piece j of access n of a group may be performed now: with those served together with it, after overlapping pieces of lower lanes (R229),
and, at a bank, once the words there of lower lanes have been served (R211). -/
def State.pieceReady (s : State) (g : Group) (n j : Nat) : Bool :=
  match g.accs.find? n with
  | none => false
  | some a => match a.pieces[j]? with
    | none => false
    | some p =>
      let ks := together g.cx.blk a j
      p.pending
      && ks.all (fun k => (a.pieces[k]?).all fun q => !s.pieceHeld g n a q)
      && !((a.pieces.take j).zipIdx.any fun q => q.1.pending && !ks.contains q.2 && piecesOverlap a.space a.space a.size a.size p q.1)
      && (!p.banked g.cx.blk a.space
        || (a.pieces.find? fun q => q.pending && q.blk == p.blk && q.addr / 8 % 64 == p.addr / 8 % 64).all fun q => q.addr / 8 == p.addr / 8)

/-- The level at which a piece is performed. -/
def pieceLevel (a : Acc) (p : Piece) : Level := if p.home then .home else levelOf a.scope

/-- The old value and poison of a piece's word where it is performed, and the state after the read. -/
def State.readPiece (s : State) (c : Nat) (a : Acc) (p : Piece) : State × Nat × Bool :=
  match a.space with
  | .scratch | .window => (s, (s.block p.blk).readN p.addr a.size, (s.block p.blk).poisoned p.addr a.size)
  | _ => s.loadAt c (pieceLevel a p) p.addr a.size

/-- Writes bytes where a piece is performed. -/
def State.writePiece (s : State) (c : Nat) (a : Acc) (p : Piece) (v : Nat) : State :=
  match a.space with
  | .scratch | .window => s.modBlock p.blk fun b => b.writeBytes p.addr (bytesOf a.size v)
  | _ => s.storeAt c (pieceLevel a p) p.addr (bytesOf a.size v)

/-- The effect of a piece at the place where it is performed, and the value that it returns. An atomic that meets a word poisoned since its
check leaves the word unchanged, and its destination is marked as a load's (R234; log 105). -/
def State.actPiece (s : State) (c : Nat) (a : Acc) (p : Piece) : State × Word × Bool :=
  match a.kind with
  | .load =>
    let (s, v, x) := s.readPiece c a p
    (s, extLoad a.size a.zext v, x)
  | .store => (s.writePiece c a p p.data.toNat, 0, false)
  | .atom op uns cx =>
    let (s, v, x) := s.readPiece c a p
    (if x then s else s.writePiece c a p (atomResult op uns a.size cx v (p.data.toNat % 2 ^ (8 * a.size))), BitVec.ofNat 64 v, x)
  | .crucible f cx =>
    let (s, v, x) := s.readPiece c a p
    (s, BitVec.ofNat 64 (crucibleRead (BitVec.ofNat 512 v) f cx).1, x)
  | .arrive n b =>
    let old := (s.block p.blk).readN p.addr 8
    (s.updatePhase p.blk p.addr n b, BitVec.ofNat 64 (bits old 32 32), (s.block p.blk).poisoned p.addr 8)

/-- What a piece's data holds once it has been performed: the flags of a crucible line's snapshot, as it now stands (R407). -/
def State.actData (s : State) (a : Acc) (p : Piece) : Word :=
  match a.kind with
  | .crucible f cx => (crucibleRead (BitVec.ofNat 512 (s.homeN p.addr a.size)) f cx).2.setWidth 64
  | _ => p.data

/-- An access without destination ends when its last piece is performed. -/
def Group.dropDone (g : Group) (n : Nat) : Group :=
  match g.accs.find? n with
  | some a => if a.dst = .none ∧ a.ldf.isNone ∧ a.ready then
      { g with accs := g.accs.erase n } else g
  | none => g

/-- The bytes of a table's bucket arrays and pool that a descriptor names: bases and lengths (R365). -/
def bucketRanges (d : List Word) : List (Nat × Nat) :=
  let w (k : Nat) : Nat := (d.getD k 0).toNat
  let lines := 2 ^ bits (w 0) 3 2
  let fam (o : Nat) : Nat × Nat := (bits (w (o + 1)) 55 0, bits (w (o + 2)) 29 24 * 2 ^ bits (w (o + 2)) 20 16 * lines * 64)
  [fam 6, (bits (w 4) 55 0, bits (w 5) 31 0 * 64)] ++ if bits (w 0) 1 0 = 1 then [fam 10] else []

/-- Whether two descriptors name a bucket array, or the pool of CHAIN, at one address. -/
def sharesArrays (d e : List Word) : Bool :=
  let w (d : List Word) (k : Nat) : Nat := (d.getD k 0).toNat
  let at_ (d : List Word) : List Nat := [bits (w d 7) 55 0] ++ (if bits (w d 0) 1 0 = 1 then [bits (w d 11) 55 0] else [])
    ++ if bits (w d 0) 5 4 = 3 then [bits (w d 4) 55 0] else []
  (at_ d).any (at_ e).contains

/-- The page of an address in an address space, as a die's tables map it: its base and size. -/
def State.pageAt (s : State) (d : Nat) (asid : BitVec 16) (va : Nat) : Nat × Nat :=
  match s.walk d (s.astEntry d asid.toNat) va with
  | .leaf _ _ sh => (va / 2 ^ sh * 2 ^ sh, 2 ^ sh)
  | _ => (va / 4096 * 4096, 4096)

/-- Whether a page of an address space from one virtual address to another lies on the frame of a physical address. -/
def State.frameIn (s : State) (d : Nat) (asid : BitVec 16) (pa stop : Nat) : Nat → Nat → Bool
  | 0, _ => false
  | fuel + 1, va =>
    if stop ≤ va then false
    else match s.walk d (s.astEntry d asid.toNat) va with
      | .leaf _ e sh => bits e 43 12 * 4096 / 2 ^ sh == pa / 2 ^ sh || s.frameIn d asid pa stop fuel (va / 2 ^ sh * 2 ^ sh + 2 ^ sh)
      | _ => s.frameIn d asid pa stop fuel (va / 4096 * 4096 + 4096)

/-- A program has written pages of a die that `hit` names by address space and descriptor: the buckets of the slots bound to them become undefined,
and what a slot that is not bound to them has held there is written over (R365, R375; log 106). -/
def State.spoilTables (s : State) (d : Nat) (hit : BitVec 16 → List Word → Bool) : State :=
  if (s.die d).slots.any fun p => p.2.bound || !p.2.stats.isEmpty then
    s.modDie d fun x => { x with slots := x.slots.map fun p =>
      let t := p.2
      (p.1, { t with undef := t.undef || (t.bound && hit t.asid t.desc)
                     stats := t.stats.filter fun k => (t.bound && sharesArrays t.desc k.desc) || !hit k.asid k.desc }) }
  else s

/-- A program has written memory at a virtual address: its page is written (R365; log 106). -/
def State.touchTables (s : State) (d : Nat) (asid : BitVec 16) (va : Nat) : State :=
  s.spoilTables d fun a desc =>
    let pg := s.pageAt d asid va
    a == asid && (bucketRanges desc).any fun r => decide (0 < r.2) && decide (r.1 < pg.1 + pg.2) && decide (pg.1 < r.1 + r.2)

/-- A program of another node has written memory at a physical address of a die. -/
def State.touchFrames (s : State) (d pa : Nat) : State :=
  s.spoilTables d fun a desc => (bucketRanges desc).any fun r => s.frameIn d a pa (r.1 + r.2) (r.2 / 4096 + 2) r.1

/-- Performs piece j of access n of a group where it is performed (R310 to R313): a release first writes back, an acquire then drops.
`wrap` says how the piece stands afterwards: ready, or served with its reply on the way. -/
def State.performAt (s : State) (gid n j : Nat) (remote : Bool) : State :=
  let g := s.group gid
  if !s.pieceReady g n j then s
  else match g.accs.find? n with
    | none => s
    | some a =>
      let c := g.cx.core
      let s := if ordRel a.order then s.releaseAt c a.scope else s
      let s := (together g.cx.blk a j).foldl (fun (s : State) k => match a.pieces[k]? with
        | none => s
        | some p =>
          let (s, v, x) := s.actPiece c a p
          let s := if a.space = .mem ∧ !a.kind.isLoad then s.touchTables (dieOfCore c) g.cx.asid p.va else s
          s.modGroup gid fun g => { g with accs := g.accs.modify n fun b =>
            { b with pieces := b.pieces.modify k fun q =>
              { q with data := s.actData a p, st := if remote && a.dst != .none then .served v x s.uid else .ready v x } } })
          (if remote then s.bump else s)
      let s := if ordAcq a.order then s.acquireAt c a.scope else s
      s.modGroup gid fun g => g.dropDone n

/-- Whether a piece travels as a message to another core's banks (R294). -/
def remotePiece (g : Group) (a : Acc) (p : Piece) : Bool := a.space = .window && p.blk != g.cx.blk

/-! ### Destinations (R228, R230) -/

/-- Writes a loaded value to a register in a lane, with memory poison on both halves where the word was poisoned (R234). -/
def Group.landV (g : Group) (r lane : Nat) (v : Word) (x : Bool) : Group :=
  let k := vkey r lane
  { g with v := g.v.setD 0 k v
           vpois := if x then (g.vpois.insert (2 * k) true).insert (2 * k + 1) true else (g.vpois.erase (2 * k)).erase (2 * k + 1) }
/-- Writes a loaded value to a uniform register. -/
def Group.landU (g : Group) (r : Nat) (v : Word) (x : Bool) : Group :=
  { g with u := g.u.setD 0 r v
           upois := if x then (g.upois.insert (2 * r) true).insert (2 * r + 1) true else (g.upois.erase (2 * r)).erase (2 * r + 1) }

/-- Writes a loaded word to two elements of a tile, from its element number on (R254, R269, R280). -/
def Group.landM (g : Group) (d : Nat) (v : Word) (x : Bool) : Group :=
  { g with m := (g.m.setD 0 d (v.setWidth 32)).setD 0 (d + 1) ((v >>> 32).setWidth 32)
           mpois := if x then (g.mpois.insert d true).insert (d + 1) true else (g.mpois.erase d).erase (d + 1) }

/-- Whether a write has made a load's destination undefined (R228). -/
def Group.wasClobbered (g : Group) (n : Nat) (k : RegKind) (num lane : Nat) : Bool :=
  g.uncov.any fun u => u.acc == n && u.kind = k && u.num == num && u.lane == lane && u.clobbered

/-- LDF's value in a lane: 0 where the lane failed or read poison (R230). -/
def ldfMask (failed : Mask) (ps : List Piece) : Mask :=
  ps.foldl (fun m p => match p.st with | .ready _ true => m ||| laneBit p.lane | _ => m) failed

/-- The completion of a load: destinations are written, LDF writes sb, and LCNT falls (R228, R230). -/
def State.completeLoad (s : State) (gid n : Nat) : State :=
  let g := s.group gid
  match g.accs.find? n with
  | none => s
  | some a =>
    if !a.ready || !a.counts then s
    else
      let isLdf := a.ldf.isSome
      let pick (g : Group) (k : RegKind) (num lane : Nat) (v : Word) : Word :=
        if g.wasClobbered n k num lane then Config.freeWord s.tick (freeKey k num + 4096) lane else v
      let g := a.pieces.foldl (fun (g : Group) p => match p.st with
        | .ready v x =>
          match a.dst with
          | .vec => g.landV p.dst p.lane (pick g .vec p.dst p.lane (if isLdf && x then 0 else v)) x
          | .uni => g.landU p.dst (pick g .uni p.dst 0 v) x
          | .tile =>
            let t := p.dst / 1024
            let free := g.wasClobbered n .tile t p.lane || p.data != 0
            g.landM p.dst (if free then Config.freeWord s.tick (freeKey .tile t + 4096) (p.dst % 1024) else v) x
          | .none | .phase | .crucible => g
        | _ => g) g
      let g := match a.ldf with
        | none => g
        | some (r, exec, m, failed) =>
          g.landU r (pick g .uni r 0 (((maskLow (g.ureg r) &&& exec &&& ~~~m) ||| (m &&& ldfMask failed a.pieces)).setWidth 64)) false
      let s := { s with groups := s.groups.insert gid { g with accs := g.accs.erase n, lcnt := g.lcnt - 1 } }
      if g.splits.any fun p => match p.2.st with | .waiting (.loads k) => g.lcnt - 1 ≤ k | _ => false then s.wake g.cx.core whyBatch else s

/-! ### Access records -/

/-- An access record of an issue. -/
def mkAcc (k : AccKind) (sp : Space) (size : Nat) (z : Bool) (o : Order) (sc : Scope) (d : AccDst) (ps : List Piece) : Acc :=
  { since := 0, kind := k, space := sp, size := size, zext := z, order := o, scope := sc, dst := d, ldf := none, pieces := ps }

/-- Records the pieces of an issue, if it has any or if it must report. -/
def State.addPieces (s : State) (a : Acc) : State := if a.pieces.isEmpty && a.ldf.isNone then s else s.addAcc a

end Sys2Proof.Machine
end

