-- ==== Sys2Proof/Machine/MemLane.lean ====
section
/-! DEFINITION. The lane loads, stores and atomics (spec/08_core_memory_and_ladle.md R225 to R234;
spec/10_cluster_and_casts.md R294) and the uniform ones (spec/04_integer_and_uniform_instructions.md R131). -/

namespace Sys2Proof.Machine

/-! ### Addresses and checks (R226, R227) -/

/-- g of a lane. -/
def State.globalAddr (s : State) (c : UReg) (a : VReg) (off : Int) (lane : Nat) : Word :=
  s.readU c.toNat + s.readV a.toNat lane + wordOfInt off

/-- p or w of a lane; with CHK the lane's word is an index of elements of `scale` bytes. -/
def State.scratchAddr (s : State) (c : UReg) (a : VReg) (scale : Nat) (off : Int) (lane : Nat) : Nat :=
  wrapNat 32 ((s.readU c.toNat).toNat % 2 ^ 32 + (s.readV a.toNat lane).toNat % 2 ^ 32 * scale + off)

/-- The checks of a scratchpad address of the own block. -/
def State.checkScratch (s : State) (size p : Nat) : LaneRes :=
  if p % size ≠ 0 then .fail 0x13
  else if s.blk.scrSize < p + size then .fail 0x14
  else .pass p s.grp.cx.blk false false

/-- The checks of a cast-window address. -/
def State.checkWindow (s : State) (size w : Nat) : LaneRes :=
  let cast := s.castOf s.grp.cx.cast
  let rank := bits w 22 20
  let off := bits w 19 0
  if w % size ≠ 0 then .fail 0x13
  else if bits w 31 23 ≠ 0 ∨ cast.size ≤ rank ∨ s.blk.scrSize < off + size then .fail 0x14
  else .pass off ((cast.blocks[rank]?).getD 0) false false

/-- An atomic's word that is poisoned fails its lane with MEM_POISON (R234). The check waits for the group's earlier accesses to the word (R229). -/
def State.checkPoison (s : State) (sp : Space) (sc : Scope) (size : Nat) (r : LaneRes) : LaneRes :=
  match r with
  | .pass addr blk home dev =>
    let a : Acc := { (default : Acc) with space := sp, size := size, scope := sc }
    let p : Piece := ⟨0, addr, blk, home, dev, 0, 0, .sent, 0, none⟩
    if s.grp.accs.any fun b => b.2.dst != .phase && b.2.pieces.any fun q => q.pending && piecesOverlap sp b.2.space size b.2.size p q then .again false
    else if (s.readPiece s.curCore a p).2.2 then .fail 0x16 else r
  | _ => r

/-! ### An issue -/

/-- A piece of a lane. -/
def mkPiece (lane addr blk : Nat) (home dev : Bool) (data : Word) (dst : Nat) : Piece := ⟨lane, addr, blk, home, dev, data, dst, .sent, 0, none⟩

/-- The issue of a lane access after its registers' checks (R227): every lane that passes is performed, and folded where the instruction is
one that the digest takes; then lanes with served faults are sent to service, and a trap is raised if a lane failed. -/
def State.issueLanes (s : State) (a : Acc) (ak : AccessKind) (chk : State → Nat → State × Word × LaneRes)
    (pieces : State → LaneChk → Nat → Nat → Bool → Bool → List Piece) (digest : State → LaneChk → State) : State :=
  let (s, l) := s.checkLanes s.cur.mask chk
  s.withChecks l fun s l =>
    let ps := (passing l).flatMap fun p => (pieces s p.1 p.2.1 p.2.2.1 p.2.2.2.1 p.2.2.2.2).map fun q => { q with va := p.1.va.toNat }
    let s := (passing l).foldl (fun s p => digest s p.1) s
    ((s.addPieces { a with pieces := ps }).noteServed ak.code l).trapFails l

/-- No fold. -/
def noDigest (s : State) (_ : LaneChk) : State := s

/-- The settings of an atomic's floating add: FPM alone (R233). -/
def State.atomCtx (s : State) : FpCtx := { rm := s.grp.rmode, sat := .off, ftz := s.grp.fpm.getLsbD 4, daz := s.grp.fpm.getLsbD 5 }

/-! ### Global memory -/

/-- LD. -/
def State.laneLoad (s : State) (o : MemAcc) : State :=
  let size := bytesOfWidth o.t
  s.counted fun s => s.guarded s.cur.mask [rdU o.c, rdV o.a, wrV o.d] fun s =>
    s.issueLanes (mkAcc .load .mem size o.x o.ord o.scope .vec []) .load
      (fun t i => let va := s.globalAddr o.c o.a (o.disp.toInt * size) i
                  let r := t.checkGlobal .load size true va
                  (r.1, va, r.2))
      (fun _ x addr blk home dev => [mkPiece x.lane addr blk home dev 0 o.d.toNat]) noDigest

/-- ST. -/
def State.laneStore (s : State) (o : MemAcc) : State :=
  let size := bytesOfWidth o.t
  let data : Use := if size = 8 then rdV o.d else rdVlo o.d
  s.guarded s.cur.mask [rdU o.c, rdV o.a, data] fun s =>
    let val (i : Nat) : Word := BitVec.ofNat 64 ((s.readV o.d.toNat i).toNat % 2 ^ (8 * size))
    s.issueLanes (mkAcc .store .mem size false o.ord o.scope .none []) .store
      (fun t i => let va := s.globalAddr o.c o.a (o.disp.toInt * size) i
                  let r := t.checkGlobal .store size true va
                  (r.1, va, r.2))
      (fun _ x addr blk home dev => [mkPiece x.lane addr blk home dev (val x.lane) 0])
      fun t x => t.fold x.va (val x.lane)

/-- ATOM. -/
def State.laneAtom (s : State) (o : LaneAtom) : State :=
  let size := if o.wide then 8 else 4
  let opnd : Use := if o.wide then rdV o.b else rdVlo o.b
  s.counted fun s => s.guarded s.cur.mask [rdU o.c, rdV o.a, opnd, wrV o.d] fun s =>
    let val (i : Nat) : Word := BitVec.ofNat 64 ((s.readV o.b.toNat i).toNat % 2 ^ (8 * size))
    s.issueLanes (mkAcc (.atom o.op o.x s.atomCtx) .mem size true o.ord o.scope .vec []) .atomic
      (fun t i => let va := s.globalAddr o.c o.a (o.disp.toInt * size) i
                  let r := t.checkGlobal .atomic size false va
                  (r.1, va, r.1.checkPoison .mem o.scope size r.2))
      (fun _ x addr blk home dev => [mkPiece x.lane addr blk home dev (val x.lane) o.d.toNat])
      fun t x => t.fold x.va (val x.lane)

/-- LDF: a lane that fails, but for its alignment, writes zero and sets its bit in sb (R230). -/
def State.laneFaultLoad (s : State) (o : FaultLd) : State :=
  let size := bytesOfWidth o.t
  s.counted fun s => s.guarded s.cur.mask [rdU o.c, rdV o.a, wrV o.d, rdUlo o.b, wrU o.b] fun s =>
    let (s, l) := s.checkLanes s.cur.mask fun t i =>
      let va := s.globalAddr o.c o.a (o.disp.toInt * size) i
      let r := t.checkGlobal .load size false va
      (r.1, va, r.2)
    s.withChecks l fun s l =>
      let quiet (x : LaneChk) : Bool := match x.res with | .pass .. => false | .fail c => c != 0x13 | _ => true
      let ps := l.filterMap fun x => match x.res with
        | .pass addr blk home dev => some { mkPiece x.lane addr blk home dev 0 o.d.toNat with va := x.va.toNat }
        | _ => if quiet x then some { mkPiece x.lane 0 0 false false 0 o.d.toNat with st := .ready 0 false } else none
      let failed := maskOf fun i => l.any fun x => x.lane == i && (match x.res with | .pass .. => false | _ => true)
      let a := mkAcc .load .mem size o.x .none .grp .vec ps
      (s.addPieces { a with ldf := some (o.b.toNat, s.spl.exec, s.cur.mask, failed) }).trapFails (l.filter fun x => !quiet x)

/-! ### Scratchpad and cast window -/

/-- Where a scratchpad or window instruction goes: its checks, space, scope and the tag of its address in the digest. -/
structure ScrSpace where
  (space : Space) (scope : Scope) (check : State → Nat → Nat → LaneRes) (tag : Word)

/-- The own scratchpad (R231, R313, R461). -/
def scrOwn : ScrSpace := ⟨.scratch, .blk, State.checkScratch, 0x8000000000000000⟩
/-- The cast window. -/
def scrCast : ScrSpace := ⟨.window, .cast, State.checkWindow, 0x4000000000000000⟩

/-- The next register of a pair. -/
def nextV (r : VReg) : VReg := r + 1

/-- A scratchpad or window load at addresses that its instruction computes (R231). -/
def State.scrLoad (s : State) (k : ScrSpace) (uses : List Use) (d : VReg) (size : Nat) (pair zext : Bool) (ord : Order) (addr : State → Nat → Nat) : State :=
  s.counted fun s => s.guarded s.cur.mask (uses ++ [wrV d] ++ if pair then [wrV (nextV d)] else []) fun s =>
    s.issueLanes (mkAcc .load k.space size zext ord k.scope .vec []) .load
      (fun t i => (t, BitVec.ofNat 64 (addr s i), k.check t (if pair then 16 else size) (addr s i)))
      (fun _ x p blk _ _ => mkPiece x.lane p blk false false 0 d.toNat ::
        if pair then [mkPiece x.lane (p + 8) blk false false 0 (nextV d).toNat] else []) noDigest

/-- A scratchpad or window store. -/
def State.scrStore (s : State) (k : ScrSpace) (uses : List Use) (d : VReg) (size : Nat) (pair : Bool) (ord : Order) (addr : State → Nat → Nat) : State :=
  s.guarded s.cur.mask (uses ++ [if size = 8 then rdV d else rdVlo d] ++ if pair then [rdV (nextV d)] else []) fun s =>
    let val (r : VReg) (i : Nat) : Word := BitVec.ofNat 64 ((s.readV r.toNat i).toNat % 2 ^ (8 * size))
    s.issueLanes (mkAcc .store k.space size false ord k.scope .none []) .store
      (fun t i => (t, BitVec.ofNat 64 (addr s i), k.check t (if pair then 16 else size) (addr s i)))
      (fun _ x p blk _ _ => mkPiece x.lane p blk false false (val d x.lane) 0 ::
        if pair then [mkPiece x.lane (p + 8) blk false false (val (nextV d) x.lane) 0] else [])
      fun t x =>
        let t := t.fold (k.tag + x.va) (val d x.lane)
        if pair then t.fold (k.tag + x.va + 8) (val (nextV d) x.lane) else t

/-- A scratchpad or window atomic (R233), at an address and with an index check. -/
def State.scrAtom (s : State) (k : ScrSpace) (uses : List Use) (d b : VReg) (wide uns : Bool) (op : AtomOp) (ord : Order) (addr : State → Nat → Nat)
    (inRange : State → Nat → Bool) : State :=
  let size := if wide then 8 else 4
  s.counted fun s => s.guarded s.cur.mask (uses ++ [if wide then rdV b else rdVlo b, wrV d]) fun s =>
    let val (i : Nat) : Word := BitVec.ofNat 64 ((s.readV b.toNat i).toNat % 2 ^ (8 * size))
    s.issueLanes (mkAcc (.atom op uns s.atomCtx) k.space size true ord k.scope .vec []) .atomic
      (fun t i => (t, BitVec.ofNat 64 (addr s i), match k.check t size (addr s i) with
        | .pass p blk h dv => if inRange s i then t.checkPoison k.space k.scope size (.pass p blk h dv) else .fail 0x15
        | r => r))
      (fun _ x p blk _ _ => [mkPiece x.lane p blk false false (val x.lane) d.toNat])
      fun t x => t.fold (k.tag + x.va) (val x.lane)

/-- LDS and LDC. -/
def State.longScrLoad (s : State) (k : ScrSpace) (o : ScrAcc) : State :=
  s.scrLoad k [rdUlo o.c, rdVlo o.a] o.d (bytesOfWidth o.t) o.pair o.x o.ord fun s i => s.scratchAddr o.c o.a 1 (o.disp.toInt * bytesOfWidth o.t) i
/-- STS and STC. -/
def State.longScrStore (s : State) (k : ScrSpace) (o : ScrAcc) : State :=
  s.scrStore k [rdUlo o.c, rdVlo o.a] o.d (bytesOfWidth o.t) o.pair o.ord fun s i => s.scratchAddr o.c o.a 1 (o.disp.toInt * bytesOfWidth o.t) i

/-! ### Uniform accesses (R131) -/

/-- The issue of a uniform access: one address, checked for the whole split. -/
def State.issueUniform (s : State) (a : Acc) (ak : AccessKind) (va : Word) (devOk poison : Bool) (piece : Nat → Nat → Bool → Bool → Piece)
    (digest : State → State) : State :=
  let (s, r) := s.checkGlobal ak a.size devOk va
  s.withChecks [⟨0, va, if poison then s.checkPoison .mem a.scope a.size r else r⟩] fun s l => match l with
    | ⟨_, _, .pass addr blk home dev⟩ :: _ => digest (s.addPieces { a with pieces := [{ piece addr blk home dev with va := va.toNat }] })
    | ⟨_, _, .fail c⟩ :: _ => s.trapExec c va
    | l => s.faultSplit ak.code l

/-! ### Meanings -/

/-- LD (R230). -/
def execLd (o : MemAcc) (s : State) : Host.Outcome State Fault Refusal := .next (s.laneLoad o)
/-- ST (R230). -/
def execSt (o : MemAcc) (s : State) : Host.Outcome State Fault Refusal := .next (s.laneStore o)
/-- LDS (R231). -/
def execLds (o : ScrAcc) (s : State) : Host.Outcome State Fault Refusal := .next (s.longScrLoad scrOwn o)
/-- STS (R231). -/
def execSts (o : ScrAcc) (s : State) : Host.Outcome State Fault Refusal := .next (s.longScrStore scrOwn o)
/-- LDC (R231). -/
def execLdc (o : ScrAcc) (s : State) : Host.Outcome State Fault Refusal := .next (s.longScrLoad scrCast o)
/-- STC (R231). -/
def execStc (o : ScrAcc) (s : State) : Host.Outcome State Fault Refusal := .next (s.longScrStore scrCast o)
/-- ATOM (R233). -/
def execAtom (o : LaneAtom) (s : State) : Host.Outcome State Fault Refusal := .next (s.laneAtom o)
/-- ATOMS (R233): with CHK the index is checked against s(c+1) (R227). -/
def execAtoms (o : ScrAtom) (s : State) : Host.Outcome State Fault Refusal :=
  let size := if o.wide then 8 else 4
  .next (s.scrAtom scrOwn ([rdUlo o.c, rdVlo o.a] ++ if o.chk then [rdUlo (o.c + 1)] else []) o.d o.b o.wide o.x o.op o.ord
    (fun s i => s.scratchAddr o.c o.a (if o.chk then size else 1) (o.disp.toInt * size) i)
    fun s i => !o.chk || decide ((s.readV o.a.toNat i).toNat % 2 ^ 32 < (s.readU (o.c + 1).toNat).toNat % 2 ^ 32))
/-- ATOMC (R233). -/
def execAtomc (o : WinAtom) (s : State) : Host.Outcome State Fault Refusal :=
  let size := if o.wide then 8 else 4
  .next (s.scrAtom scrCast [rdUlo o.c, rdVlo o.a] o.d o.b o.wide o.x o.op o.ord
    (fun s i => s.scratchAddr o.c o.a 1 (o.disp.toInt * size) i) fun _ _ => true)
/-- LDF (R230). -/
def execLdf (o : FaultLd) (s : State) : Host.Outcome State Fault Refusal := .next (s.laneFaultLoad o)
/-- The short LDS (R232). -/
def execLdsShort (o : ShI) (s : State) : Host.Outcome State Fault Refusal :=
  .next (s.scrLoad scrOwn [rdVlo o.a] o.d 8 false true .none fun s i => ((s.readV o.a.toNat i).toNat + o.k.toNat * 8) % 2 ^ 32)
/-- The short STS (R232). -/
def execStsShort (o : ShI) (s : State) : Host.Outcome State Fault Refusal :=
  .next (s.scrStore scrOwn [rdVlo o.a] o.d 8 false .none fun s i => ((s.readV o.a.toNat i).toNat + o.k.toNat * 8) % 2 ^ 32)

/-- SLD (R131). -/
def execSld (o : UniMem) (s : State) : Host.Outcome State Fault Refusal :=
  let size := bytesOfWidth o.t
  .next (s.counted fun s => s.guarded s.cur.mask [rdU o.a, wrU o.d] fun s =>
    s.issueUniform (mkAcc .load .mem size o.x o.ord o.scope .uni []) .load (s.readU o.a.toNat + wordOfInt (o.disp.toInt * size)) true false
      (fun addr blk home dev => mkPiece 0 addr blk home dev 0 o.d.toNat) id)
/-- SST (R131). -/
def execSst (o : UniMem) (s : State) : Host.Outcome State Fault Refusal :=
  let size := bytesOfWidth o.t
  .next (s.guarded s.cur.mask [rdU o.a, if size = 8 then rdU o.d else rdUlo o.d] fun s =>
    let va := s.readU o.a.toNat + wordOfInt (o.disp.toInt * size)
    let data : Word := BitVec.ofNat 64 ((s.readU o.d.toNat).toNat % 2 ^ (8 * size))
    s.issueUniform (mkAcc .store .mem size false o.ord o.scope .none []) .store va false false
      (fun addr blk home dev => mkPiece 0 addr blk home dev data 0) fun t => t.fold va data)
/-- SATOM (R131). -/
def execSatom (o : UniAtom) (s : State) : Host.Outcome State Fault Refusal :=
  let size := if o.wide then 8 else 4
  .next (s.counted fun s => s.guarded s.cur.mask [rdU o.a, rdUw (8 * size) o.b, wrU o.d] fun s =>
    let va := s.readU o.a.toNat
    let b : Word := BitVec.ofNat 64 ((s.readU o.b.toNat).toNat % 2 ^ (8 * size))
    s.issueUniform (mkAcc (.atom o.op o.x s.atomCtx) .mem size true o.ord o.scope .uni []) .atomic va false true
      (fun addr blk home dev => mkPiece 0 addr blk home dev b o.d.toNat) fun t => t.fold va b)

end Sys2Proof.Machine
end

