-- ==== Sys2Proof/Machine/Waits.lean ====
section
/-! DEFINITION. Waiting: when a wait is over, which splits hold a reconverging instruction back, and which splits merge
(spec/02_group_and_lanes.md R57, R62, R64; spec/06_control_planes_and_traps.md R177, R178; spec/08_core_memory_and_ladle.md R235 to R242). -/

namespace Sys2Proof.Machine

/-! ### What is outstanding -/

/-- Whether a batch number lies at or before another, on the circle of 2^32 numbers (R237). -/
def batchUpTo (upto n : Nat) : Bool := decide ((upto + 2 ^ 32 - n) % 2 ^ 32 < 2 ^ 31)

/-- Whether every closed batch up to a number has completed (R237). -/
def Group.batchesDone (g : Group) (upto : Nat) : Bool := !(g.closed.any (batchUpTo upto))

/-- Whether the accesses named before a stamp have been performed (R240): loads with their destinations written where `loads` says so, and
otherwise stores and atomics. -/
def Group.performedBefore (g : Group) (stamp : Nat) (loads : Bool) : Bool :=
  !(g.accs.any fun a => decide (a.2.since < stamp) && (a.2.pending && (loads || !a.2.kind.isLoad) || loads && a.2.counts))
  && !g.faultedBefore stamp

/-- Whether every access named before a stamp has been performed, as a release asks (R312): a load need not have written its destination. -/
def Group.releasedBefore (g : Group) (stamp : Nat) : Bool :=
  !(g.accs.any fun a => decide (a.2.since < stamp) && a.2.pending) && !g.faultedBefore stamp

/-- Whether a packet counts as awaiting acknowledgement for a group (R414, R465): requests to watch or read a line, and replies, do not. -/
def Packet.countsFor (p : Packet) (gid : Nat) : Bool :=
  p.gid == some gid && p.status.isNone && p.op != 0x30 && p.op != 0x31

/-- Whether a packet of a group is neither acknowledged nor failed (R414). -/
def State.packetsOut (s : State) (gid : Nat) : Bool :=
  s.packets.any fun p => p.2.countsFor gid

/-- Whether a riddle command is an update (R381). -/
def ROp.isUpdate : ROp → Bool
  | .insert _ | .delete _ => true
  | _ => false

/-- A table slot of a die. -/
def State.tslot (s : State) (d n : Nat) : TSlot := ((s.die d).slots.find? n).getD TSlot.reset

/-- Whether every HINS and HDEL of a group before a stamp has been applied, and a slot's old versions are drained (R381). -/
def State.riddleFenced (s : State) (gid stamp : Nat) (drain : Option Nat) : Bool :=
  let d := dieOfCore (s.group gid).cx.core
  !((s.die d).riddle.any fun c => c.2.gid == gid && decide (c.1 < stamp) && c.2.op.isUpdate && !c.2.applied)
  && (match drain with
    | none => true
    | some n => !((s.die d).riddle.any fun c => c.2.slot == n && c.2.version != (s.tslot d n).version))

/-- A barrier, which starts in phase 0 with nothing registered (R238, R299). -/
def barrierOf (t : Tab Barrier) (k : Nat) : Barrier := (t.find? k).getD ⟨0, []⟩

/-- Whether an arrival line has DONE or an error flag (R412). -/
def State.lineEnds (s : State) (addr : Nat) : Bool := bits (s.homeN (addr + 8) 4) 4 0 != 0

/-! ### The end of a wait -/

/-- Whether the lanes of M that have not exited are all owned by a split (R177). A mask register with a write pending shows its old or new
value (R186). -/
def State.reconverged (s : State) (gid : Nat) (p : Split) (mask : Option Nat) : Bool :=
  let g := s.group gid
  let m := match mask with | some r => maskLow (s.observe g .uni r 0 (g.ureg r)) | none => p.origin
  m &&& g.alive &&& ~~~p.owned == 0

/-- Whether a wait, other than that of a reconverging instruction, is over. -/
def State.waitDone (s : State) (gid : Nat) (p : Split) (w : Wait) : Bool :=
  let g := s.group gid
  let expired (e : Option Nat) : Bool := e.any fun t => decide (t ≤ s.clk)
  match w with
  | .reconv => false
  | .rcv e m => s.reconverged gid p m || expired e
  | .loads n => decide (g.lcnt ≤ n)
  | .loadSlot => decide (g.lcnt < 127)
  | .batches n => g.batchesDone n
  | .matrix n => decide (g.mcnt ≤ n)
  | .engineSlot => decide ((s.core g.cx.core).engine.length < 64) && decide (g.mcnt < 64)
  | .ladleSlot => decide ((s.core g.cx.core).ladle.length < 32)
  | .bar k ph => (barrierOf (s.block g.cx.blk).bars k).phase != ph
  | .cbar k ph => (barrierOf (s.castOf g.cx.cast).bars k).phase != ph
  | .phase b a old r => if r.isSome then p.answer.isSome else ((s.block b).readN a 8).testBit 32 != old
  | .fence st _ loads => g.performedBefore st loads
  | .rflush => !s.packetsOut gid
  | .line a req e => p.answer.isSome || (req.isNone && s.lineEnds a) || expired e
  | .answer _ => p.answer.isSome && p.merged.all (·.2.isSome)
  | .lines n => (g.accs.find? n).any (·.ready)
  | .hfence st drain => s.riddleFenced gid st drain
  | .sleep t mb seen => decide (t ≤ s.clk) || (mb && (s.core g.cx.core).mbWakes != seen)
  | .preempt => !((s.block g.cx.blk).stopping || (s.block g.cx.blk).asked)

/-! ### Reconverging instructions (R64) -/

/-- Whether a split that waits for this reason lets a reconverging instruction of another split go on: it waits at a barrier, at RCV, in SLEEP, on
an arrival line or on a mailbox. -/
def State.letsPass (s : State) (gid : Nat) (p : Split) (w : Wait) : Bool :=
  match w with
  | .rcv .. | .bar .. | .cbar .. | .phase .. | .line .. | .sleep .. => !s.waitDone gid p w
  | .answer r => (s.mbreqs.find? r).isSome && p.answer.isNone
  | _ => false

/-- Whether two splits stand at one instruction with identical loop stacks, and may merge (R62, R192). -/
def Group.sameSpot (g : Group) (e f : Nat) : Bool :=
  let p := g.split e
  let q := g.split f
  e != f && p.off == q.off && p.loops == q.loops && g.handler != some e && g.handler != some f
  && p.rpl == 0 && q.rpl == 0 && p.retry.isNone && q.retry.isNone && p.held.isNone && q.held.isNone

/-- Whether another split of the group holds back the split at entry e, which stands at a reconverging instruction. One that waits at the same
instruction does, until it has merged (log 22); for the handler the others count as elsewhere (R192). -/
def State.heldBack (s : State) (gid e : Nat) : Bool :=
  let g := s.group gid
  g.defCount != 0
  || g.splits.any fun q => q.1 != e && (match q.2.st with
      | .ready => true
      | .faulted .. => true
      | .trapped .. => false
      | .waiting .reconv => q.2.off == (g.split e).off && g.handler != some e && g.handler != some q.1
      | .waiting w => !s.letsPass gid q.2 w)

/-- A reconverging instruction: its split waits until no other split holds it back. -/
def State.reconverging (s : State) (body : State → State) : State :=
  if s.heldBack s.cur.gid s.cur.ent then s.waitFor .reconv else body s

/-- Whether a wait of a split is over. -/
def State.waitOver (s : State) (gid e : Nat) (w : Wait) : Bool :=
  match w with
  | .reconv => !s.heldBack gid e
  | _ => s.waitDone gid ((s.group gid).split e) w

/-! ### Merging (R62) -/

/-- The earlier of two ends, where there are any. -/
def earlier (x y : Option Nat) : Option Nat :=
  match x, y with
  | some i, some j => some (min i j)
  | some i, none => some i
  | none, y => y

/-- The wait of two splits that merge while WAITING at one instruction (log 24): the later stamp of two fences, the earlier end of two sleeps, and
otherwise that of the first, whose lowest lane is the lower. Two phases of one barrier do not merge: the earlier is complete. -/
def mergeWaits (a b : Wait) : Option Wait :=
  match a, b with
  | .rcv e m, .rcv f _ => some (.rcv (earlier e f) m)
  | .fence s c l, .fence t _ _ => some (.fence (max s t) c l)
  | .sleep t m n, .sleep u _ k => some (.sleep (min t u) m (min n k))
  | .line x r e, .line _ _ f => some (.line x r (earlier e f))
  | .hfence s d, .hfence t _ => some (.hfence (max s t) d)
  | .batches m, .batches n => some (.batches (if batchUpTo n m then n else m))
  | .answer r, .answer _ => some (.answer r)
  | .phase b a o r, .phase .. => some (.phase b a o r)
  | x, y => if x = y then some x else none

/-- The request on which a wait depends. -/
def Wait.request : Wait → Option Nat
  | .answer r => some r
  | .line _ r _ => r
  | _ => none

/-- The requests and answers that the split merged away brings (R62). -/
def mergedRequests (a b : Split) : List (Nat × Option (Bool × Word × Word)) :=
  a.merged ++ b.merged ++ match b.st with
    | .waiting w => (w.request.map fun r => (r, b.answer)).toList
    | _ => []

/-- Two splits as merged (R62): the unions, with SC and the entry of the split whose lowest owned lane is lower. -/
def mergedSplit (p q : Split) (st : SplitState) : Split :=
  let (a, b) := if lowest p.owned ≤ lowest q.owned then (p, q) else (q, p)
  { a with owned := a.owned ||| b.owned, exec := a.exec ||| b.exec, origin := a.origin ||| b.origin, hlp := a.hlp ||| b.hlp,
           rcvf := a.rcvf || b.rcvf, st := st, readyAt := max a.readyAt b.readyAt, candAt := min a.candAt b.candAt,
           lastIssue := min a.lastIssue b.lastIssue, promoted := a.promoted || b.promoted, merged := mergedRequests a b, resumed := a.resumed || b.resumed,
           spoiled := a.spoiled.or b.spoiled, expiry := earlier a.expiry b.expiry }

/-- Whether a READY split's instruction is still to be evaluated where the split stands. One whose wait is over and has only its result left
is past it, and does not merge there (R177). -/
def Split.atStart (p : Split) : Bool :=
  p.answer.isNone && (match p.woke with
    | some (.rcv ..) | some (.bar ..) | some (.cbar ..) | some (.fence ..) | some (.line ..) | some (.answer _) | some (.hfence ..)
    | some (.sleep ..) | some (.lines _) | some (.phase ..) | some (.batches _) | some .rflush => false
    | _ => true)

/-- How two splits of a group stand once merged, if they may. The wait is that of the split whose lowest owned lane is lower, changed as mergeWaits
says. -/
def Group.mergeState (g : Group) (e f : Nat) : Option SplitState :=
  match g.splits.find? e, g.splits.find? f with
  | some p, some q =>
    if !g.sameSpot e f then none
    else match p.st, q.st with
      | .ready, .ready => if p.atStart && q.atStart then some .ready else none
      | .waiting a, .waiting b => (if lowest p.owned ≤ lowest q.owned then mergeWaits a b else mergeWaits b a).map .waiting
      | _, _ => none
  | _, _ => none

/-- Whether a split's next instruction is RCV or RCVW. -/
def State.atReceive (s : State) (g : Group) (p : Split) : Bool :=
  match g.occupied p.owned with
  | pl :: _ => match s.peekWord g pl p.off, s.peekWord g pl (p.off + 4) with
    | some a, some b => match decodeWords [a, b] with
      | .ok (c, _) => match c.instr with | .rcv _ | .rcvw _ => true | _ => false
      | .error _ => false
    | _, _ => false
  | [] => false

/-- How two splits stand once merged, if they may. READY splits at RCV or RCVW first reach it, each with its own expiry, and merge while they wait
(R177, R178; log 24). -/
def State.mayMerge (s : State) (gid e f : Nat) : Option SplitState :=
  let g := s.group gid
  match g.mergeState e f with
  | some .ready => if s.atReceive g (g.split e) then none else some .ready
  | r => r

/-- Merges two splits of a group, if they may merge (R62). -/
def State.mergeSplits (s : State) (gid e f : Nat) : State :=
  let g := s.group gid
  match s.mayMerge gid e f with
  | none => s
  | some st =>
    let p := g.split e
    let q := g.split f
    let (keep, drop) := if lowest p.owned ≤ lowest q.owned then (e, f) else (f, e)
    (s.modGroup gid fun g => { g with splits := g.splits.insert keep (mergedSplit p q st) }).freeSplit gid drop

/-- Whether a group may issue in this clk on a pipe of its quarter: the pipe is free (R199), and the group has not issued (R197). -/
def State.pipeFree (s : State) (gid : Nat) (uni : Bool) : Bool :=
  let g := s.group gid
  decide ((s.core g.cx.core).pipe.getD 0 (2 * (g.cx.grpid.toNat % 4) + if uni then 1 else 0) ≤ s.clk) && g.lastIssue != s.clk + 1

/-! ### Candidates (R197) -/

/-- A candidate for a pipe (R197): its group and entry, the pipe, and what R198 orders it by. -/
structure Cand where
  (gid ent core quarter : Nat) (uni mid promoted : Bool) (since prio last slot : Nat)
deriving DecidableEq, Repr, Inhabited

/-- The pipe of a split's next instruction: P of its first word, and the lane pipe where it cannot be fetched. -/
def State.nextPipe (s : State) (g : Group) (p : Split) : Bool :=
  match g.occupied p.owned with
  | pl :: _ => ((s.peekWord g pl p.off).map wordP).getD false
  | [] => false

/-- Whether a group's quarter makes issue decisions for it in this clk: it is resident (R205), its block is not being stopped (R356), and its
core's clock runs (R209). -/
def State.decides (s : State) (g : Group) : Bool :=
  let k := s.core g.cx.core
  g.resident && !g.ended && !(s.block g.cx.blk).stopping && !k.gated && decide (k.wakeAt ≤ s.clk)

/-- Whether a pipe is kept for the remaining plane issues of another split's instruction, which stall between two of them (R199). -/
def State.pipeKept (s : State) (core quarter : Nat) (uni : Bool) (gid ent : Nat) : Bool :=
  s.groups.any fun g => g.2.cx.core == core && g.2.cx.grpid.toNat % 4 == quarter && s.decides g.2 && g.2.splits.any fun p =>
    p.2.mid && (g.1 != gid || p.1 != ent) && (match p.2.st with | .ready | .waiting _ => true | _ => false) && s.nextPipe g.2 p.2 == uni

/-- The candidates of a group that the quarter can select in this clk: the group has not issued in this clk. -/
def State.candsOf (s : State) (gid : Nat) (g : Group) : List Cand :=
  let k := s.core g.cx.core
  if !s.decides g ∨ g.lastIssue = s.clk + 1 then []
  else g.splits.filterMap fun p =>
    if p.2.st = .ready ∧ p.2.readyAt ≤ s.clk then
      let uni := s.nextPipe g p.2
      let q := g.cx.grpid.toNat % 4
      if k.pipe.getD 0 (2 * q + if uni then 1 else 0) ≤ s.clk ∧ !s.pipeKept g.cx.core q uni gid p.1 then
        some ⟨gid, p.1, g.cx.core, q, uni, p.2.mid, p.2.promoted || decide (p.2.candAt + 256 ≤ s.clk), p.2.candAt, g.cx.prio, p.2.lastIssue, g.cx.slot⟩
      else none
    else none

/-- Whether an issue decision of a core is still to be made in this clk. -/
def State.issuesLeft (s : State) (core : Nat) : Bool := s.groups.any fun g => g.2.cx.core == core && !(s.candsOf g.1 g.2).isEmpty

/-! ### Waiting beside another split -/

/-- Whether another split waits where the issuing split stands, or has reached that place, and may merge with it. -/
def State.waiterHere (s : State) : Bool :=
  s.grp.splits.any fun q => s.grp.sameSpot s.cur.ent q.1 && (match q.2.st with
    | .waiting _ => true
    | .ready => decide (q.2.readyAt ≤ s.clk) && q.2.atStart
    | _ => false)

end Sys2Proof.Machine
end

