-- ==== Sys2Proof/Machine/CrossLane.lean ====
section
/-! DEFINITION. The cross-lane and search block (spec/05_float_crosslane_and_search_instructions.md R154 to R165;
spec/01_number_formats.md R36, R37). -/

namespace Sys2Proof.Machine

/-! ### Shapes -/

/-- The result latency of the block (R165). -/
def crossLat : Nat := 6

/-- The halves that a sub-element of width w at position j lies in: 1 the low one, 2 the high one. -/
def halvesOf (w j : Nat) : Nat := if w = 64 then 3 else if (j + 1) * w ≤ 32 then 1 else 2

/-- Reads the sub-element 0 of width w of a vector register. -/
def rdV0 (w : Nat) (r : VReg) : Use := if w = 64 then rdV r else rdVlo r

/-- An instruction of the block: it reconverges, then makes the register checks for the lanes that take part. -/
def State.crossOp (s : State) (part : Mask) (uses : List Use) (body : State → State) : State :=
  s.reconverging fun s => s.guarded part uses body

/-- Checks for poison the halves of register r that an instruction reads in other lanes, and the registers that it reads in its own (R154). The error
names the latter first; its lanes are those of both. -/
def State.crossPoison (s : State) (r : VReg) (halves : Nat → Nat) (part : Mask) (own : List Use) (body : State → State) : State :=
  let g := s.grp
  let look (i h : Nat) : Option Bool := if (halves i).testBit h then g.vpois.find? (2 * vkey r.toNat i + h) else none
  let first : Option (Use × Nat × Bool) := match s.firstPoison part own with
    | some x => some x
    | none => (List.range 64).findSome? fun k => (look (k / 2) (k % 2)).map fun b => (rdV r, k % 2, b)
  match first with
  | none => body s
  | some (u, h, b) =>
    s.takeTrap (if b then 0x16 else 0x0C) (BitVec.ofNat 64 (regCode u.kind u.num + 1024 * h))
      (maskOf (fun i => (look i 0).isSome || (look i 1).isSome) ||| s.poisonLanes part own)

/-- The flags of a single issue for all participating lanes (R154): set, and FP_EXCEPTION in place of the write when one is enabled. -/
def State.withIssueFlags (s : State) (part : Mask) (f : FpFlags) (write : State → State) : State :=
  let t := s.setFlags f
  if f &&& s.grp.enabled = 0 then write t else t.takeTrap 0x0D (f.setWidth 64) part

/-- A move of sub-elements between lanes (R154, R156, R157): lane i's sub-element j comes from sub-element `(src i j).2` of lane `(src i j).1`, and
reads 0 where that lane takes no part. The registers of `own` hold the indices; a sub-element whose index is poisoned reads no lane. -/
def State.crossMove (s : State) (part : Mask) (d a : VReg) (w : Nat) (own : List Use) (src : Nat → Nat → Nat × Nat) : State :=
  let known (i j : Nat) : Bool := own.all fun u =>
    (s.poisonHit (1#32 <<< i) (if u.kind = .vec then { u with rd := halvesOf w j } else u)).isNone
  let reads (l : Nat) : Nat :=
    (lanesOf part).foldl (fun m i => (List.range (64 / w)).foldl (fun m j =>
      let p := src i j
      if p.1 = l ∧ known i j then m ||| halvesOf w p.2 else m) m) 0
  s.crossPoison a (fun l => if part.getLsbD l then reads l else 0) part own fun s =>
    s.writeV d.toNat part crossLat fun i => packElems w fun j =>
      let p := src i j
      if part.getLsbD p.1 then elemAt w p.2 (s.readV a.toNat p.1) else 0

/-! ### Reductions (R159, R160) -/

/-- The slots of a sub-element over the participating lanes. -/
def slotsOf (part : Mask) (f : Nat → Nat) : List Slot := (List.range 32).map fun i => if part.getLsbD i then some (f i) else none

/-- The identity of an integer operator (R159). -/
def intIdentity (e : Elem) (op : RedOp) : Nat :=
  let w := e.w
  match op with
  | .add | .or | .xor => 0
  | .and => 2 ^ w - 1
  | .min => if e.isSigned then 2 ^ (w - 1) - 1 else 2 ^ w - 1
  | .max => if e.isSigned then 2 ^ (w - 1) else 0

/-- An integer operator on two patterns (R159). -/
def intReduce (e : Elem) (op : RedOp) (a b : Nat) : Nat :=
  match op with
  | .add => (a + b) % 2 ^ e.w
  | .and => a &&& b
  | .or => a ||| b
  | .xor => a ^^^ b
  | .min => minMaxElem e false (readInt e.isSigned e.w a) (readInt e.isSigned e.w b)
  | .max => minMaxElem e true (readInt e.isSigned e.w a) (readInt e.isSigned e.w b)

/-- One level of the tree of a floating minimum or maximum (R143, R159). -/
def fpPairs (f : Fmt) (isMax : Bool) : List Slot → List Slot × FpFlags
  | a :: b :: rest =>
    let (r, fl) := match a, b with
      | some x, some y => let p := fminmaxElem f false isMax x y; (some p.1, p.2)
      | some x, none => let p := f.pass x; (some p.1, p.2)
      | none, some y => let p := f.pass y; (some p.1, p.2)
      | none, none => (none, 0)
    let (rs, fs) := fpPairs f isMax rest
    (r :: rs, fl ||| fs)
  | l => (l, 0)

/-- The levels of a floating minimum or maximum over n halvings. -/
def fpMinMax (f : Fmt) (isMax : Bool) : Nat → List Slot → Slot × FpFlags
  | 0, l => (l.headD none, 0)
  | n + 1, l =>
    let (r, fl) := fpPairs f isMax l
    let (v, gl) := fpMinMax f isMax n r
    (v, fl ||| gl)

/-- The reduction of the slots of one sub-element, with its flags (R159). -/
def reduceSlots (e : Elem) (op : RedOp) (c : FpCtx) (l : List Slot) : Nat × FpFlags :=
  match Fmt.ofElem e with
  | none => (l.foldl (fun a x => match x with | some v => intReduce e op a v | none => a) (intIdentity e op), 0)
  | some f =>
    let leaves := l.map fun x => x.map (f.leaf c.daz)
    match op with
    | .min => let r := fpMinMax f false 5 leaves; (r.1.getD f.infCode, r.2)
    | .max => let r := fpMinMax f true 5 leaves; (r.1.getD (f.signed true f.infCode), r.2)
    | _ => f.reduceTree c leaves

/-- The prefix of the slots over the first n lanes, with its flags (R37, R160). -/
def prefixSlots (e : Elem) (op : RedOp) (c : FpCtx) (l : List Slot) (n : Nat) : Nat × FpFlags :=
  let below := l.zipIdx.map fun p => if p.2 < n then p.1 else none
  match Fmt.ofElem e, op with
  | some f, .add =>
    let leaves := below.map fun x => x.map (f.leaf c.daz)
    let r := f.prefixOf c (f.levels c 5 leaves).1 n
    (r.1.getD 0, r.2 ||| f.blockFlags c leaves n)
  | _, _ => reduceSlots e op c below

/-- All sub-elements of a rule with flags, as a word. -/
def packWithFlags (w : Nat) (f : Nat → Nat × FpFlags) : Word × FpFlags := packFlags w f

/-- VRED (R159). -/
def State.reduce (s : State) (o : Reduce) : State :=
  let part := s.cur.mask
  let dst : Use := match o.d with | .uni r => wrU r | .vec r => wrV r
  s.crossOp part [rdV o.a, dst] fun s =>
    let (v, fl) := packWithFlags o.e.w fun j => reduceSlots o.e o.op s.fpCtx (slotsOf part fun i => elemAt o.e.w j (s.readV o.a.toNat i))
    s.withIssueFlags part fl fun t => match o.d with
      | .uni r => t.writeU r.toNat v crossLat
      | .vec r => t.writeV r.toNat part crossLat fun _ => v

/-- VSCAN (R160). -/
def State.scan (s : State) (o : Scan) : State :=
  let part := s.cur.mask
  s.crossOp part [rdV o.a, wrV o.d] fun s =>
    let r (i : Nat) : Word × FpFlags := packWithFlags o.e.w fun j =>
      prefixSlots o.e o.op s.fpCtx (slotsOf part fun i => elemAt o.e.w j (s.readV o.a.toNat i)) (if o.excl then i else i + 1)
    s.withIssueFlags part ((lanesOf part).foldl (fun a i => a ||| (r i).2) 0) fun t => t.writeV o.d.toNat part crossLat fun i => (r i).1

/-! ### Search (R161 to R164) -/

/-- VISECT's four results: maskA, maskB, advA, advB (R162). -/
def isect (part : Mask) (a b : Nat → Nat) : Nat × Nat × Nat × Nat :=
  let ra (i : Nat) : Nat := if part.getLsbD i then a i % 2 ^ 32 else 0xFFFFFFFF
  let rb (i : Nat) : Nat := if part.getLsbD i then b i % 2 ^ 32 else 0xFFFFFFFF
  let mu := min (ra 31) (rb 31)
  let ls := lanesOf part
  ((maskOf fun i => part.getLsbD i && ls.any fun k => rb k == ra i).toNat,
   (maskOf fun i => part.getLsbD i && ls.any fun k => ra k == rb i).toNat,
   (ls.filter fun i => ra i ≤ mu).length, (ls.filter fun i => rb i ≤ mu).length)

/-- Whether key x ranks strictly above key y (R163). F32 keys are compared as they are, whatever FPM.DAZ is (log 121). -/
def keyAbove (e : Elem) (x y : Nat) : Bool :=
  match Fmt.ofElem e with
  | none => decide (readInt e.isSigned 32 y < readInt e.isSigned 32 x)
  | some f =>
    let a := f.decode x
    let b := f.decode y
    if a.isNan then false else if b.isNan then true else (b.cmp a).2.1

/-- Whether pair x comes strictly before pair y in VTOPK's order (R163). -/
def pairBefore (e : Elem) (x y : Word) : Bool :=
  let kx := x.toNat % 2 ^ 32
  let ky := y.toNat % 2 ^ 32
  if keyAbove e kx ky then true
  else if keyAbove e ky kx then false
  else if x.toNat / 2 ^ 32 ≠ y.toNat / 2 ^ 32 then decide (x.toNat / 2 ^ 32 < y.toNat / 2 ^ 32)
  else decide (x.toNat < y.toNat)

/-- Puts a pair at its place among pairs in order. -/
def pairInsert (e : Elem) (x : Word) : List Word → List Word
  | [] => [x]
  | y :: ys => if pairBefore e y x then y :: pairInsert e x ys else x :: y :: ys

/-- VTOPK (R163). -/
def State.topk (s : State) (o : LaneUn) : State :=
  let part := s.cur.mask
  s.crossOp part [rdV o.a, rwV o.d] fun s =>
    let ls := lanesOf part
    let cands := ls.flatMap fun i => [s.readV o.d.toNat i, s.readV o.a.toNat i]
    let best := cands.foldl (fun l x => pairInsert o.e x l) []
    s.writeV o.d.toNat part crossLat fun i => best.getD (popMask (part &&& belowMask i)) 0

/-! ### Meanings -/

/-- VSHF (R156). -/
def execVshf (o : LaneBin) (s : State) : Host.Outcome State Fault Refusal :=
  let w := o.e.w
  let part := s.cur.mask
  .next (s.crossOp part [⟨.vec, o.a.toNat, 0, false⟩, { useB w o.b with rd := 0 }, wrV o.d] fun s =>
    s.crossMove part o.d o.a w [useB w o.b] fun i j =>
      let x := elemAt w j (s.readB w o.b i)
      (x % 32, if w = 8 then bits x 7 5 else bits x 8 5 % (64 / w)))
/-- VSHFI (R156). -/
def execVshfi (o : ShufImm) (s : State) : Host.Outcome State Fault Refusal :=
  let part := s.cur.mask
  let k := o.k.toNat
  .next (s.crossOp part [⟨.vec, o.a.toNat, 0, false⟩, wrV o.d] fun s =>
    s.crossMove part o.d o.a o.e.w [] fun i j => (match o.mode with
      | .xor => i ^^^ k
      | .up => if k ≤ i then i - k else i
      | .dn => if i + k < 32 then i + k else i
      | .bc => k, j))
/-- QSWP (R157). -/
def execQswp (o : QuadSwap) (s : State) : Host.Outcome State Fault Refusal :=
  let part := s.lanes
  .next (s.crossOp part [⟨.vec, o.a.toNat, 0, false⟩, wrV o.d] fun s =>
    s.crossMove part o.d o.a 64 [] fun i _ => (i ^^^ (match o.dir with | .h => 1 | .v => 2 | .d => 3), 0))
/-- QBC (R157). -/
def execQbc (o : QuadBc) (s : State) : Host.Outcome State Fault Refusal :=
  let part := s.lanes
  .next (s.crossOp part [⟨.vec, o.a.toNat, 0, false⟩, wrV o.d] fun s =>
    s.crossMove part o.d o.a 64 [] fun i _ => (4 * (i / 4) + o.k.toNat, 0))
/-- VBAL (R158). -/
def execVbal (o : Ballot) (s : State) : Host.Outcome State Fault Refusal :=
  let part := s.cur.mask
  .next (s.crossOp part [rdV0 o.e.w o.a, wrU o.d] fun s =>
    s.writeU o.d.toNat ((maskOf fun i => part.getLsbD i && elemAt o.e.w 0 (s.readV o.a.toNat i) != 0).setWidth 64) crossLat)
/-- VVOTE (R158). -/
def execVvote (o : Vote) (s : State) : Host.Outcome State Fault Refusal :=
  let part := s.cur.mask
  .next (s.crossOp part [rdV0 o.e.w o.a, wrSc] fun s =>
    let vs := (lanesOf part).map fun i => elemAt o.e.w 0 (s.readV o.a.toNat i)
    s.writeScLate (match o.kind with
      | .all => vs.all (· != 0)
      | .any => vs.any (· != 0)
      | .eq => vs.all (· == vs.headD 0)) crossLat)
/-- VRED (R159). -/
def execVred (o : Reduce) (s : State) : Host.Outcome State Fault Refusal := .next (s.reduce o)
/-- VSCAN (R160). -/
def execVscan (o : Scan) (s : State) : Host.Outcome State Fault Refusal := .next (s.scan o)
/-- VCONF (R161). -/
def execVconf (o : LaneMono) (s : State) : Host.Outcome State Fault Refusal :=
  let part := s.cur.mask
  .next (s.crossOp part [rdVlo o.a, wrV o.d] fun s =>
    let x (i : Nat) : Nat := elemAt 32 0 (s.readV o.a.toNat i)
    s.writeV o.d.toNat part crossLat fun i =>
      let m := maskOf fun k => part.getLsbD k && decide (k < i) && x k == x i
      BitVec.ofNat 64 (m.toNat + (if m = 0 then i else lowest m) * 2 ^ 32))
/-- VISECT (R162). -/
def execVisect (o : Isect) (s : State) : Host.Outcome State Fault Refusal :=
  let part := s.cur.mask
  .next (s.crossOp part [rdVlo o.a, rdVlo o.b, wrU o.d, wrU (o.d + 1)] fun s =>
    let (ma, mb, na, nb) := isect part (fun i => (s.readV o.a.toNat i).toNat) fun i => (s.readV o.b.toNat i).toNat
    (s.writeU o.d.toNat (BitVec.ofNat 64 (mb * 2 ^ 32 + ma)) crossLat).writeU (o.d + 1).toNat (BitVec.ofNat 64 (nb * 2 ^ 32 + na)) crossLat)
/-- VTOPK (R163). -/
def execVtopk (o : LaneUn) (s : State) : Host.Outcome State Fault Refusal := .next (s.topk o)
/-- VMRANK (R164). -/
def execVmrank (o : Rank) (s : State) : Host.Outcome State Fault Refusal :=
  .next (s.guarded s.cur.mask [rdUlo o.b, wrV o.d] fun s =>
    let m := maskLow (s.readU o.b.toNat)
    s.writeV o.d.toNat s.cur.mask crossLat fun i => BitVec.ofNat 64 (popMask (m &&& belowMask i)))

end Sys2Proof.Machine
end

