-- ==== Sys2Proof/Machine/Control.lean ====
section
/-! DEFINITION. The control block: branches, calls, loops, reconvergence, exit, masks, planes and the software trap
(spec/06_control_planes_and_traps.md R166 to R193, R482; spec/02_group_and_lanes.md R59, R60, R65). -/

namespace Sys2Proof.Machine

/-! ### Shared operations -/

/-- A branch condition of the issuing split (R167). -/
def State.bcond (s : State) (c : BCond) : Bool :=
  match c with
  | .always => true
  | .sc => s.readSc
  | .nsc => !s.readSc
  | .none => s.spl.exec == 0
  | .any => s.spl.exec != 0
  | .all => s.spl.exec == s.spl.owned

/-- What a branch condition reads. -/
def bcondUses : BCond → List Use
  | .sc | .nsc => [rdSc]
  | _ => []

/-- The link word of a call (R171). -/
def State.linkWord (s : State) : Word := BitVec.ofNat 64 (s.cur.next % 2 ^ 26 + s.spl.loops.length * 2 ^ 32)

/-- A branch of the whole split, when its condition holds (R169). -/
def State.branch (s : State) (c : BCond) (target : Int) : State :=
  s.guarded s.cur.mask (bcondUses c) fun s => if s.bcond c then s.moveTo target else s

/-- A call (R171): the link word is written once the move has passed its checks. -/
def State.callTo (s : State) (d : UReg) (target : Int) : State :=
  let link := s.linkWord
  let t := s.moveTo target
  if t.cur.flow = .moved then t.writeU d.toNat link 2 else t

/-- A divergent branch (R170, R59, R60, R192), whose W both halves wait out (R184). Where the target is le of the top level, the taken half's iteration ends there (R174). -/
def State.divideAt (s : State) (taken : Mask) (target : Int) : State :=
  let p := s.spl
  let g := s.grp
  if taken = 0 then s
  else if taken = p.exec then s.moveTo target
  else s.transferTo taken target fun s =>
      let off := target.toNat
      let overflow := s.takeTrap 0x08 (targetWord target) taken
      let shrink (s : State) : State := s.modSpl fun p =>
        { p with owned := p.owned &&& ~~~taken, exec := p.exec &&& ~~~taken, origin := p.owned, hlp := 0 }
      if g.handler = some s.cur.ent then overflow
      else match g.freeEntry with
        | some e =>
          let child := Split.fresh off taken taken p.owned p.sc p.loops (s.now + 1 + s.cur.w)
          ((shrink s).modGrp fun g => { g with splits := g.splits.insert e child }).loopEndAt s.cur.gid e
        | none =>
          if g.cx.defCap ≤ g.defCount ∨ p.loops ≠ [] then overflow
          else (shrink s).deferSplit s.cur.gid off p.sc taken taken p.owned (s.now + 1 + s.cur.w)

/-- The lowest plane value at or above the plane count among lanes of a mask, with the lanes at fault (R53, R182). -/
def Group.badPlanes (g : Group) (m : Mask) (f : Nat → Nat) : Option (Nat × Mask) :=
  let bad := (lanesOf m).filter fun i => g.planeCount ≤ f i
  match bad with
  | [] => none
  | i :: rest => some (rest.foldl (fun a k => min a (f k)) (f i), maskOf fun k => bad.contains k)

/-- Sets the plane of every lane of a mask (R181). -/
def State.setPlanes (s : State) (m : Mask) (p : BitVec 3) : State :=
  if s.grp.planeCount ≤ p.toNat then s.trapExec 0x07 (p.setWidth 64)
  else s.modGrp fun g => (lanesOf m).foldl (fun g i => g.setPlane i p) g

/-- RCV and RCVW (R177, R178): the wait for a lane set, with the expiry of RCVW. A split that finds another waiting where it stands, or whose
uniform-pipe slot of this clk is taken, waits first; the scheduler then merges the waiting splits and ends the wait at an issue decision. -/
def State.receive (s : State) (uses : List Use) (mask expiry : Option Nat) (bounded : Bool) : State :=
  let done (s : State) (late : Bool) : State := if bounded then s.modSpl fun p => { p with rcvf := late } else s
  match s.spl.woke with
  | some (.rcv e _) => done s e.isSome
  | _ => s.guarded s.cur.mask uses fun s =>
    if s.waiterHere || !s.pipeFree s.cur.gid true then s.waitFor (.rcv expiry mask)
    else if s.reconverged s.cur.gid s.spl mask then done s false
    else if expiry.any (fun t => decide (t ≤ s.clk)) then done s true
    else s.waitFor (.rcv expiry mask)

/-- The set-aside or own loop stack that the special registers reach (R192). -/
def State.loopRegs (s : State) : List Loop := if s.grp.handler = some s.cur.ent then s.grp.aside else s.spl.loops

/-- The planes that SVPL names for a lane (R53). -/
def Group.savedPlane (g : Group) (i : Nat) : Nat :=
  (if i < 16 then g.svpl0.toNat >>> (3 * i) else g.svpl1.toNat >>> (3 * (i - 16))) % 8

/-! ### Meanings -/

/-- BR (R169). -/
def execBr (o : Branch) (s : State) : Host.Outcome State Fault Refusal := .next (s.branch o.cond (dispTarget s.cur.next o.disp.toInt))
/-- BRS (R169). -/
def execBrs (o : ShBr) (s : State) : Host.Outcome State Fault Refusal := .next (s.branch o.cond (dispTarget s.cur.next o.disp.toInt))
/-- BRD (R170). -/
def execBrd (o : BranchDiv) (s : State) : Host.Outcome State Fault Refusal :=
  .next (s.guarded s.cur.mask [rdUlo o.a] fun s =>
    let m := maskLow (s.readU o.a.toNat)
    s.divideAt (s.spl.exec &&& (if o.not then ~~~m else m)) (dispTarget s.cur.next o.disp.toInt))
/-- JMP (R169). -/
def execJmp (o : JumpAbs) (s : State) : Host.Outcome State Fault Refusal := .next (s.moveTo (4 * o.abs.toNat))
/-- JMPR (R169). -/
def execJmpr (o : OneU) (s : State) : Host.Outcome State Fault Refusal :=
  .next (s.guarded s.cur.mask [rdUlo o.a] fun s => s.moveTo ((s.readU o.a.toNat).toNat % 2 ^ 32 : Nat))
/-- CALL (R171). -/
def execCall (o : CallRel) (s : State) : Host.Outcome State Fault Refusal :=
  .next (s.guarded s.cur.mask [wrU o.d] fun s => s.callTo o.d (dispTarget s.cur.next o.disp.toInt))
/-- CALLR (R171). -/
def execCallr (o : TwoU) (s : State) : Host.Outcome State Fault Refusal :=
  .next (s.guarded s.cur.mask [rdUlo o.a, wrU o.d] fun s => s.callTo o.d ((s.readU o.a.toNat).toNat % 2 ^ 32 : Nat))
/-- RET (R172). -/
def execRet (o : OneU) (s : State) : Host.Outcome State Fault Refusal :=
  .next (s.guarded s.cur.mask [rdU o.a] fun s =>
    let x := s.readU o.a.toNat
    if wbits x 34 32 ≠ s.spl.loops.length then s.trapExec 0x09 (BitVec.ofNat 64 s.spl.loops.length)
    else s.moveTo (x.toNat % 2 ^ 32 : Nat))
/-- LOOP (R173). -/
def execLoop (o : LoopOp) (s : State) : Host.Outcome State Fault Refusal :=
  .next (s.guarded s.cur.mask [rdUlo o.a] fun s =>
    let n : BitVec 32 := (s.readU o.a.toNat).setWidth 32
    let le := dispTarget s.cur.next o.disp.toInt
    if n = 0 then s.moveTo le
    else if 4 ≤ s.spl.loops.length then s.trapExec 0x09 4
    else s.modSpl fun p => { p with loops := ⟨s.cur.next % 2 ^ 26, (le % 2 ^ 26).toNat, n⟩ :: p.loops })
/-- LBREAK (R175). -/
def execLbreak (o : CondOnly) (s : State) : Host.Outcome State Fault Refusal :=
  .next (s.guarded s.cur.mask (bcondUses o.cond) fun s =>
    match s.spl.loops with
    | [] => s.trapExec 0x09 0
    | l :: rest =>
      if s.bcond o.cond then
        let t := s.moveTo l.le
        if t.cur.flow = .moved then t.modSpl fun p => { p with loops := rest } else t
      else s)
/-- RCV (R177). -/
def execRcv (o : Rcv) (s : State) : Host.Outcome State Fault Refusal :=
  .next (s.receive (o.mask.toList.map rdUlo) (o.mask.map (·.toNat)) none false)
/-- RCVW (R177, R178). -/
def execRcvw (o : Rcvw) (s : State) : Host.Outcome State Fault Refusal :=
  .next (s.receive (rdUlo o.a :: o.mask.toList.map rdUlo) (o.mask.map (·.toNat))
    (some (s.spl.readyAt + (s.readU o.a.toNat).toNat % 2 ^ 32)) true)
/-- EXIT (R179). -/
def execExit (s : State) : Host.Outcome State Fault Refusal := .next s.exitLanes
/-- TRAP (R190). -/
def execTrap (o : Imm8) (s : State) : Host.Outcome State Fault Refusal :=
  .next (s.takeTrapAt 0x0E s.cur.next (o.k.setWidth 64) s.spl.exec)
/-- TRET (R193). -/
def execTret (s : State) : Host.Outcome State Fault Refusal :=
  let g := s.grp
  let p := s.spl
  .next (if g.handler ≠ some s.cur.ent then s.takeTrap 0x01 (BitVec.ofNat 64 s.cur.off) s.cur.mask
    else if p.loops ≠ [] then s.trapExec 0x09 (BitVec.ofNat 64 p.loops.length)
    else match g.badPlanes p.owned g.savedPlane with
      | some (v, m) => s.takeTrap 0x07 (BitVec.ofNat 64 v) m
      | none =>
        let planes := (List.range 8).filter fun k => (lanesOf (p.owned &&& g.alive)).any fun i => g.savedPlane i == k
        match s.transfer g planes (wbits g.toff 25 0) with
        | .bad cause => s.trapExec cause (BitVec.ofNat 64 (wbits g.toff 25 0))
        | .unread va f => s.unfetchedHere va f
        | .ok => s.leaveTrap)
/-- PLSET (R181). -/
def execPlset (o : PlaneImm) (s : State) : Host.Outcome State Fault Refusal := .next (s.setPlanes s.spl.exec o.p)
/-- PLMASK (R181). -/
def execPlmask (o : PlaneMask) (s : State) : Host.Outcome State Fault Refusal :=
  .next (s.guarded s.cur.mask [rdUlo o.a] fun s => s.setPlanes (s.spl.exec &&& maskLow (s.readU o.a.toNat)) o.p)
/-- PLSETV (R182). -/
def execPlsetv (o : PlSetV) (s : State) : Host.Outcome State Fault Refusal :=
  .next (s.guarded s.cur.mask [rdVlo o.a] fun s =>
    let v (i : Nat) : Nat := (s.readV o.a.toNat i).toNat % 2 ^ 32
    match s.grp.badPlanes s.cur.mask v with
    | some (x, m) => s.takeTrap 0x07 (BitVec.ofNat 64 x) m
    | none => s.modCur fun c => { c with newPlanes := (lanesOf c.mask).foldl (fun t i => t.insert i (BitVec.ofNat 3 (v i))) c.newPlanes })
/-- PLGET (R182). -/
def execPlget (o : PlGet) (s : State) : Host.Outcome State Fault Refusal :=
  .next (s.guarded s.cur.mask [wrV o.d] fun s => s.writeV o.d.toNat s.cur.mask 4 fun i => BitVec.ofNat 64 (s.grp.plane i))
/-- MSKOP (R180). -/
def execMskop (o : ThreeU) (s : State) : Host.Outcome State Fault Refusal :=
  .next (s.guarded s.cur.mask [rdUlo o.a, rdUlo o.b, wrU o.d] fun s =>
    let a := maskLow (s.readU o.a.toNat)
    let b := maskLow (s.readU o.b.toNat)
    let e := s.spl.exec
    (s.writeU o.d.toNat (e.setWidth 64) 2).setExec ((e &&& ~~~a) ||| (a &&& b)))
/-- QHLP (R65). -/
def execQhlp (s : State) : Host.Outcome State Fault Refusal :=
  let quad (p : Split) (i : Nat) : Bool :=
    p.owned.getLsbD i && !p.exec.getLsbD i && (List.range 4).any fun k => p.exec.getLsbD (i / 4 * 4 + k)
  .next (s.modSpl fun p => { p with hlp := maskOf (quad p) })

end Sys2Proof.Machine
end

