-- ==== Sys2Proof/Machine/Issue.lean ====
section
/-! DEFINITION. The issue of an instruction around its meaning: the fetch and checks over the occupied planes, the plane issues in order,
and what follows the last of them (spec/02_group_and_lanes.md R52 to R56; spec/03_instruction_encoding.md R94 to R96;
spec/06_control_planes_and_traps.md R174, R182, R184, R193; spec/11_die_memory_model_and_translation.md R329, R330, R335, R484). -/

namespace Sys2Proof.Machine

/-- How an issue of the plane whose words are decoded takes effect: the meaning of an instruction. -/
abbrev Meaning := Instr → State → Host.Outcome State Fault Refusal

/-- Whether helper lanes execute an instruction (R66): lane integer, logic and floating-point arithmetic, conversions, special functions
and quad exchanges. -/
def helperRuns (i : Instr) : Bool :=
  match i.toRaw with
  | some (.sl f) => f.op != 0x16 && f.op != 0x17
  | some (.ll f) =>
    let n := f.op.toNat
    decide (n ≤ 0x01D) || (decide (0x040 ≤ n) && decide (n ≤ 0x050)) || (decide (0x080 ≤ n) && decide (n ≤ 0x086)) || n == 0x0A2 || n == 0x0A3
  | _ => false

/-- Whether a plane issue of an instruction takes two lane-pipe cycles (R165): block 0x040 with an F64 source or result. -/
def twoCycles (i : Instr) : Bool :=
  match i with
  | .fadd o | .fsub o | .fmul o | .fmin o | .fmax o | .fscale o => o.e == .f64
  | .ffma o => o.e == .f64
  | .fabs o | .fneg o | .fclass o => o.e == .f64
  | .fcmp o => o.e == .f64
  | .fcmpv o => o.e == .f64
  | .frnd o => o.e == .f64
  | .fcvt o | .ftoi o => o.e == .f64 || o.s == .f64
  | .icvt o => o.e == .f64
  | _ => false

/-! ### Before the plane issues -/

/-- What the fetch and the checks of an offset leave to be done. -/
inductive Prep where
  /-- The issue is over: a trap, a fault or a wait. -/
  | stop
  /-- The words of the occupied planes, lowest plane first. -/
  | planes (l : List (Nat × List CodeWord))
deriving DecidableEq, Repr, Inhabited

/-- The issue in progress is set to a split's instruction, which keeps the name of its first attempt (R186). -/
def State.openIssue (s : State) (gid ent : Nat) : State :=
  let p := (s.group gid).split ent
  let n := p.iid.getD s.tick
  ({ s with cur := { Issue.none with gid := gid, ent := ent, off := p.off, iid := some n } }).modSpl fun p => { p with iid := some n }

/-- The split that issues cannot go on in this clk and stays READY. -/
def State.holdReady (s : State) : State := (s.modSpl fun p => { p with readyAt := s.clk + 1 }).setFlow .stall

/-- Checks 1 and 2 of R94 at a split's offset, with the fetch between them. -/
def State.fetchChecked (s : State) : State × Prep :=
  let g := s.grp
  let p := s.spl
  if g.regionLen ≤ p.off then (s.takeTrapAt 0x04 p.off (BitVec.ofNat 64 g.regionLen) p.exec, .stop)
  else match s.fetchPlanes s.cur.gid p.off (g.occupied p.owned) with
    | (s, .error (pl, f)) => (s.unfetchedHere (g.codeVa pl p.off) f, .stop)
    | (s, .ok l) => match planeCheck l with
      | some cause => (s.takeTrapAt cause p.off (BitVec.ofNat 64 p.off) p.exec, .stop)
      | none => (s, if l.isEmpty then .stop else .planes l)

/-- Whether a split stands at the end of an iteration that is still to be applied: its back-edge could not be taken when it came there (R174). -/
def Split.atLoopEnd (p : Split) : Bool := p.loops.head?.any fun l => l.le == p.off

/-- What precedes the plane issues of a split's next instruction. A back-edge that is still to be taken is taken first (R174), and a split
resumed from the deferred area is checked as a transfer's target (R60, R86), and raises MEM_POISON where its entry was poisoned (R221; log 124). -/
def State.prepare (s : State) (gid ent : Nat) : State × Prep :=
  let s := s.openIssue gid ent
  match (s.group gid).splits.find? ent with
  | none => (s, .stop)
  | some p =>
    let t := if p.atLoopEnd then (s.loopEndAt gid ent).openIssue gid ent else s
    if t.spl.st ≠ .ready ∨ t.spl.readyAt ≠ p.readyAt ∨ t.grp.handler ≠ s.grp.handler then (t, .stop)
    else match (if p.resumed then p.spoiled else none) with
    | some a => (t.takeTrapAt 0x16 p.off (BitVec.ofNat 64 a) p.exec, .stop)
    | none => match (if p.resumed then t.transfer t.grp (t.grp.occupied p.owned) p.off else .ok) with
      | .ok => (t.modSpl fun p => { p with resumed := false }).fetchChecked
      | .bad cause => (t.takeTrapAt cause p.off (BitVec.ofNat 64 p.off) p.exec, .stop)
      | .unread va f => (t.unfetchedHere va f, .stop)

/-! ### The plane issues -/

/-- A decode trap of a plane issue (R94 checks 3 to 5, R95). -/
def State.decodeTrap (s : State) (e : DecodeError) : State :=
  let (isPrefix, k) := decodePlace e
  s.takeTrap (if isPrefix then 0x02 else 0x01) (BitVec.ofNat 64 (s.cur.off + 4 * k)) s.cur.mask

/-- The issue in progress, set to a plane with its masks and its prefix (R19, R56). -/
def State.atPlane (s : State) (plane : Nat) (m h : Mask) (pre : Option Prefix) (next : Nat) : State :=
  s.modCur fun c => { c with
    plane := plane, mask := m, help := h, next := next
    rm := pre.bind fun p => Rm.ofCode p.rm.toNat
    sat := match pre with | some p => (if p.sat = 1 then .quiet else if p.sat = 2 then .flagged else .off) | none => .off
    ftz := match pre with | some p => p.ftz | none => false }

/-- One plane issue (R56, R94): decode for the active lanes, then the meaning. A plane without active lanes makes no decode check of a lane
word, and issues only an instruction that helper lanes execute, or one that issues once for the split. -/
def State.issuePlane (ex : Meaning) (s : State) (plane : Nat) (words : List CodeWord) (m h : Mask) (next : Nat) (always : Bool) :
    Host.Outcome State Fault Refusal :=
  if m = 0 ∧ h = 0 ∧ !always then .next s
  else match decodeWords words with
    | .error e => if m = 0 ∧ !s.cur.uni then .next s else .next ((s.atPlane plane m 0 none next).decodeTrap e)
    | .ok (c, _) =>
      let runs := helperRuns c.instr
      if m = 0 ∧ !runs ∧ !always then .next s
      else
        match ex c.instr (s.atPlane plane m (if runs then h else 0) c.pre next) with
        | .next t =>
          .next (t.modCur fun c' => { c' with
            lower := c'.lower || t.cur.flow = .run
            cycles := c'.cycles + (if t.cur.flow = .stall then 0 else if twoCycles c.instr then 2 else 1) })
        | r => r

/-- The plane issues of a plane-variant instruction in ascending order of plane (R56); those below RPL are left out (R193). -/
def State.issuePlanes (ex : Meaning) (next rpl : Nat) (exec hlp : Mask) : List (Nat × List CodeWord) → State → Host.Outcome State Fault Refusal
  | [], s => .next s
  | (p, ws) :: rest, s =>
    if p < rpl then State.issuePlanes ex next rpl exec hlp rest (s.modCur fun c => { c with lower := true })
    else
      let lanes := s.grp.lanesIn p
      match s.issuePlane ex p ws (exec &&& lanes) (hlp &&& lanes) next false with
      | .next t => if t.cur.flow = .run then State.issuePlanes ex next rpl exec hlp rest t else .next t
      | r => r

/-- The issues of an instruction after its checks (R56): one for each plane, or one for the split. -/
def State.issueAll (ex : Meaning) (s : State) (l : List (Nat × List CodeWord)) : Host.Outcome State Fault Refusal :=
  let p := s.spl
  let exec := match p.retry with | some f => f | none => p.exec
  let hlp := if p.retry.isSome then 0 else p.hlp
  match l with
  | [] => .next s
  | (pl, ws) :: _ =>
    let next := p.off + 4 * wordCount ws
    let s := (s.modSpl fun p => { p with rpl := 0, part := none }).modCur fun c =>
      match p.part with
      | some x => { c with next := next, fset := x.lanes, fent := x.entries, fva := x.vas, newPlanes := x.planes }
      | none => { c with next := next }
    if planeVariant ws then s.issuePlanes ex next p.rpl exec hlp l
    else s.issuePlane ex pl ws exec hlp next true

/-! ### After the plane issues -/

/-- The W of an instruction: that of its short word or head (R83). -/
def stallField : List CodeWord → Nat
  | a :: b :: _ => if (wordLS a).toNat = 2 then (wordW b).toNat else (wordW a).toNat
  | [a] => (wordW a).toNat
  | [] => 0

/-- Whether the words of a plane name an instruction that helper lanes execute (R66). -/
def helperWords (ws : List CodeWord) : Bool :=
  match decodeWords ws with
  | .ok (c, _) => helperRuns c.instr
  | .error _ => false

/-- Whether a plane makes an issue of an instruction (R56): its lanes of EXEC, of the lanes that alone retry, or of HLP where helpers execute it;
planes below RPL make none (R193). -/
def Split.issuesIn (p : Split) (lanes : Mask) (x : Nat × List CodeWord) : Bool :=
  !planeVariant x.2
  || (decide (p.rpl ≤ x.1) && ((p.retry.getD p.exec &&& lanes) != 0 || p.retry.isNone && (p.hlp &&& lanes) != 0 && helperWords x.2))

/-- The W that applies after an instruction (R56): the largest of the planes that issue, or of all where none does (log 32). -/
def State.stallOf (s : State) (l : List (Nat × List CodeWord)) : Nat :=
  let issued := l.filter fun x => s.spl.issuesIn (s.grp.lanesIn x.1) x
  ((if issued.isEmpty then l else issued).map fun x => stallField x.2).foldl max 0

/-- An issue takes its group's issue of this clk (R197), and its pipe for the issue cycles (R199); wake reasons add up no longer (R210). -/
def State.takeSlot (s : State) (uni : Bool) : State :=
  let n := max s.cur.cycles 1
  let q := s.grp.cx.grpid.toNat % 4
  (s.modGrp fun g => { g with lastIssue := s.clk + 1 }).modCore s.curCore fun k =>
    { k with pipe := k.pipe.insert (2 * q + (if uni then 1 else 0)) (s.clk + n), woken := false, idleFrom := s.clk + n }

/-- The end of an instruction that has issued: its split's next issue waits out the issue cycles and W (R184), and its wait count starts
anew (R198). -/
def State.settleIssue (s : State) (uni : Bool) (w : Nat) : State :=
  let at_ := s.clk + max s.cur.cycles 1 + w
  (s.modSpl fun p =>
    { p with readyAt := at_, candAt := at_, lastIssue := s.clk, promoted := false, woke := none, answer := none, expiry := none, merged := [], rejects := 0, mid := false }).takeSlot uni

/-- Whether an instruction that waits for this reason has made its issue, and has only its end before it (R197). -/
def Wait.issued : Wait → Bool
  | .reconv | .rcv .. | .loadSlot | .engineSlot | .ladleSlot => false
  | _ => true

/-- Whether a split waits after an issue. -/
def Split.waitsIssued (p : Split) : Bool := match p.st with | .waiting w => w.issued | _ => false

/-- The split goes on at the next instruction; a split that held a trap while it retried raises it instead (R330, R484). -/
def State.goOn (s : State) : State :=
  match s.spl.held with
  | some t => (s.raiseAt s.cur.gid s.cur.ent t).setFlow .trapped
  | none => (s.modSpl fun p => { p with off := s.cur.next, retry := none, since := none, owes := [], idxExec := none, iid := none }).loopEnd

/-- The lanes with served faults of an instruction whose plane issues are complete (R329, R330, R484). -/
def State.divideFaulted (s : State) : State :=
  let f := s.cur.fset
  let gid := s.cur.gid
  let e := s.cur.ent
  let p := s.spl
  let g := s.grp
  let va := (s.cur.fva.find? (lowest f)).getD 0
  let owes := s.cur.fva.map fun x => x.2.toNat / 8
  match (if f ≠ p.exec ∧ g.handler ≠ some e then g.freeEntry else none) with
  | some e' =>
    let st := SplitState.faulted f s.cur.fent (p.since.getD s.uid) false none va
    let child := { Split.fresh p.off f f p.origin p.sc p.loops s.clk with st := st, owes := owes, idxExec := some (p.idxExec.getD p.exec), iid := p.iid }
    let s := (s.modGroup gid fun g => { g with splits := (g.splits.modify e fun p =>
      { p with owned := p.owned &&& ~~~f, exec := p.exec &&& ~~~f }).insert e' child }).bump
    match s.cur.ftrap with
    | some t => (s.raiseAt gid e t).setFlow .trapped
    | none => s.goOn
  | none =>
    let held := match s.cur.ftrap with | some t => some (t.lower p.held) | none => p.held
    ((s.setFaulted gid e f s.cur.fent false held va).modSpl fun p => { p with owes := owes }).setFlow .stall

/-- What follows the last plane issue. An instruction that stalls before it keeps what its plane issues have left, and those have taken their issue
cycles (R184, R197). -/
def State.closeIssue (s : State) (uni : Bool) (w rpl : Nat) : State :=
  match s.cur.flow with
  | .run =>
    let s := s.applyPlanes
    let s := if s.cur.fset ≠ 0 then s.divideFaulted else s.goOn
    s.settleIssue uni w
  | .moved => (s.modSpl fun p => { p with iid := if p.iid = s.cur.iid then none else p.iid }).loopEnd.settleIssue uni w
  | .trapped => if s.cur.fset ≠ 0 then s.divideFaulted.settleIssue uni w else s.settleIssue uni w
  | .gone => s.settleIssue uni w
  | .stall =>
    let c := s.cur
    let part := if c.fset = 0 ∧ c.newPlanes = [] then none else some ⟨c.fset, c.fent, c.fva, c.newPlanes⟩
    let t := s.modSpl fun p => { p with rpl := if c.lower then c.plane else rpl, part := part, mid := p.mid || c.cycles != 0,
                                        readyAt := max p.readyAt (s.clk + c.cycles) }
    if s.spl.waitsIssued || c.cycles != 0 then t.takeSlot uni else t

/-- The step counter advances and the issue in progress is forgotten. -/
def State.tickOn (s : State) : State := { s with tick := s.tick + 1, cur := Issue.none }

/-- The issue decision for a split: the fetch and its checks, the meaning of its instruction in each plane issue, and what follows. -/
def State.issueWith (ex : Meaning) (s : State) (gid ent : Nat) : Host.Outcome State Fault Refusal :=
  match s.prepare gid ent with
  | (t, .stop) => .next t.tickOn
  | (t, .planes l) =>
    let p := t.spl
    let uni := match l with | (_, w :: _) :: _ => wordP w | _ => false
    let w := t.stallOf l
    match (t.modCur fun c => { c with uni := uni, w := w }).issueAll ex l with
    | .next u => .next (u.closeIssue uni w p.rpl).tickOn
    | r => r

end Sys2Proof.Machine
end

