-- ==== Sys2Proof/Machine/Sync.lean ====
section
/-! DEFINITION. Waits, batches, barriers, fences, mailboxes and SLEEP (spec/08_core_memory_and_ladle.md R235 to R242, R250;
spec/07_core_issue_pool_and_mailboxes.md R213 to R220; spec/10_cluster_and_casts.md R298, R299; spec/12_die_launch_and_preemption.md
R360). -/

namespace Sys2Proof.Machine

/-! ### Batches (R237) and the record of ladle and riddle errors (R250) -/

/-- A closed batch completes: BDONE follows when it was the oldest. -/
def Group.batchComplete (g : Group) (n : Nat) : Group :=
  let rest := g.closed.filter (· != n)
  let up : Nat := match rest with | h :: _ => h | [] => g.bseq.toNat
  { g with closed := rest, batches := g.batches.erase n,
           bdone := if g.closed.head? = some n then BitVec.ofNat 32 (up + 2 ^ 32 - 1) else g.bdone }

/-- A command of a batch completes; the wait for the batch ends a gating (R210). -/
def State.batchStep (s : State) (gid n : Nat) : State :=
  let g := s.groupAny gid
  let left := g.batches.getD 0 n - 1
  let s := s.modGroupAny gid fun g => { g with batches := g.batches.setD 0 n left }
  if left = 0 ∧ g.closed.contains n then (s.modGroupAny gid fun g => g.batchComplete n).wake g.cx.core whyBatch else s

/-- A command joins the open batch; answers its number. -/
def State.joinBatch (s : State) : State × Nat :=
  let n := s.grp.bseq.toNat
  (s.modGrp fun g => { g with batches := g.batches.setD 0 n (g.batches.getD 0 n + 1) }, n)

/-- BCLOSE (R237, R482). -/
def State.closeBatch (s : State) (d : UReg) : State :=
  s.guarded s.cur.mask [wrU d] fun s =>
    let n := s.grp.bseq.toNat
    let s := s.modGrp fun g =>
      let g := { g with bseq := g.bseq + 1, closed := g.closed ++ [n] }
      if g.batches.getD 0 n = 0 then g.batchComplete n else g
    s.writeU d.toNat (BitVec.ofNat 64 n) 2

/-- Raises the recorded error of the group's ladle and riddle commands, if one is held, before the wait (R250). -/
def State.deliver (s : State) (body : State → State) : State :=
  match s.grp.lerr with
  | some e => s.deliverTrap .list e.cause.toNat e.taddr
  | none => body s

/-- BWAIT (R237). -/
def State.batchWait (s : State) (a : UReg) : State :=
  match s.spl.woke with
  | some (.batches _) => s.deliver id
  | _ => s.guarded s.cur.mask [rdUlo a] fun s => s.deliver fun s =>
    let n := (s.readU a.toNat).toNat % 2 ^ 32
    if s.grp.batchesDone n then s else s.waitFor (.batches n)

/-- WAITCNT (R236): once the count is down, the loads that have completed are covered (R228). -/
def State.countWait (s : State) (n : Nat) : State :=
  if s.grp.lcnt ≤ n then s.modGrp fun g => { g with uncov := g.uncov.filter fun u => (g.accs.find? u.acc).isSome }
  else s.waitFor (.loads n)

/-! ### Barriers (R238, R299) -/

/-- A barrier after the lanes of a group have registered. -/
def Barrier.register (b : Barrier) (gid : Nat) (m : Mask) (stamp : Nat) : Barrier :=
  { b with regs := b.regs.insert gid (((b.regs.find? gid).map (·.1)).getD 0 ||| m, stamp) }

/-- BAR: registers the lanes of the merged EXEC and waits for the phase. -/
def State.blockBarrier (s : State) (k : Nat) : State :=
  match s.spl.woke with
  | some (.bar _ _) => s
  | _ => s.reconverging fun s =>
    let b := barrierOf s.blk.bars k
    let r := b.register s.cur.gid s.spl.exec s.uid
    ((s.modBlock s.grp.cx.blk fun x => { x with bars := x.bars.insert k r }).bump).waitFor (.bar k b.phase)

/-- CBAR: the same over the cast; its end is an acquire of cast scope. -/
def State.castBarrier (s : State) (k : Nat) : State :=
  match s.spl.woke with
  | some (.cbar _ _) => s.acquireAt s.curCore .cast
  | _ => s.reconverging fun s =>
    let b := barrierOf (s.castOf s.grp.cx.cast).bars k
    let r := b.register s.cur.gid s.spl.exec s.uid
    ((s.modCast s.grp.cx.cast fun x => { x with bars := x.bars.insert k r }).bump).waitFor (.cbar k b.phase)

/-- Whether every group of a list has arrived at a barrier: every lane that has not exited has registered, and the accesses made before
that have been performed. A group that has ended counts as arrived. -/
def State.allArrived (s : State) (b : Barrier) (gs : List Nat) : Bool :=
  gs.all fun n =>
    let g := s.group n
    (s.groups.find? n).isNone || g.ended || (match b.regs.find? n with
      | some (m, st) => g.alive &&& ~~~m == 0 && g.releasedBefore st
      | none => false)

/-- The next phase. -/
def Barrier.flip (b : Barrier) : Barrier := ⟨b.phase + 1, []⟩

/-- Completes the barrier phases of a block that have all their arrivals; a BARRIER wake reason. -/
def State.settleBlockBars (s : State) (n : Nat) : State :=
  let b := s.block n
  b.bars.foldl (fun s p =>
    if !p.2.regs.isEmpty && s.allArrived p.2 b.groups then
      (s.modBlock n fun x => { x with bars := x.bars.insert p.1 p.2.flip }).wake b.core whyBarrier
    else s) s

/-- Completes the barrier phases of a cast: first the release at cast scope of every block's core. -/
def State.settleCastBars (s : State) (n : Nat) : State :=
  let c := s.castOf n
  c.bars.foldl (fun s p =>
    if !p.2.regs.isEmpty && s.allArrived p.2 (c.blocks.flatMap fun b => (s.block b).groups) then
      let cores := c.blocks.map fun b => (s.block b).core
      let s := cores.foldl (fun s k => (s.releaseAt k .cast).wake k whyBarrier) s
      s.modCast n fun x => { x with bars := x.bars.insert p.1 p.2.flip }
    else s) s

/-! ### Phase barriers (R239) -/

/-- Goes on with the block and address of a phase barrier word, or raises the trap of its address, with BLAME := EXEC. -/
def State.phaseWord (s : State) (cw : Bool) (addr : Nat) (go : State → Nat → Nat → State) : State :=
  let k := if cw then scrCast else scrOwn
  s.withChecks [⟨0, BitVec.ofNat 64 addr, s.checkPoison k.space k.scope 8 (k.check s 8 addr)⟩] fun s l => match l with
    | ⟨_, _, .pass p blk _ _⟩ :: _ => go s blk p
    | ⟨_, va, .fail cause⟩ :: _ => s.trapExec cause va
    | _ => s

/-- BARV: one arrival, which releases what its group did before (R220), and whose answer counts as a load. -/
def State.arrive (s : State) (o : PhaseArr) : State :=
  s.counted fun s => s.guarded s.cur.mask (rdUlo o.a :: o.b.toList.map rdU ++ [wrU o.d]) fun s =>
    let addr := (s.readU o.a.toNat).toNat % 2 ^ 32
    let k := if o.cw then scrCast else scrOwn
    let (c, b) : Nat × Int := match o.b with
      | none => (1, 0)
      | some r => let x := s.readU r.toNat; (wbits x 15 0, sext 31 (wbits x 46 16))
    s.phaseWord o.cw addr fun s blk p =>
      s.addPieces (mkAcc (.arrive c b) k.space 8 true .rel k.scope .uni [mkPiece 0 p blk false false 0 o.d.toNat])

/-- BWAITP: waits until the phase differs from sb[0]; the new phase is acquired (R220). A word of another rank is looked at by messages (R294). -/
def State.phaseWait (s : State) (o : PhaseWait) : State :=
  let seen (s : State) : State := if o.cw then s.acquireAt s.curCore .cast else s
  match s.spl.woke with
  | some (.phase ..) => s.deliver seen
  | _ => s.guarded s.cur.mask [rdUlo o.a, rdUlo o.b] fun s => s.deliver fun s =>
    let addr := (s.readU o.a.toNat).toNat % 2 ^ 32
    let old := (s.readU o.b.toNat).getLsbD 0
    s.phaseWord o.cw addr fun s blk p =>
      if blk ≠ s.grp.cx.blk then
        (s.addPieces (mkAcc .load .window 8 true .none .cast .phase [mkPiece 0 p blk false false 0 0])).waitFor (.phase blk p old (some s.uid))
      else if ((s.block blk).readN p 8).testBit 32 != old then seen s
      else s.waitFor (.phase blk p old none)

/-! ### Fences (R240) -/

/-- FENCE and FENCEE: at the end of the wait, a release and an acquire of the scope (R312). -/
def State.fenceOp (s : State) (sc : Scope) (loads : Bool) : State :=
  let finish (s : State) : State := (s.releaseAt s.curCore sc).acquireAt s.curCore sc
  match s.spl.woke with
  | some (.fence ..) => finish s
  | _ => if s.grp.performedBefore s.uid loads then finish s else (s.waitFor (.fence s.uid sc loads)).bump

/-! ### Mailboxes (R213 to R216, R241) -/

/-- A mailbox of a core. -/
def Core.box (c : Core) (m : Nat) : Mbox := (c.mbox.find? m).getD Mbox.reset

/-- A mailbox instruction: its operation is sent to the mailbox and the split waits for the answer; then SC and, where an entry came out,
sd are written; where splits merged while they waited, for each answer, that of the merged split last (log 24). An entry that is poisoned raises
MEM_POISON and is consumed (R221); the spec names no detail for TADDR (log 5). -/
def State.mailOp (s : State) (uses : List Use) (dst : Option UReg) (core m : State → Nat) (op : State → MbOp) : State :=
  match s.spl.answer with
  | some a =>
    let as := s.spl.merged.filterMap (·.2) ++ [a]
    if as.any fun a => a.2.2 ≠ 0 then s.clearWoke.trapExec 0x16 (Config.freeWord s.tick 4096 0)
    else as.foldl (fun s a =>
      let s := s.writeSc a.1
      match dst with
      | some d => if a.1 then s.writeU d.toNat a.2.1 0 else s
      | none => s) s
  | none => s.guarded s.cur.mask (uses ++ [wrSc] ++ dst.toList.map wrU) fun s =>
    let r : MbReq := ⟨core s, m s, op s, s.cur.gid, s.curCore, s.grp.cx.slot⟩
    let n := s.uid
    ({ s with mbreqs := s.mbreqs.insert n r }.bump).waitFor (.answer n)

/-- The core of the issuing die that sa[5:0] names. -/
def State.dieCore (s : State) (a : UReg) : Nat := s.curDie * 64 + wbits (s.readU a.toNat) 5 0

/-- A mailbox operation on a ring (R214): the ring afterwards, SC, the entry taken, and its poison. -/
def Mbox.apply (b : Mbox) (op : MbOp) : Mbox × Bool × Word × Bool :=
  let put (v : Word) : Mbox × Bool × Word × Bool :=
    if b.items.length < 64 then ({ b with items := b.items ++ [(v, false)] }, true, 0, false) else (b, false, 0, false)
  let oldest : Mbox × Bool × Word × Bool := match b.items with
    | [] => (b, false, 0, false)
    | x :: rest => (⟨(b.top + 1) % 64, rest⟩, true, x.1, x.2)
  match op with
  | .send v | .push v => put v
  | .recv | .steal => oldest
  | .pop => match b.items.getLast? with
    | none => (b, false, 0, false)
    | some x => ({ b with items := b.items.dropLast }, true, x.1, x.2)

/-- Whether an operation puts an entry in. -/
def MbOp.puts : MbOp → Bool
  | .send _ | .push _ => true
  | _ => false

/-- Whether a request is from the owner of its mailbox. -/
def MbReq.own (r : MbReq) : Bool := r.fromCore == r.core

/-- Whether request r comes before request q at a mailbox (R215). Of two requests that R215 does not order, of one core that is not the owner or of
one group of the owner, the earlier is applied first (log 107). -/
def MbReq.before (r q : MbReq) : Bool :=
  if r.own != q.own then r.own
  else if r.own then decide (r.slot < q.slot)
  else decide (r.fromCore < q.fromCore)

/-- The next operation of a mailbox among those whose group has performed what the operation must release (R216). -/
def State.nextMail (s : State) (core m : Nat) : Option (Nat × MbReq) :=
  s.mbreqs.foldl (fun (best : Option (Nat × MbReq)) p =>
    if p.2.core ≠ core ∨ p.2.box ≠ m ∨ (p.2.op.puts && !(s.group p.2.gid).releasedBefore p.1) then best
    else match best with
      | none => some p
      | some q => if p.2.before q.2 then some p else best) none

/-- A split after an answer to a request that it waits for, itself or for a split that merged into it. A line's answer serves both. -/
def Split.answered (p : Split) (req : Nat) (a : Bool × Word × Word) : Split :=
  match p.st with
  | .waiting w =>
    if w.request = some req then { p with answer := some a }
    else match w with
      | .line .. => if p.merged.any fun m => m.1 == req then { p with answer := some a } else p
      | _ => { p with merged := p.merged.map fun m => if m.1 = req then (req, some a) else m }
  | _ => p

/-- Gives an answer to the split of a group that waits for it. -/
def State.giveAnswer (s : State) (gid req : Nat) (a : Bool × Word × Word) : State :=
  s.modGroupAny gid fun g => { g with splits := g.splits.map fun p => (p.1, p.2.answered req a) }

/-- Applies the next operation of a mailbox, if one has reached it. A retired core's mailbox answers SC = 0 (R224). -/
def State.mailStep (s : State) (core m : Nat) : State :=
  match s.nextMail core m with
  | none => s
  | some (n, r) =>
    let s := { s with mbreqs := s.mbreqs.erase n }
    if (s.core core).retired ∨ (s.cluster (clusterOfCore core)).retired then s.giveAnswer r.gid n (false, 0, 0)
    else
      let (b, sc, v, x) := ((s.core core).box m).apply r.op
      let s := if sc && r.op.puts then s.releaseAt r.fromCore .die else s
      let s := s.modCore core fun k => { k with mbox := k.mbox.insert m b, mbWakes := if sc && r.op.puts then k.mbWakes + 1 else k.mbWakes }
      let s := if sc && r.op.puts then s.wake core whyMailbox else s
      let s := if sc && !r.op.puts then s.acquireAt r.fromCore .die else s
      s.giveAnswer r.gid n (sc, v, if x then 1 else 0)

/-! ### Meanings -/

/-- WAITCNT (R236). -/
def execWaitcnt (o : Count) (s : State) : Host.Outcome State Fault Refusal := .next (s.countWait o.n.toNat)
/-- The short WAITCNT. -/
def execWaitcntShort (o : ShCount) (s : State) : Host.Outcome State Fault Refusal := .next (s.countWait o.n.toNat)
/-- BCLOSE (R237). -/
def execBclose (o : DestU) (s : State) : Host.Outcome State Fault Refusal := .next (s.closeBatch o.d)
/-- The short BCLOSE. -/
def execBcloseShort (o : ShReg) (s : State) : Host.Outcome State Fault Refusal := .next (s.closeBatch o.d)
/-- BWAIT (R237). -/
def execBwait (o : OneU) (s : State) : Host.Outcome State Fault Refusal := .next (s.batchWait o.a)
/-- The short BWAIT. -/
def execBwaitShort (o : ShReg) (s : State) : Host.Outcome State Fault Refusal := .next (s.batchWait o.d)
/-- BAR (R238). -/
def execBar (o : BarNo) (s : State) : Host.Outcome State Fault Refusal := .next (s.blockBarrier o.k.toNat)
/-- CBAR (R299). -/
def execCbar (o : BarNo) (s : State) : Host.Outcome State Fault Refusal := .next (s.castBarrier o.k.toNat)
/-- BARV (R239). -/
def execBarv (o : PhaseArr) (s : State) : Host.Outcome State Fault Refusal := .next (s.arrive o)
/-- BWAITP (R239). -/
def execBwaitp (o : PhaseWait) (s : State) : Host.Outcome State Fault Refusal := .next (s.phaseWait o)
/-- FENCE (R240). -/
def execFence (o : ScopeOnly) (s : State) : Host.Outcome State Fault Refusal := .next (s.fenceOp o.scope true)
/-- FENCEE (R240). -/
def execFencee (s : State) : Host.Outcome State Fault Refusal := .next (s.fenceOp .die false)
/-- MBSEND (R241). -/
def execMbsend (o : MbSend) (s : State) : Host.Outcome State Fault Refusal :=
  .next (s.mailOp [rdUlo o.a, rdU o.b] none (fun s => s.dieCore o.a) (fun _ => o.m.toNat) fun s => .send (s.readU o.b.toNat))
/-- MBRECV (R241). -/
def execMbrecv (o : MbTake) (s : State) : Host.Outcome State Fault Refusal :=
  .next (s.mailOp [] (some o.d) (fun s => s.curCore) (fun _ => o.m.toNat) fun _ => .recv)
/-- MBPUSH (R241). -/
def execMbpush (o : MbPush) (s : State) : Host.Outcome State Fault Refusal :=
  .next (s.mailOp [rdU o.b] none (fun s => s.curCore) (fun _ => o.m.toNat) fun s => .push (s.readU o.b.toNat))
/-- MBPOP (R241). -/
def execMbpop (o : MbTake) (s : State) : Host.Outcome State Fault Refusal :=
  .next (s.mailOp [] (some o.d) (fun s => s.curCore) (fun _ => o.m.toNat) fun _ => .pop)
/-- MBSTEAL (R241). -/
def execMbsteal (o : MbSteal) (s : State) : Host.Outcome State Fault Refusal :=
  .next (s.mailOp [rdUlo o.a] (some o.d) (fun s => s.dieCore o.a) (fun _ => o.m.toNat) fun _ => .steal)
/-- SLEEP (R242). -/
def execSleep (o : Sleep) (s : State) : Host.Outcome State Fault Refusal :=
  .next (match s.spl.woke with
    | some (.sleep ..) => s
    | _ => s.guarded s.cur.mask [rdUlo o.a] fun s =>
      s.waitFor (.sleep (s.spl.readyAt + (s.readU o.a.toNat).toNat % 2 ^ 32) o.mb (s.core s.curCore).mbWakes))
/-- YIELD (R360): while a pre-emption of its block is asked for or under way, its split waits. -/
def execYield (s : State) : Host.Outcome State Fault Refusal :=
  .next (if (s.blk.stopping || s.blk.asked) && s.spl.woke != some .preempt then s.waitFor .preempt else s)

end Sys2Proof.Machine
end

