-- ==== Sys2Proof/Machine/SpecialReg.lean ====
section
/-! DEFINITION. The special registers: GETSR, SETSR (spec/02_group_and_lanes.md R50, R51, R53, R58;
spec/04_integer_and_uniform_instructions.md R137; spec/06_control_planes_and_traps.md R176, R187, R188) and the digest enables
(spec/16_fabric_collectives_and_checkpoint.md R461). -/

namespace Sys2Proof.Machine

/-- Level k of a loop stack, counted from the bottom (R173, R176). -/
def loopLevel (ls : List Loop) (k : Nat) : Option Loop := ls.reverse[k]?

/-- A loop stack with level k changed, counted from the bottom; nothing where the stack is not that deep (R176). -/
def setLoopLevel (ls : List Loop) (k : Nat) (f : Loop → Loop) : List Loop := (ls.reverse.modify k f).reverse

/-- SPLITS (R58). -/
def State.splitsReg (s : State) : Word :=
  let g := s.grp
  let live := (List.range 4).foldl (fun a e => if (g.splits.find? e).isSome then a + 2 ^ e else a) 0
  BitVec.ofNat 64 (s.cur.ent % 4 + live * 2 ^ 4 + g.defCount * 2 ^ 8 + g.cx.defCap * 2 ^ 13)

/-- WAKEWHY (R210). -/
def State.wakeReg (s : State) : Word :=
  let c := s.core s.curCore
  BitVec.ofNat 64 (c.why.toNat + c.wakes.toNat * 2 ^ 32)

/-- RSTAT (R418). -/
def State.rstatReg (s : State) : Word :=
  let g := s.grp
  let out := (s.packets.filter fun p => p.2.countsFor s.cur.gid).length
  BitVec.ofNat 64 ((match g.rerr with | some (c, _, _) => if c = 0x19 then 2 else 1 | none => 0)
    + g.rreason.toNat * 2 ^ 8 + min out 65535 * 2 ^ 32)

/-- The 64 bits of a special register, as the issuing split reads it (R50). -/
def State.getReg (s : State) (r : SpecReg) : Word :=
  let g := s.grp
  let p := s.spl
  let bit (b : Bool) : Word := if b then 1 else 0
  let lb (k : Nat) : Word := BitVec.ofNat 64 ((loopLevel s.loopRegs k).elim 0 (·.lb))
  let le (k : Nat) : Word := BitVec.ofNat 64 ((loopLevel s.loopRegs k).elim 0 (·.le))
  let lc (k : Nat) : Word := ((loopLevel s.loopRegs k).elim 0#32 (·.lc)).setWidth 64
  match r with
  | .exec => p.exec.setWidth 64
  | .sc => bit s.readSc
  | .fpm => g.fpm.setWidth 64
  | .fpst => g.fpst.setWidth 64
  | .lcnt => BitVec.ofNat 64 g.lcnt
  | .bseq => g.bseq.setWidth 64
  | .bdone => g.bdone.setWidth 64
  | .mcnt => BitVec.ofNat 64 g.mcnt
  | .hlp => p.hlp.setWidth 64
  | .sbchk => bit g.sbchk
  | .rcvf => bit p.rcvf
  | .creg => g.cx.creg
  | .splits => s.splitsReg
  | .grpid => g.cx.grpid.setWidth 64
  | .blkid => g.cx.blkid.setWidth 64
  | .castid => BitVec.ofNat 64 (g.cx.castid.toNat + g.cx.rank * 2 ^ 32)
  | .pourid => g.cx.pourid.setWidth 64
  | .coreid => BitVec.ofNat 64 (g.cx.core % 64)
  | .clusid => BitVec.ofNat 64 (g.cx.core % 64 / 8)
  | .dieid => BitVec.ofNat 64 s.curDie
  | .nodeid => BitVec.ofNat 64 (s.nodeId s.curDie)
  | .nblk => g.cx.nblk.setWidth 64
  | .ngrp => g.cx.ngrp.setWidth 64
  | .tcause => g.tcause
  | .taddr => g.taddr
  | .toff => g.toff
  | .tmask => g.tmask
  | .svpl0 => g.svpl0
  | .svpl1 => g.svpl1
  | .wakewhy => s.wakeReg
  | .cyc => BitVec.ofNat 64 (s.now - (s.die s.curDie).resetClk)
  | .dgst => g.dgst
  | .rstat => s.rstatReg
  | .parks => g.parks
  | .lb0 => lb 0 | .lb1 => lb 1 | .lb2 => lb 2 | .lb3 => lb 3
  | .le0 => le 0 | .le1 => le 1 | .le2 => le 2 | .le3 => le 3
  | .lc0 => lc 0 | .lc1 => lc 1 | .lc2 => lc 2 | .lc3 => lc 3

/-- Changes the loop stack that the special registers reach (R192). -/
def State.modLoops (s : State) (f : List Loop → List Loop) : State :=
  if s.grp.handler = some s.cur.ent then s.modGrp fun g => { g with aside := f g.aside }
  else s.modSpl fun p => { p with loops := f p.loops }

/-- The low bits of a word. -/
def lowBits (n : Nat) (x : Word) : Word := BitVec.ofNat 64 (x.toNat % 2 ^ n)

/-- The writable bits of TCAUSE (R187). -/
def tcauseMask : Word := 0x701FF

/-- A write of a special register, where its access is RW (R50); none where it is R throughout. -/
def State.setSpecial (s : State) (r : SpecReg) (x : Word) : Option State :=
  let lb (k : Nat) : Option State := some (s.modLoops fun l => setLoopLevel l k fun v => { v with lb := wbits x 25 0 })
  let le (k : Nat) : Option State := some (s.modLoops fun l => setLoopLevel l k fun v => { v with le := wbits x 25 0 })
  let lc (k : Nat) : Option State := some (s.modLoops fun l => setLoopLevel l k fun v => { v with lc := x.setWidth 32 })
  match r with
  | .exec => some (s.setExec (maskLow x))
  | .sc => some (s.writeSc (x.getLsbD 0))
  | .fpm => some (s.modGrp fun g => { g with fpm := fpmWrite x })
  | .fpst => some (s.modGrp fun g => { g with fpst := x.setWidth 5 })
  | .hlp => some (s.modSpl fun p => { p with hlp := maskLow x &&& p.owned &&& ~~~p.exec })
  | .sbchk => some (s.modGrp fun g => { g with sbchk := x.getLsbD 0 })
  | .rcvf => some (s.modSpl fun p => { p with rcvf := x.getLsbD 0 })
  | .tcause => some (s.modGrp fun g => { g with tcause := (g.tcause &&& ~~~tcauseMask) ||| (x &&& tcauseMask) })
  | .taddr => some (s.modGrp fun g => { g with taddr := x })
  | .toff => some (s.modGrp fun g => { g with toff := lowBits 26 x })
  | .tmask => some (s.modGrp fun g => { g with tmask := x })
  | .svpl0 => some (s.modGrp fun g => { g with svpl0 := lowBits 48 x })
  | .svpl1 => some (s.modGrp fun g => { g with svpl1 := lowBits 48 x })
  | .lb0 => lb 0 | .lb1 => lb 1 | .lb2 => lb 2 | .lb3 => lb 3
  | .le0 => le 0 | .le1 => le 1 | .le2 => le 2 | .le3 => le 3
  | .lc0 => lc 0 | .lc1 => lc 1 | .lc2 => lc 2 | .lc3 => lc 3
  | _ => none

/-- What the read of a special register reads, and what its write writes. -/
def scUse (r : SpecReg) (u : Use) : List Use := if r = .sc then [u] else []

/-! ### Meanings -/

/-- GETSR (R137). -/
def execGetsr (o : GetSr) (s : State) : Host.Outcome State Fault Refusal :=
  .next (s.guarded s.cur.mask (wrU o.d :: scUse o.r rdSc) fun s => s.writeU o.d.toNat (s.getReg o.r) 2)
/-- SETSR (R137): PRIVILEGE where the register is read only. -/
def execSetsr (o : SetSr) (s : State) : Host.Outcome State Fault Refusal :=
  .next (s.guarded s.cur.mask (rdU o.a :: scUse o.r wrSc) fun s =>
    match s.setSpecial o.r (s.readU o.a.toNat) with
    | some t => t
    | none => s.trapExec 0x0F (o.r.index.setWidth 64))
/-- DGON (R461). -/
def execDgon (o : FlagOnly) (s : State) : Host.Outcome State Fault Refusal :=
  .next (s.modGrp fun g => { g with dgen := true, dgst := if o.x then g.dgst else 0 })
/-- DGOFF (R461). -/
def execDgoff (s : State) : Host.Outcome State Fault Refusal := .next (s.modGrp fun g => { g with dgen := false })

end Sys2Proof.Machine
end

