-- ==== Sys2Proof/Machine/Packets.lean ====
section
/-! DEFINITION. Remote packets: their sending, what each does at its home, arrival lines, and the responses (spec/14_package_remote_operations.md
R391, R392, R398 to R410, R415 to R419; spec/16_fabric_collectives_and_checkpoint.md R450 to R454, R457, R465). A packet for another node
leaves the model: its answers are received frames. -/

namespace Sys2Proof.Machine

/-! ### Sending (R392, R397, R399) -/

/-- The tag of a contribution (R399): its opcode and kind bytes, its target's global address, and its data where it has any. -/
def tagOf (op kind target : Nat) (data : List Byte) : BitVec 16 :=
  0x8000#16 ||| ((crc32c ([BitVec.ofNat 8 op, BitVec.ofNat 8 kind] ++ bytesOf 8 target ++ data)).setWidth 16 &&& 0x7FFF#16)

/-- The kind byte of a lane contribution (R399). -/
def kindByte (e : Elem) : Nat := e.t.toNat * 8 + e.code.toNat


/-- The package physical address of a global address (R4). -/
def paOf (g : Nat) : Nat := g % 2 ^ 44
/-- The node of a global address. -/
def nodeOf (g : Nat) : Nat := g / 2 ^ 44

/-- A packet of no binding from a die, for a group. -/
def blankPacket (op kind : Nat) (sdie gid : Option Nat) (asid gen : BitVec 16) (va : Option Nat) (target : Nat) (data : List Byte) : Packet :=
  { op := op, kind := kind, sdie := sdie, gid := gid, pour := 0, grp := 0, asid := asid, gen := gen, va := va, target := target, lineVa := none,
    line := none, idx := 0, sig := 0, tag := 0, data := data, aux := [], copies := 0, resps := [], attempts := 0, stales := 0, mult := 1,
    sentAt := 0, path := none, origin := none, owner := none, stream := none, launch := none, status := none,
    performed := false }

/-! ### Frames (R447 to R451) -/

/-- The die of a port, and the controller block offset of its PCTL (R445, R447). -/
def portReg (p : Nat) : Nat × Nat := (([0, 1, 2, 3, 4, 5, 11, 17, 23, 22, 21, 20, 19, 18, 12, 6].getD (p / 2) 0), 0x3000 + 8 * (p % 2))

/-- Whether a port is usable: EN 1, WD 0, RETIRED 0, LINKUP 1 (R447); WD is held at 1 during a self-test (R468). -/
def State.usablePort (s : State) (p : Nat) : Bool :=
  let c := s.reg (portReg p).1 (portReg p).2
  c.getLsbD 0 && !c.getLsbD 1 && !c.getLsbD 3 && c.getLsbD 2 && !(s.die (portReg p).1).portSuspect.contains p

/-- The opcode of a packet on the wire: a storage completion travels as an arrival. -/
def Packet.wireOp (p : Packet) : Nat := if p.op = 0xC5 ∨ p.op = 0xC6 then 0x25 else p.op

/-- Words 1 to 3 of a packet's transport header, without their reserved bits (R450). -/
def Packet.wire (p : Packet) : Nat × Nat × Nat :=
  let laddr := match p.line with | some l => bits (paOf l) 38 6 | none => 2 ^ 33 - 1
  (bits p.target 43 2 * 2 ^ 22 + p.kind % 32 * 2 ^ 17 + p.tag.toNat % 2 ^ 15 * 4, laddr * 2 ^ 31 + p.sig % 2 ^ 28 * 8,
    p.idx % 2 ^ 32 * 2 ^ 32 + p.asid.toNat * 2 ^ 16 + p.gen.toNat)

/-- The payload of a packet on the wire (R451): an RGET request carries the mould's address and its length, and a datum shorter than 4 bytes
is followed by zeros. -/
def Packet.payload (p : Packet) : List Byte :=
  if p.op = 0x66 then bytesOf 8 (p.aux.headD 8 * 2 ^ 56 + paOf (p.aux.getD 1 0))
  else p.data ++ List.replicate ((4 - p.data.length % 4) % 4) 0

/-- Word 0 of a transport header (R450). -/
def wireWord0 (dnode snode sdie len op att : Nat) (resp : Bool) : Nat :=
  dnode % 2 ^ 20 * 2 ^ 44 + snode % 2 ^ 20 * 2 ^ 24 + sdie % 32 * 2 ^ 19 + len % 32 * 2 ^ 14 + op % 256 * 64 + att % 16 * 4 + (if resp then 2 else 0)

/-- The LEN of a request's payload (R450). -/
def lenOf (n : Nat) : Nat := if n = 4096 then 31 else n / 4

/-- n bytes of a number in network byte order. -/
def netBytes (n x : Nat) : List Byte := (bytesOf n x).reverse

/-- The one's complement checksum of UDP over a list of bytes of even length; a sum of zero is sent as all ones. -/
def udpSum (bs : List Byte) : Nat :=
  let pairs (l : List Byte) : Nat := (l.zipIdx).foldl (fun n b => n + if b.2 % 2 = 0 then b.1.toNat * 256 else b.1.toNat) 0
  let n := pairs bs
  let r := if n = 0 then 0 else (n - 1) % 65535 + 1
  if 65535 - r = 0 then 65535 else 65535 - r

/-- The IPv6 address of port p of a node (R449). -/
def ipAddr (hi : Word) (node p : Nat) : List Byte := netBytes 8 hi.toNat ++ netBytes 8 (node % 2 ^ 20 * 32 + p % 32)

/-- A frame from a port, without its Ethernet FCS (R448; log 109). -/
def State.frameOf (s : State) (port dport sport : Nat) (ws : List Nat) (payload : List Byte) : List Byte :=
  let (d, o) := portReg port
  let l := port % 2
  let cfg := s.reg d 0x3010
  let node := wbits cfg 19 0
  let head := ws.flatMap (bytesOf 8)
  let body := head ++ payload ++ bytesOf 4 (crc32c (head ++ payload)).toNat
  let len := 8 + body.length
  let src := ipAddr (s.reg d 0x3018) node port
  let dst := ipAddr (s.reg d 0x3018) ((ws.headD 0) / 2 ^ 44) dport
  let udp (sum : Nat) : List Byte := netBytes 2 sport ++ netBytes 2 (wbits cfg 47 32) ++ netBytes 2 len ++ netBytes 2 sum
  let pad : List Byte := List.replicate (body.length % 2) 0
  let sum := udpSum (src ++ dst ++ netBytes 4 len ++ netBytes 4 17 ++ udp 0 ++ body ++ pad)
  netBytes 6 (wbits (s.reg d (0x3028 + 16 * l)) 47 0) ++ netBytes 6 (wbits (s.reg d (0x3020 + 16 * l)) 47 0) ++ [0x86, 0xDD]
    ++ netBytes 4 (6 * 2 ^ 28 + wbits (s.reg d o) 13 8 * 4 * 2 ^ 20 + sport) ++ netBytes 2 len ++ [17, 64] ++ src ++ dst ++ udp sum ++ body

/-- The choice of a port, a port address of the destination node and a UDP source port, for one attempt (R449; log 5). Without a usable port
nothing leaves. -/
def State.choosePath (s : State) (n : Nat) : Option (Nat × Nat × Nat) :=
  let ps := (List.range 32).filter s.usablePort
  let pick (k : Nat) : Nat := (Config.freeWord s.tick k n).toNat
  if ps.isEmpty then none else some (ps.getD (pick 8198 % ps.length) 0, pick 8199 % 32, 0xC000 + pick 8200 % 2 ^ 14)

/-- Hands a frame to a port, if there is one. -/
def State.putFrame (s : State) (path : Option (Nat × Nat × Nat)) (ws : List Nat) (payload : List Byte) : State :=
  match path with
  | some (port, dport, sport) => { s with frames := s.frames ++ [(port, s.frameOf port dport sport ws payload)] }
  | none => s

/-- The frame of an attempt of a packet for another node (R450, R451). -/
def State.sendFrame (s : State) (p : Packet) : State :=
  let d := p.sdie.getD 0
  let (w1, w2, w3) := p.wire
  s.putFrame p.path [wireWord0 (nodeOf p.target) (s.nodeId d) d (lenOf p.payload.length) p.wireOp (p.attempts - 1) false, w1, w2, w3] p.payload

/-- The response to a request of another node (R451): the header of the request with the nodes exchanged, and the code in LEN. -/
def State.answerFrame (s : State) (n : Nat) (origin : Nat × Nat × Nat) (here op code : Nat) (ws : List Nat) (payload : List Byte) : State :=
  s.putFrame (s.choosePath n) (wireWord0 origin.1 here origin.2.1 code op origin.2.2 true :: ws) payload

/-- Whether a packet goes to another node. -/
def State.leavesNode (s : State) (p : Packet) : Bool := p.sdie.any fun d => nodeOf p.target != s.nodeId d

/-- The home die of a packet, over all nodes (R454). -/
def Packet.home (p : Packet) : Nat := p.target / 2 ^ 39

/-- Whether a packet may leave now: one for another node is held below level 3 (R438), and in host-assisted pacing one packet leaves for each
home in PACE units of 100 ns (R443). -/
def State.mayLeave (s : State) (p : Packet) : Bool :=
  (!s.leavesNode p || s.level == 3)
  && (match p.sdie with
    | some d => !(s.die d).mode.getLsbD 4 || (match (s.die d).lastSent.find? p.home with
      | some t => decide (t + wbits (s.reg d 0x0A0) 63 48 * 400 ≤ s.clk)
      | none => true)
    | none => true)

/-- Makes an attempt of packet n, if it may leave: a copy goes on the mesh, or a frame to a port (R416, R449). -/
def State.transmit (s : State) (n : Nat) (p : Packet) : State :=
  if !s.mayLeave p then { s with packets := s.packets.insert n p }
  else
    let out := s.leavesNode p
    let q := { p with copies := if out then p.copies else p.copies + 1, attempts := p.attempts + 1, sentAt := s.now,
                      path := if out then s.choosePath n else none }
    let s := { s with packets := s.packets.insert n q }
    let s := match p.sdie with
      | some d => if (s.die d).mode.getLsbD 4 then s.modDie d fun x => { x with lastSent := x.lastSent.insert p.home s.clk } else s
      | none => s
    if out then s.sendFrame q else s

/-- Sends a packet for the first time (R416), at once or when it may leave; answers its name. -/
def State.send (s : State) (p : Packet) : State × Nat := ((s.transmit s.uid p).bump, s.uid)

/-- A packet of the issuing group. -/
def State.groupPacket (s : State) (op kind : Nat) (gen : BitVec 16) (va target : Nat) (data : List Byte) : Packet :=
  let g := s.grp
  { blankPacket op kind (some s.curDie) (some s.cur.gid) g.cx.asid gen (some va) target data with pour := g.cx.pourid.toNat, grp := g.cx.grpid.toNat }

/-! ### Arrival lines (R398) -/

/-- Bytes put at home by a contribution: a poisoned word stays poisoned (R401). -/
def State.homePut (s : State) (pa : Nat) (bs : List Byte) : State :=
  ({ s with mem := s.mem.writeList pa bs }.touch pa bs.length).fireWatches pa bs.length

/-- COUNT and TARGET of a line. -/
def State.lineCount (s : State) (a : Nat) : Nat := s.homeN a 4
/-- TARGET of a line. -/
def State.lineTarget (s : State) (a : Nat) : Nat := s.homeN (a + 4) 4
/-- The flags of a line: OVERRUN 0, COLLISION 1, SIGNATURE 2, CONFLICT 3, DONE 4. -/
def State.lineFlags (s : State) (a : Nat) : Nat := s.homeN (a + 8) 4
/-- TAGADDR of a line. -/
def State.lineTags (s : State) (a : Nat) : Nat := s.homeN (a + 24) 8

/-- Sets a flag of a line. -/
def State.lineFlag (s : State) (a k : Nat) : State := s.homePut (a + 8) (bytesOf 4 (s.lineFlags a ||| 2 ^ k))
/-- Adds one to a counter of a line, modulo 2^32: DUPS at 12, REJECTS at 16. -/
def State.lineBump (s : State) (a off : Nat) : State := s.homePut (a + off) (bytesOf 4 ((s.homeN (a + off) 4 + 1) % 2 ^ 32))
/-- A rejected contribution. -/
def State.lineReject (s : State) (a k : Nat) : State := (s.lineFlag a k).lineBump a 16

/-- Wakes the cores of groups whose WAITA waits on a line that has ended its wait (R210, R412). -/
def State.wakeLine (s : State) (a : Nat) : State :=
  if !s.lineEnds a then s
  else s.groups.foldl (fun s p =>
    if p.2.splits.any fun q => match q.2.st with | .waiting (.line b none _) => b == a | _ => false then s.wake p.2.cx.core whyArrival else s) s

/-- What a contribution has to do with its target: whether write-once data differs from the granules (R403), and the update. -/
structure Effect where
  (conflict : Bool) (after : State)

/-- Contribute (R400): one contribution to a line, as one event. `once` marks a write-once contribution. -/
def State.contribute (s : State) (line i sig : Nat) (u : BitVec 16) (once : Bool) (eff : State → Effect) : State :=
  let s := if sig ≠ 0 ∧ s.homeN (line + 20) 4 = 0 then s.homePut (line + 20) (bytesOf 4 sig) else s
  let t :=
    if sig ≠ 0 ∧ s.homeN (line + 20) 4 ≠ sig then s.lineReject line 2
    else if s.lineTarget line ≤ i then s.lineReject line 0
    else
      let ta := s.lineTags line + 2 * i
      let old := s.homeN ta 2
      if old = 0 then
        if once && (eff s).conflict then s.lineReject line 3
        else
          let s := (eff (s.homePut ta (bytesOf 2 u.toNat))).after
          let n := (s.lineCount line + 1) % 2 ^ 32
          let s := s.homePut line (bytesOf 4 n)
          if n = s.lineTarget line then s.lineFlag line 4 else s
      else if old = u.toNat then (if once && (eff s).conflict then s.lineReject line 3 else s.lineBump line 12)
      else s.lineReject line 1
  t.wakeLine line

/-! ### Updates at home (R401 to R406, R408) -/

/-- Key (R402). -/
def fpKey (w x : Nat) : Nat := if x.testBit (w - 1) then 2 ^ w - 1 - x else x + 2 ^ (w - 1)

/-- RADD, RMIN, RMAX and ROR on a word (R402); type codes 0 signed, 1 unsigned, and 2 floating. -/
def remoteUpdate (op ty w old x : Nat) : Nat :=
  let pick (below : Bool) : Nat := if below then x else old
  match op with
  | 0x20 => (old + x) % 2 ^ w
  | 0x23 => old ||| x
  | 0x21 => match ty with
    | 0 => pick (decide (sext w x < sext w old))
    | 1 => pick (decide (x < old))
    | _ => pick (decide (fpKey w x < fpKey w old))
  | _ => match ty with
    | 0 => pick (decide (sext w old < sext w x))
    | 1 => pick (decide (old < x))
    | _ => pick (decide (fpKey w old < fpKey w x))

/-- A word update at home. -/
def State.updateWord (s : State) (pa : Nat) (data : List Byte) (f : Nat → Nat → Nat) : State :=
  s.homePut pa (bytesOf data.length (f (s.homeN pa data.length) (ofBytes data)))

/-- The granules of write-once data: their addresses, with the bytes of each (R403). -/
def granules : Nat → List Byte → List (Nat × List Byte)
  | _, [] => []
  | pa, b0 :: b1 :: b2 :: b3 :: b4 :: b5 :: b6 :: b7 :: rest => (pa, [b0, b1, b2, b3, b4, b5, b6, b7]) :: granules (pa + 8) rest
  | pa, l => [(pa, l)]

/-- Whether a granule is written with other data, or poisoned (R403). -/
def State.granuleConflict (s : State) (pa : Nat) (bs : List Byte) : Bool :=
  s.mwritten.getD false (pa / 8) && (s.homePois (pa / 8 * 8) 8 || s.homeN pa bs.length != ofBytes bs)

/-- Write-once of data at home (R403): stores the unwritten granules, whose poison stays (R401); conflicts when a written one holds something else. -/
def State.writeOnce (s : State) (pa : Nat) (bs : List Byte) (pois : Nat) : Effect :=
  let gs := granules pa bs
  let bad := gs.any fun g => s.granuleConflict g.1 g.2
  ⟨bad, if bad then s else gs.zipIdx.foldl (fun s g =>
    if s.mwritten.getD false (g.1.1 / 8) then s
    else
      let s := { s with mwritten := s.mwritten.insert (g.1.1 / 8) true }
      let s := s.homePut g.1.1 g.1.2
      if pois.testBit g.2 then s.homePoison g.1.1 else s) s⟩

/-- The crucible kind that a lane contribution or a ladle element names (R406, R408). -/
def crKindOf (op kind : Nat) : CrKind :=
  if op = 0x27 then
    (if kind = 2 * 8 + 2 then .fp .f64 else if kind = 2 * 8 then .i64 else if kind = 2 then .fp .f32 else if kind = 8 + 2 then .fp .f16 else .fp .bf16)
  else (if kind = 0x0A then .fp .f64 else if kind = 0x02 then .fp .f16 else if kind = 0x03 then .fp .bf16 else .fp .f32)

/-- CrucibleAdd at home (R41). -/
def State.crucibleHome (s : State) (pa : Nat) (data : List Byte) (k : CrKind) : State :=
  s.homePut pa (bytesOf 64 (crucibleAdd (BitVec.ofNat 512 (s.homeN pa 64)) (ofBytes data) k).toNat)

/-- A piece of an integer REDUCE, element by element (R408). -/
def State.reducePiece (s : State) (pa red fmt : Nat) (data : List Byte) : State :=
  let n := if fmt = 0x00 then 1 else if fmt = 0x0C then 2 else 4
  (List.range (data.length / n)).foldl (fun s k =>
    let op := match red with | 2 => 0x20 | 3 => 0x21 | 4 => 0x22 | _ => 0x23
    s.updateWord (pa + n * k) ((data.drop (n * k)).take n) (remoteUpdate op 0 (8 * n))) s

/-- Poisons the words of a mask, of n from the word of an address on (R250). -/
def State.homePoisons (s : State) (pa n mask : Nat) : State :=
  (List.range n).foldl (fun s k => if mask.testBit k then s.homePoison (pa / 8 * 8 + 8 * k) else s) s

/-- What a packet does at its target (R402 to R408, R457, R465). Poison of the source goes to the destination words (R250); that of a crucible
contribution to its whole line. -/
def Packet.effect (p : Packet) (s : State) : Effect :=
  let pa := paOf p.target
  let w := 8 * p.data.length
  match p.op with
  | 0x20 | 0x21 | 0x22 | 0x23 => ⟨false, s.updateWord pa p.data (remoteUpdate p.op (p.kind % 8) w)⟩
  | 0x24 => s.writeOnce pa p.data 0
  | 0x26 | 0x46 | 0x48 => s.writeOnce pa p.data (p.aux.headD 0)
  | 0x27 => ⟨false, s.crucibleHome pa p.data (crKindOf p.op p.kind)⟩
  | 0x41 => ⟨false, (s.crucibleHome pa p.data (crKindOf p.op p.kind)).homePoisons pa 8 (if p.aux.headD 0 = 0 then 0 else 255)⟩
  | 0x42 | 0x43 | 0x44 | 0x45 => ⟨false, (s.reducePiece pa (p.op - 0x40) p.kind p.data).homePoisons pa 9 (p.aux.headD 0)⟩
  | _ => ⟨false, s⟩

/-- Whether a contribution is write-once. -/
def Packet.once (p : Packet) : Bool := p.op == 0x24 || p.op == 0x26 || p.op == 0x46 || p.op == 0x48

/-! ### Admission at home -/

/-- Whether one import entry of a die admits every range of a list for an ASID, for updates or for reads (R452, R453). -/
def State.imported (s : State) (d : Nat) (asid : BitVec 16) (wr : Bool) (ranges : List (Nat × Nat)) : Bool :=
  (List.range 64).any fun k =>
    let a := s.reg d (0x3100 + 16 * k)
    let base := wbits (s.reg d (0x3108 + 16 * k)) 43 16 * 65536
    a.getLsbD 63 && a.getLsbD (if wr then 62 else 61) && wbits a 47 32 == asid.toNat
    && ranges.all fun r => decide (base ≤ r.1) && decide (r.1 + r.2 ≤ base + wbits a 31 0 * 65536)

/-- Whether a packet is a request to watch or read a line, which is sent again without limit (R412, R413; log 17). -/
def Packet.asks (p : Packet) : Bool := p.op == 0x30 || p.op == 0x31

/-- Whether a packet only reads at its home. -/
def Packet.reads (p : Packet) : Bool := p.op == 0x66 || p.op == 0x30 || p.op == 0x31

/-- The bytes that a packet touches at its target. -/
def Packet.span (p : Packet) : Nat :=
  match p.op with
  | 0x27 | 0x41 | 0xCD | 0x30 | 0x31 | 0x40 | 0x25 | 0xCC | 0xC5 | 0xC6 => 64
  | 0x66 => p.aux.headD 8
  | 0xCE => max (p.aux.headD 0) 1
  | _ => max p.data.length 1

/-- Whether a range of memory lies wholly in populated memory of one die. -/
def State.tagRangeOk (s : State) (d pa n : Nat) : Bool := dieOfPa pa == d && s.isMemory pa (max n 1)

/-- The ranges of memory that a packet of another node concerns at its home: its target's bytes, and its line with the tag array (R453). -/
def State.packetRanges (s : State) (p : Packet) : List (Nat × Nat) :=
  (paOf p.target, p.span) :: match p.line with
    | some l => if p.op = 0x66 then [] else [(paOf l, 64), (s.lineTags (paOf l), max (2 * s.lineTarget (paOf l)) 1)]
    | none => []

/-- The response code with which the home turns a packet away (R417, R418, R453), if it does. -/
def State.turnedAway (s : State) (p : Packet) : Option Nat :=
  let pa := paOf p.target
  let d := dieOfPa pa
  if p.sdie.isNone && !s.imported d p.asid (!p.reads) (s.packetRanges p) then some (16 + 2)
  else if !astValid (s.astEntry d p.asid.toNat) then some (16 + 4)
  else if p.gen ≠ s.sliceGen d p.asid then some 2
  else if !s.isMemory pa p.span then some (16 + 2)
  else match p.line with
    | none => none
    | some l =>
      if p.op = 0x66 then none
      else if dieOfPa (paOf l) ≠ d ∨ nodeOf l ≠ nodeOf p.target then some (16 + 1)
      else if !s.isMemory (paOf l) 64 then some (16 + 2)
      else if !s.tagRangeOk d (s.lineTags (paOf l)) (2 * s.lineTarget (paOf l)) then some (16 + 3)
      else none

/-! ### Responses -/

/-- Whether a group is alive, on a core or saved. -/
def State.alive (s : State) (gid : Nat) : Bool :=
  (match s.groups.find? gid with | some g => !g.ended | none => false) || s.saved.any fun v => v.2.groups.any fun p => p.1 == gid

/-- A failure or rejection of a packet (R405, R418, R419): recorded for its group, or logged. -/
def State.recordRemote (s : State) (p : Packet) (cause reason : Nat) : State :=
  let logIt (s : State) : State := s.logErr (p.sdie.getD 0) ⟨cause, p.pour, p.grp, reason, p.target, match p.line with
    | some l => [nodeOf p.target, dieOfPa (paOf p.target), l, p.idx]
    | none => []⟩
  match p.gid with
  | none => logIt s
  | some g =>
    if s.alive g then s.modGroupAny g fun x =>
      match x.rerr with
      | some _ => x
      | none => { x with rerr := some (BitVec.ofNat 8 cause, BitVec.ofNat 8 reason, BitVec.ofNat 64 p.target),
                         rreason := if cause = 0x19 then BitVec.ofNat 8 reason else x.rreason }
    else logIt s

/-- The package physical address of a die's frame (R463). -/
def frameAddr (d f : Nat) : Nat :=
  if f < 16777216 then d * 2 ^ 39 + 4096 * f else d * 2 ^ 39 + 2 ^ 38 + 4096 * (f - 16777216)

/-- A packet has reached its end at its sender: what waits for it goes on. It stays listed while copies are under way. -/
def State.endPacket (s : State) (n code : Nat) : State :=
  match s.packets.find? n with
  | none => s
  | some p =>
    let s := { s with packets := if p.copies = 0 then s.packets.erase n else s.packets.insert n { p with status := some code, resps := [] } }
    let s := match p.owner with
      | some (c, k) =>
        let drop (t : Tab LCmd) : Tab LCmd := t.modify k fun m => { m with packets := m.packets.filter (· != n) }
        { s.modCore c fun x => { x with ladle := drop x.ladle } with saved := s.saved.map fun v => (v.1, { v.2 with ladle := drop v.2.ladle }) }
      | none => s
    match p.stream with
    | some (d, k) =>
      let s := if code = 0 then s else { s with mdirty := s.mdirty.insert (frameAddr d p.idx / 4096) true }
      s.modDie d fun x => { x with streams := x.streams.modify k fun m => { m with outstanding := m.outstanding.filter (· != n) } }
    | none => s

/-- The home answers a packet: the response travels to its sender over the mesh, or in a frame to another node; a sender that has done with the
packet takes none. -/
def State.respond (s : State) (n code : Nat) (data : BitVec 128) : State :=
  match s.packets.find? n with
  | none => s
  | some p =>
    if p.status.isSome ∨ p.sdie.isNone then
      let s := match p.origin with
        | some o =>
          let (w1, w2, w3) := p.wire
          s.answerFrame n o (s.nodeId (dieOfPa (paOf p.target))) p.op code [w1, w2, w3] (if code = 3 then bytesOf 16 data.toNat else [])
        | none => s
      { s with packets := if p.copies = 0 then s.packets.erase n else s.packets }
    else { s with packets := s.packets.insert n { p with resps := p.resps ++ [⟨code, data⟩] } }

/-- A packet that writes memory at its home writes pages of its target and of its line (R365; log 106). -/
def State.touchPacket (s : State) (p : Packet) : State :=
  let d := dieOfPa (paOf p.target)
  let at_ (s : State) (va : Option Nat) (g : Nat) : State :=
    match va with
    | some va => s.touchTables d p.asid va
    | none => s.touchFrames d (paOf g)
  let s := at_ s p.va p.target
  match p.line with
  | some l => at_ s p.lineVa l
  | none => s

/-- Whether the home performs the first copy of a packet alone and acknowledges the others: an ARRINIT, CRCLR or MCLR, or an update that no line
counts (R414, R415; log 125). The copies of a bound contribution are judged by its line (R400). -/
def Packet.onlyOnce (p : Packet) : Bool := p.op == 0xCC || p.op == 0xCD || p.op == 0xCE || (p.line.isNone && !p.reads)

/-- One copy of a packet arrives at its home, if it is one of the kinds named and its home serves memory. -/
def State.arriveCopy (s : State) (n : Nat) (ops : List Nat) (body : State → Packet → State) : State :=
  match s.packets.find? n with
  | none => s
  | some p =>
    if !ops.contains p.op ∨ p.copies = 0 ∨ (p.sdie.isSome ∧ nodeOf p.target ≠ s.nodeId (p.sdie.getD 0)) ∨ !s.memReady (paOf p.target) then s
    else
      let turned := s.turnedAway p
      let s := { s with packets := s.packets.insert n { p with copies := p.copies - 1, performed := p.performed || turned.isNone } }
      match turned with
      | some code => s.respond n code 0
      | none => if p.performed && p.onlyOnce then s.respond n 0 0 else body s p

/-- A contribution packet at its home: applied, and acknowledged (R400, R401, R415). An unbound write-once conflict is logged (R403). -/
def State.applyPacket (s : State) (n : Nat) (ops : List Nat) : State :=
  s.arriveCopy n ops fun s p =>
    let s := s.touchPacket p
    let s := match p.line with
      | some l =>
        if (p.op = 0xC5 ∨ p.op = 0xC6) ∧ p.aux ≠ [] then (s.lineReject (paOf l) 3).wakeLine (paOf l)
        else s.contribute (paOf l) p.idx p.sig p.tag p.once p.effect
      | none =>
        let e := p.effect s
        if e.conflict then s.logErr (dieOfPa (paOf p.target)) ⟨0x403, paOf p.target, 0, 0, 0, []⟩ else e.after
    s.respond n 0 0

/-- An RGET request at the source's home (R405): the bytes are read with their poison, and the reply is sent and bound to the requester's line. -/
def State.serveRget (s : State) (n : Nat) : State :=
  s.arriveCopy n [0x66] fun s p =>
    let pa := paOf p.target
    let len := p.aux.headD 8
    let mould := p.aux.getD 1 0
    let pois := (List.range (len / 8)).foldl (fun a k => if s.homePois (pa + 8 * k) 8 then a + 2 ^ k else a) 0
    let reply := { blankPacket 0x26 0 (some (dieOfPa pa)) none p.asid p.gen p.aux[2]? mould (bytesOf len (s.homeN pa len)) with
      pour := p.pour, grp := p.grp, lineVa := p.lineVa, line := p.line, idx := p.idx, sig := p.sig, tag := tagOf 0x26 0 mould [], aux := [pois] }
    ((s.send reply).1).respond n 0 0

/-- Zeroes a range of home memory: the words written whole lose their poison. -/
def State.homeZero (s : State) (pa n : Nat) : State :=
  let s := { s with
    mem := s.mem.filter fun p => !(decide (pa ≤ p.1) && decide (p.1 < pa + n))
    mpois := s.mpois.filter fun p => !(decide (pa ≤ 8 * p.1) && decide (8 * p.1 + 8 ≤ pa + n)) }
  if n = 0 then s else (s.touch pa n).fireWatches pa n

/-- ARRINIT at the line's home (R410): one event; a tag array that does not lie in populated SHARED memory of the line's die rejects it. -/
def State.initLine (s : State) (n : Nat) : State :=
  s.arriveCopy n [0xCC] fun s p =>
    let pa := paOf p.target
    let target := p.aux.getD 0 0
    let tags := p.aux.getD 1 0
    if p.aux.getD 2 0 = 0 ∨ nodeOf tags ≠ nodeOf p.target ∨ !s.tagRangeOk (dieOfPa pa) (paOf tags) (2 * target) then s.respond n (16 + 3) 0
    else
      let s := ((s.touchPacket p).homeZero (paOf tags) (2 * target)).homeWrite pa
        (bytesOf 64 (target * 2 ^ 32 + (if target = 0 then 2 ^ 68 else 0) + paOf tags * 2 ^ 192))
      (s.wakeLine pa).respond n 0 0

/-- CRCLR at the line's home (R410). -/
def State.clearLine (s : State) (n : Nat) : State :=
  s.arriveCopy n [0xCD] fun s p => ((s.touchPacket p).homeWrite (paOf p.target) (bytesOf 64 0)).respond n 0 0

/-- Clears the written bits of a range. -/
def State.clearWritten (s : State) (pa n : Nat) : State :=
  { s with mwritten := s.mwritten.filter fun p => !(decide (pa ≤ 8 * p.1) && decide (8 * p.1 < pa + n)) }

/-- A page of an MCLR at its home (R410). -/
def State.clearMould (s : State) (n : Nat) : State :=
  s.arriveCopy n [0xCE] fun s p => (s.clearWritten (paOf p.target) (p.aux.headD 0)).respond n 0 0

/-- A watch request at its home answers once the condition holds (R412); until then it stays there. -/
def State.watchLine (s : State) (n : Nat) : State :=
  match s.packets.find? n with
  | none => s
  | some p =>
    if !s.lineEnds (paOf p.target) ∧ s.turnedAway p = none then s
    else s.arriveCopy n [0x30] fun s p => s.respond n 3 (BitVec.ofNat 128 (s.homeN (paOf p.target) 16))

/-- An ARRST read at its home (R413). -/
def State.readLine (s : State) (n : Nat) : State :=
  s.arriveCopy n [0x31] fun s p => s.respond n 3 (BitVec.ofNat 128 (s.homeN (paOf p.target) 16))

/-! ### At the sender (R415 to R418) -/

/-- A packet without a response of a code; answers whether it had one. -/
def Packet.takeResp (p : Packet) (f : Nat → Bool) : Option (Resp × Packet) :=
  match p.resps.find? fun r => f r.code with
  | none => none
  | some r => some (r, { p with resps := p.resps.erase r })

/-- A response of a kind reaches its sender. -/
def State.onResp (s : State) (n : Nat) (f : Nat → Bool) (body : State → Resp → Packet → State) : State :=
  match s.packets.find? n with
  | none => s
  | some p => if p.status.isSome then s else match p.takeResp f with
    | none => s
    | some (r, q) => body { s with packets := s.packets.insert n q } r q

/-- LIMIT of a die (R416). -/
def State.rtLimit (s : State) (d : Nat) : Nat := wbits (s.reg d 0x080) 20 16
/-- TIMEOUT of a die in clk (R416, R2). -/
def State.rtTimeout (s : State) (d : Nat) : Nat := wbits (s.reg d 0x080) 15 0 * 400

/-- An acknowledgement (R415). -/
def State.acked (s : State) (n : Nat) : State := s.onResp n (· == 0) fun s _ _ => s.endPacket n 0

/-- A retry-later answer doubles the packet's wait (R417). The home turns a copy away at will: a copy under way may be answered so. -/
def State.retryLater (s : State) (n : Nat) : State :=
  match s.packets.find? n with
  | none => s
  | some p =>
    if p.status.isSome then s
    else
      let double (p : Packet) : Packet := { p with mult := min 64 (2 * p.mult) }
      match p.takeResp (· == 1) with
      | some (_, q) => { s with packets := s.packets.insert n (double q) }
      | none =>
        let q := { p with copies := p.copies - 1 }
        if p.copies = 0 then s
        else if p.sdie.isNone then { s with packets := s.packets.insert n q }.respond n 1 0
        else { s with packets := s.packets.insert n (double q) }

/-- Sends a packet again, as another attempt. -/
def State.resend (s : State) (n : Nat) (p : Packet) : State := s.transmit n p

/-- The page rule of a packet's target (R396, R409, R458, R465): the kinds of its page, and whether it asks for R in place of W. -/
def Packet.pageOk (p : Packet) (t : Tlb) : Bool :=
  match p.op with
  | 0x66 => t.r && (t.kind = kShared || t.kind = kMould || t.kind = kImmutable || t.kind = kFabric)
  | 0x30 | 0x31 => t.r && (t.kind = kShared || t.kind = kFabric)
  | 0x24 | 0x46 | 0x48 | 0x49 => t.w && (t.kind = kMould || t.kind = kFabric)
  | 0xCC | 0xCD => t.w && t.kind = kShared
  | 0xCE => t.w && t.kind = kMould
  | _ => t.w && (t.kind = kShared || t.kind = kFabric)

/-- The translation of a virtual address made again from the tables of a packet's sender (R417, R325): none where it fails, or the page breaks a
rule. An address whose virtual address the sender does not have stands. -/
def State.retranslate (s : State) (d : Nat) (asid : BitVec 16) (va : Option Nat) (old : Nat) (ok : Tlb → Bool) : Option Nat :=
  let ast := s.astEntry d asid.toNat
  match va with
  | none => some old
  | some va =>
    if !astValid ast then none
    else match s.walk d ast va with
      | .leaf a e sh =>
        let t := Tlb.ofLeaf asid (astGen ast) va a e sh
        if ok t then some (t.frame + (va - t.base)) else none
      | _ => none

/-- The words of a packet that hold an address, translated again: the tag array of an ARRINIT, and the mould of an RGET (R417). -/
def State.retranslateAux (s : State) (d : Nat) (p : Packet) : Option (List Nat) :=
  match p.op, p.aux with
  | 0xCC, [n, tags, _] => (s.retranslate d p.asid p.lineVa tags fun t => t.w).map fun a =>
      [n, a, if (s.retranslate d p.asid p.lineVa tags fun t => t.w && t.kind = kShared).isSome then 1 else 0]
  | 0x66, [n, mould, mva] => (s.retranslate d p.asid (some mva) mould fun t => t.w && t.kind = kMould).map fun a => [n, a, mva]
  | _, l => some l

/-- A packet with its addresses translated again (R417); none where one fails (log 108). -/
def State.renewed (s : State) (d : Nat) (p : Packet) : Option Packet :=
  let line : Option (Option Nat) := match p.line with
    | some l => (s.retranslate d p.asid p.lineVa l fun t => t.w && (t.kind = kShared || t.kind = kFabric)).map some
    | none => some none
  match s.retranslate d p.asid p.va p.target p.pageOk, line, s.retranslateAux d p with
  | some a, some l, some aux => some { p with target := a, line := l, aux := aux, gen := astGen (s.astEntry d p.asid.toNat) }
  | _, _, _ => none

/-- A stale answer (R417, R418): the packet is translated and sent again; the sixteenth in a row is a rejection, and an attempt beyond LIMIT
a failure, but of a request to watch or read a line (log 17). A translation that fails, or a page that now forbids the access, is a rejection with reason 0x02, or 0x04 without a VALID entry. -/
def State.staleAnswer (s : State) (n : Nat) : State :=
  s.onResp n (· == 2) fun s _ p =>
    let d := p.sdie.getD 0
    if 15 ≤ p.stales then (s.recordRemote p 0x19 5).endPacket n (16 + 5)
    else if !p.asks && decide (s.rtLimit d ≤ p.attempts) then (s.recordRemote p 0x18 0).endPacket n 256
    else match s.renewed d p with
      | some q => s.resend n { q with stales := p.stales + 1 }
      | none =>
        let r := if astValid (s.astEntry d p.asid.toNat) then 2 else 4
        (s.recordRemote p 0x19 r).endPacket n (16 + r)

/-- A rejection (R418). -/
def State.rejected (s : State) (n : Nat) : State :=
  s.onResp n (16 ≤ ·) fun s r p => (s.recordRemote p 0x19 (r.code - 16)).endPacket n r.code

/-- A line answer ends a WAITA or an ARRST elsewhere (R412, R413); the end of a WAITA is an ARRIVAL wake reason. -/
def State.lineAnswered (s : State) (n : Nat) : State :=
  s.onResp n (· == 3) fun s r p =>
    let lo : Word := r.data.setWidth 64
    let hi : Word := (r.data >>> 64).setWidth 64
    let s := match p.gid with
      | some g => (s.giveAnswer g n (hi.getLsbD 4, lo, hi)).wake (s.group g).cx.core (if p.op = 0x30 then whyArrival else 0)
      | none => s
    let s := match p.launch with
      | some (l, k) =>
        let note (x : Launch) : Launch :=
          if x.seen.contains (k - 64) ∨ wbits lo 31 0 < wbits (x.words.getD (18 + 2 * (k - 64)) 0) 31 0 then x
          else { x with seen := x.seen ++ [k - 64] }
        { s with launches := s.launches.modify l note }
      | none => s
    s.endPacket n 3

/-- The wait of a packet has passed (R416): it is sent again, or fails after LIMIT attempts; requests to watch or read a line are sent
again without limit (log 17). -/
def State.timedOut (s : State) (n : Nat) : State :=
  match s.packets.find? n with
  | none => s
  | some p =>
    let d := p.sdie.getD 0
    if p.status.isSome ∨ p.sdie.isNone ∨ (p.attempts ≠ 0 ∧ s.clk < p.sentAt + p.mult * s.rtTimeout d) then s
    else if !p.asks && decide (s.rtLimit d ≤ p.attempts) then (s.recordRemote p 0x18 0).endPacket n 256
    else s.resend n { p with stales := 0 }

/-- The mesh drops a copy or a response of a packet (R391), unless it stays on the issuing die (R392). -/
def State.meshDrop (s : State) (n : Nat) (resp : Bool) : State :=
  match s.packets.find? n with
  | none => s
  | some p =>
    let q := if resp then { p with resps := p.resps.drop 1 } else { p with copies := p.copies - 1 }
    if p.sdie = some (dieOfPa (paOf p.target)) ∧ !s.leavesNode p then s
    else { s with packets :=
      if q.copies = 0 ∧ (q.status.isSome ∨ q.sdie.isNone) then s.packets.erase n else s.packets.insert n q }

/-! ### Meanings of the packet events -/

/-- RADD_PACKET (R402). -/
def execRaddPacket (p : Nat) (s : State) : Host.Outcome State Fault Refusal := .next (s.applyPacket p [0x20])
/-- RMIN_PACKET (R402). -/
def execRminPacket (p : Nat) (s : State) : Host.Outcome State Fault Refusal := .next (s.applyPacket p [0x21])
/-- RMAX_PACKET (R402). -/
def execRmaxPacket (p : Nat) (s : State) : Host.Outcome State Fault Refusal := .next (s.applyPacket p [0x22])
/-- ROR_PACKET (R402). -/
def execRorPacket (p : Nat) (s : State) : Host.Outcome State Fault Refusal := .next (s.applyPacket p [0x23])
/-- RWO_PACKET (R403). -/
def execRwoPacket (p : Nat) (s : State) : Host.Outcome State Fault Refusal := .next (s.applyPacket p [0x24])
/-- RARR_PACKET (R404): an arrival without data, also of a die (R343) or of a storage command (R437). -/
def execRarrPacket (p : Nat) (s : State) : Host.Outcome State Fault Refusal := .next (s.applyPacket p [0x25, 0xC5, 0xC6])
/-- CRADD_PACKET (R41, R406). -/
def execCraddPacket (p : Nat) (s : State) : Host.Outcome State Fault Refusal := .next (s.applyPacket p [0x27])
/-- RGET_REQUEST (R405). -/
def execRgetRequest (p : Nat) (s : State) : Host.Outcome State Fault Refusal := .next (s.serveRget p)
/-- RGET_REPLY (R405). -/
def execRgetReply (p : Nat) (s : State) : Host.Outcome State Fault Refusal := .next (s.applyPacket p [0x26])
/-- LADLE_PIECE_PACKET (R408). -/
def execLadlePiecePacket (p : Nat) (s : State) : Host.Outcome State Fault Refusal :=
  .next (s.applyPacket p [0x41, 0x42, 0x43, 0x44, 0x45, 0x46])
/-- TSEND_SIGNAL (R457). -/
def execTsendSignal (p : Nat) (s : State) : Host.Outcome State Fault Refusal := .next (s.applyPacket p [0x40])
/-- CHECKPOINT_FRAME (R465). -/
def execCheckpointFrame (p : Nat) (s : State) : Host.Outcome State Fault Refusal := .next (s.applyPacket p [0x48])
/-- CHECKPOINT_MARK (R465). -/
def execCheckpointMark (p : Nat) (s : State) : Host.Outcome State Fault Refusal := .next (s.applyPacket p [0x49])
/-- ARRINIT_PACKET (R410). -/
def execArrinitPacket (p : Nat) (s : State) : Host.Outcome State Fault Refusal := .next (s.initLine p)
/-- CRCLR_PACKET (R410). -/
def execCrclrPacket (p : Nat) (s : State) : Host.Outcome State Fault Refusal := .next (s.clearLine p)
/-- MCLR_PACKET (R410). -/
def execMclrPacket (p : Nat) (s : State) : Host.Outcome State Fault Refusal := .next (s.clearMould p)
/-- WAITA_WATCH (R412). -/
def execWaitaWatch (p : Nat) (s : State) : Host.Outcome State Fault Refusal := .next (s.watchLine p)
/-- ARRST_READ (R413). -/
def execArrstRead (p : Nat) (s : State) : Host.Outcome State Fault Refusal := .next (s.readLine p)
/-- RESPONSE_ACKNOWLEDGED (R415). -/
def execResponseAcknowledged (p : Nat) (s : State) : Host.Outcome State Fault Refusal := .next (s.acked p)
/-- RESPONSE_RETRY_LATER (R417). -/
def execResponseRetryLater (p : Nat) (s : State) : Host.Outcome State Fault Refusal := .next (s.retryLater p)
/-- RESPONSE_STALE (R417). -/
def execResponseStale (p : Nat) (s : State) : Host.Outcome State Fault Refusal := .next (s.staleAnswer p)
/-- RESPONSE_REJECT (R418). -/
def execResponseReject (p : Nat) (s : State) : Host.Outcome State Fault Refusal := .next (s.rejected p)
/-- RESPONSE_LINE_ANSWER (R412). -/
def execResponseLineAnswer (p : Nat) (s : State) : Host.Outcome State Fault Refusal := .next (s.lineAnswered p)
/-- RETRANSMIT_TIMEOUT (R416). -/
def execRetransmitTimeout (p : Nat) (s : State) : Host.Outcome State Fault Refusal := .next (s.timedOut p)
/-- MESH_PACKET_DROP (R391). -/
def execMeshPacketDrop (p : Nat) (resp : Bool) (s : State) : Host.Outcome State Fault Refusal := .next (s.meshDrop p resp)

end Sys2Proof.Machine
end

