-- ==== Sys2Proof/Machine/Remote.lean ====
section
/-! DEFINITION. The remote lane instructions, the preparation of lines and moulds, the waits for them, and the digest's fold and check
(spec/14_package_remote_operations.md R393 to R414; spec/16_fabric_collectives_and_checkpoint.md R460 to R462). -/

namespace Sys2Proof.Machine

/-! ### Checks at issue (R394, R396, R409) -/

/-- How an address of a remote operation fares: a global address with its generation and kind, a cause, or a served fault. -/
inductive RemRes where
  | ok (addr : Nat) (gen : BitVec 16) (kind : BitVec 3)
  | fail (cause : Nat)
  | served (reason page size : Nat)
  | again (rejected : Bool)
deriving DecidableEq, Repr, Inhabited

/-- Translates an address of a remote operation, for a page kind rule (R396). -/
def State.remoteVa (s : State) (va : Word) (a : AccessKind) (kindOk : Tlb → Bool) : State × RemRes :=
  match s.translateWith s.curCore s.grp.cx.asid va.toNat a kindOk with
  | (s, .ok pa t) => (s, .ok pa t.gen t.kind)
  | (s, .served r p n) => (s, .served r p n)
  | (s, .trap c) => (s, .fail c)
  | (s, .again r) => (s, .again r)

/-- SHARED or FABRIC. -/
def sharedOrFabric (t : Tlb) : Bool := t.kind = kShared || t.kind = kFabric

/-- A binding pair as read at issue (R394): the line's virtual address, the index base and the signature, and whether it is well formed. -/
structure Binding where
  (lineVa : Word) (base sig : Nat) (wf : Bool)
deriving DecidableEq, Repr, Inhabited

/-- Reads a binding pair. -/
def State.binding (s : State) (b : UReg) : Binding :=
  let p := s.readU b.toNat
  let q := s.readU (b + 1).toNat
  ⟨lowBits 56 p, wbits q 31 0, wbits q 59 32, wbits p 63 56 == 0 && wbits q 63 60 == 0 && p.toNat % 64 == 0⟩

/-- The uses of a binding pair. -/
def bindUses (b : UReg) : List Use := [rdU b, rdU (b + 1)]

/-- What a remote instruction sends for a lane that passes: the target, the line and, for RGET, the mould. -/
structure RemSend where
  (lane : Nat) (va : Word) (target : Nat) (gen : BitVec 16) (line : Option Nat) (mould : Nat)
deriving DecidableEq, Repr, Inhabited

/-- What an instruction of block 0x120 asks of each lane's addresses. -/
structure RemAsk where
  /-- The target's address in a lane, its alignment, the access and the page rule; none for RARR. -/
  target : Option ((Nat → Word) × (Nat → Bool) × AccessKind × (Tlb → Bool))
  /-- RGET: the mould's address in a lane. -/
  mould : Option (Nat → Word)
  bind : Option Binding
  lineOk : Tlb → Bool

/-- A step of a lane's checks: the state, and how the lane fares so far. -/
def State.thenVa (a : State × Except LaneChk Nat) (lane : Nat) (va : Word) (ak : AccessKind) (kindOk : Tlb → Bool)
    (k : State → Nat → BitVec 16 → State × Except LaneChk RemSend) :
    State × Except LaneChk RemSend :=
  match a with
  | (s, .error e) => (s, .error e)
  | (s, .ok _) => match s.remoteVa va ak kindOk with
    | (s, .ok addr gen _) => k s addr gen
    | (s, .fail c) => (s, .error ⟨lane, va, .fail c⟩)
    | (s, .served r p n) => (s, .error ⟨lane, va, .served r p n⟩)
    | (s, .again r) => (s, .error ⟨lane, va, .again r⟩)

/-- The checks of one lane (R227, R394, R396): addresses beyond 56 bits, alignment of the target and of the binding, the target's translation,
the mould's, the binding's, and their homes. -/
def State.remoteLane (s : State) (q : RemAsk) (i : Nat) : State × Except LaneChk RemSend :=
  let fail (va : Word) (c : Nat) : State × Except LaneChk RemSend := (s, .error ⟨i, va, .fail c⟩)
  let here := s.curDie
  let line (s : State) (k : State → Option Nat → BitVec 16 → State × Except LaneChk RemSend) : State × Except LaneChk RemSend :=
    match q.bind with
    | none => k s none 0
    | some b => State.thenVa (s, .ok 0) i b.lineVa .store q.lineOk fun s a g => k s (some a) g
  match q.target with
  | none => match q.bind with
    | none => fail 0 0x13
    | some b =>
      if !b.wf then fail b.lineVa 0x13
      else line s fun s l g => (s, .ok ⟨i, b.lineVa, l.getD 0, g, l, 0⟩)
  | some (addr, aligned, ak, kindOk) =>
    let va := addr i
    let mva := (q.mould.map fun f => f i).getD 0
    let lineVa := (q.bind.map (·.lineVa)).getD 0
    if 2 ^ 56 ≤ va.toNat then fail va 0x10
    else if 2 ^ 56 ≤ mva.toNat then fail mva 0x10
    else if q.bind.any fun b => !b.wf then fail lineVa 0x13
    else if !aligned i then fail va 0x13
    else if mva.toNat % 8 ≠ 0 then fail mva 0x13
    else State.thenVa (s, .ok 0) i va ak kindOk fun s target gen =>
      let finish (s : State) (mould : Nat) : State × Except LaneChk RemSend :=
        line s fun s l _ =>
          let home := if q.mould.isSome then here else dieOfPa (paOf target)
          match l with
          | some a =>
            if q.mould.isNone ∧ nodeOf target ≠ s.nodeId here then
              (if nodeOf a = nodeOf target then (s, .ok ⟨i, va, target, gen, l, mould⟩) else (s, .error ⟨i, lineVa, .fail 0x11⟩))
            else if nodeOf a ≠ s.nodeId here ∨ dieOfPa (paOf a) ≠ home then (s, .error ⟨i, lineVa, .fail 0x11⟩)
            else (s, .ok ⟨i, va, target, gen, l, mould⟩)
          | none => (s, .ok ⟨i, va, target, gen, none, mould⟩)
      match q.mould with
      | none => finish s 0
      | some _ => State.thenVa (s, .ok 0) i mva .store (fun t => t.kind = kMould && dieOfPa (t.frame % 2 ^ 44) == here) fun s m _ => finish s m

/-- The issue of a remote lane instruction: one packet for each lane that passes, then service and traps of the others (R397). -/
def State.remoteIssue (s : State) (q : RemAsk) (ak : AccessKind) (emit : State → RemSend → State) : State :=
  let (s, bad, good) := (lanesOf s.cur.mask).foldl (fun (a : State × List LaneChk × List RemSend) i =>
    match a.1.remoteLane q i with
    | (s, .ok x) => (s, a.2.1, a.2.2 ++ [x])
    | (s, .error e) => (s, a.2.1 ++ [e], a.2.2)) (s, [], [])
  s.withChecks bad fun s bad => ((good.foldl emit s).noteServed ak.code bad).trapFails bad

/-- The contribution index of a lane (R395): from the EXEC with which the instruction began. -/
def State.contribIndex (s : State) (base i : Nat) : Nat :=
  let e := s.spl.idxExec.getD s.spl.exec
  (base + popMask (e &&& belowMask i)) % 2 ^ 32

/-- Binds a packet of a lane to its line. -/
def Packet.bound (p : Packet) (b : Option Binding) (line : Option Nat) (idx : Nat) (tag : BitVec 16) : Packet :=
  match b with
  | none => p
  | some x => { p with lineVa := some x.lineVa.toNat, line := line, idx := idx, sig := x.sig, tag := tag }

/-! ### Lane instructions -/

/-- RADD, RMIN, RMAX, ROR, RWO and CRADD (R402, R404, R406): `unit` is the unit of the displacement and the target's alignment, w the width
of the data; a tag takes the data unless the instruction writes once. -/
def State.remoteOp (s : State) (o : Remote) (op unit : Nat) (kinds : Tlb → Bool) : State :=
  let w := o.e.w
  let data : Use := if w = 64 then rdV o.d else rdVlo o.d
  let bs := match o.bind with | some b => bindUses b | none => []
  s.guarded s.cur.mask ([rdU o.c, rdV o.a, data] ++ bs) fun s =>
    let addr (i : Nat) : Word := s.globalAddr o.c o.a (o.disp.toInt * unit) i
    let b := o.bind.map s.binding
    let val (i : Nat) : Nat := (s.readV o.d.toNat i).toNat % 2 ^ w
    s.remoteIssue ⟨some (addr, fun i => (addr i).toNat % unit == 0, .store, kinds), none, b, sharedOrFabric⟩ .store fun t x =>
      let bytes := bytesOf (w / 8) (val x.lane)
      let idx := t.contribIndex ((b.map (·.base)).getD 0) x.lane
      let kind := kindByte o.e
      let p := t.groupPacket op kind x.gen x.va.toNat x.target bytes
      ((t.send (p.bound b x.line idx (tagOf op kind x.target (if op = 0x24 then [] else bytes)))).1).fold x.va (BitVec.ofNat 64 (val x.lane))

/-- RARR (R404). -/
def State.remoteArrive (s : State) (o : RemArr) : State :=
  s.guarded s.cur.mask (bindUses o.b) fun s =>
    let b := s.binding o.b
    s.remoteIssue ⟨none, none, some b, sharedOrFabric⟩ .store fun t x =>
      let p := t.groupPacket 0x25 0 x.gen x.va.toNat x.target []
      (t.send (p.bound (some b) x.line (t.contribIndex b.base x.lane) (tagOf 0x25 0 x.target []))).1

/-- RGET (R405). -/
def State.remoteGet (s : State) (o : RemGet) : State :=
  s.guarded s.cur.mask ([rdU o.c, rdV o.a, rdV o.d] ++ bindUses o.b) fun s =>
    let n := 8 * (o.n.toNat + 1)
    let b := s.binding o.b
    let addr (i : Nat) : Word := s.globalAddr o.c o.a 0 i
    let ok (i : Nat) : Bool := (addr i).toNat % 8 == 0 && decide ((addr i).toNat % 64 + n ≤ 64)
    let src (t : Tlb) : Bool := t.kind = kShared || t.kind = kMould || t.kind = kImmutable || t.kind = kFabric
    s.remoteIssue ⟨some (addr, ok, .load, src), some (fun i => s.readV o.d.toNat i), some b, fun t => t.kind = kShared⟩ .load fun t x =>
      let p := t.groupPacket 0x66 0 x.gen x.va.toNat x.target []
      (t.send { p.bound (some b) x.line (t.contribIndex b.base x.lane) 0 with aux := [n, x.mould, (s.readV o.d.toNat x.lane).toNat] }).1

/-- Whether a group's accesses still to be performed touch a range of memory (R229). -/
def Group.touches (g : Group) (pa n : Nat) : Bool :=
  g.accs.any fun a => a.2.space = .mem && a.2.pieces.any fun p => p.pending && decide (p.addr < pa + n) && decide (pa < p.addr + a.2.size)

/-- The checks of lanes of a CRRD (R407). -/
def State.crucibleLanes (s : State) (o : CrRead) (m : Mask) : State × List LaneChk :=
  let here := s.curDie
  s.checkLanes m fun t i =>
    let va := s.globalAddr o.c o.a (o.disp.toInt * 64) i
    if 2 ^ 56 ≤ va.toNat then (t, va, .fail 0x10)
    else if va.toNat % 64 ≠ 0 then (t, va, .fail 0x13)
    else match t.translateWith t.curCore t.grp.cx.asid va.toNat .load (fun e => kindAdmits e.kind (dieOfPa (e.frame % 2 ^ 44) == here) .load && e.kind != kDevice) with
      | (t, .ok pa _) => (t, va, .pass (paOf pa) 0 true false)
      | (t, .served r p n) => (t, va, .served r p n)
      | (t, .trap c) => (t, va, .fail c)
      | (t, .again r) => (t, va, .again r)

/-- The snapshots that the lanes of a CRRD that pass have still to take (R407). -/
def cruciblePieces (l : List LaneChk) : List Piece :=
  (passing l).map fun p => { mkPiece p.1.lane p.2.1 0 true false 0 0 with va := p.1.va.toNat }

/-- The snapshots that lanes have taken: lane, result, flags and poison. -/
def Acc.snapshots (a : Acc) : List (Nat × Word × FpFlags × Bool) :=
  a.pieces.filterMap fun p => match p.st with
    | .ready v x => some (p.lane, v, p.data.setWidth 5, x)
    | _ => none

/-- Writes the results of a CRRD with their flags (R165, R407). -/
def State.crucibleWrite (s : State) (o : CrRead) (rs : List (Nat × Word × FpFlags × Bool)) : State :=
  let flags (i : Nat) : FpFlags := match rs.find? fun r => r.1 == i with | some r => r.2.2.1 | none => 0
  s.withFlags flags fun s =>
    let s := s.writeV o.d.toNat (maskOf fun i => rs.any fun r => r.1 == i) 5 fun i =>
      match rs.find? fun r => r.1 == i with | some r => r.2.1 | none => 0
    let mark (t : Tab Bool) (i : Nat) : Tab Bool := (t.insert (2 * vkey o.d.toNat i) true).insert (2 * vkey o.d.toNat i + 1) true
    s.modGrp fun g => { g with vpois := rs.foldl (fun t r => if r.2.2.2 then mark t r.1 else t) g.vpois }

/-- CRRD (R407): each lane's line is read as one snapshot at die scope, at an instant of its own, while the split stalls; then the results are
written as a floating-point operation's. -/
def State.crucibleLoad (s : State) (o : CrRead) : State :=
  let stall (s : State) (n : Nat) : State := s.waitFor (.lines n)
  let finish (s : State) (l : List LaneChk) : State := (s.noteServed AccessKind.load.code l).trapFails l
  match (match s.spl.woke with | some (.lines n) => (s.grp.accs.find? n).map fun a => (n, a) | _ => none) with
  | some (n, a) =>
    let (s, l) := s.crucibleLanes o (s.cur.mask &&& ~~~maskOf fun i => a.pieces.any fun p => p.lane == i)
    s.withChecks l fun s l =>
      if (passing l).isEmpty then
        let t := (s.modGrp fun g => { g with accs := g.accs.erase n }).crucibleWrite o a.snapshots
        if t.cur.flow = .run then finish t l else t
      else stall (s.modGrp fun g => { g with accs := g.accs.modify n fun a => { a with pieces := a.pieces ++ cruciblePieces l } }) n
  | none => s.guarded s.cur.mask [rdU o.c, rdV o.a, wrV o.d] fun s =>
    let (s, l) := s.crucibleLanes o s.cur.mask
    s.withChecks l fun s l =>
      if (passing l).isEmpty then finish s l
      else stall (s.addPieces (mkAcc (.crucible (fmtOf o.e) s.fpCtx) .mem 64 false .none .die .crucible (cruciblePieces l))) s.uid

/-! ### Uniform instructions -/

/-- The address checks of a uniform remote instruction (R409): traps blame EXEC, and a served fault makes the whole split FAULTED. -/
def State.uniformVa (s : State) (va : Word) (align : Nat) (a : AccessKind) (kindOk : Tlb → Bool) (k : State → Nat → BitVec 16 → BitVec 3 → State) : State :=
  if 2 ^ 56 ≤ va.toNat then s.trapExec 0x10 va
  else if va.toNat % align ≠ 0 then s.trapExec 0x13 va
  else match s.remoteVa va a kindOk with
    | (s, .ok pa gen kind) => k s pa gen kind
    | (s, .fail c) => s.trapExec c va
    | (s, .served r p n) => s.faultSplit a.code [⟨0, va, .served r p n⟩]
    | (s, .again r) => s.withChecks [⟨0, va, .again r⟩] fun s _ => s.trapExec 0x17 va

/-- ARRINIT (R409, R410). -/
def State.lineInit (s : State) (o : ArrInit) : State :=
  s.guarded s.cur.mask [rdU o.a, rdUlo o.b, rdU o.c] fun s =>
    let va := s.readU o.a.toNat
    let n := (s.readU o.b.toNat).toNat % 2 ^ 32
    let tv := s.readU o.c.toNat
    if va.toNat < 2 ^ 56 ∧ va.toNat % 64 = 0 ∧ tv.toNat < 2 ^ 56 ∧ tv.toNat % 64 ≠ 0 then s.trapExec 0x13 tv
    else s.uniformVa va 64 .store (fun t => t.kind = kShared) fun s pa gen _ =>
      s.uniformVa tv 64 .store (fun _ => true) fun s tags _ kind =>
        (s.send { s.groupPacket 0xCC 0 gen va.toNat pa [] with lineVa := some tv.toNat, aux := [n, tags, if kind = kShared then 1 else 0] }).1

/-- CRCLR (R409, R410). -/
def State.crucibleClear (s : State) (o : OneU) : State :=
  s.guarded s.cur.mask [rdU o.a] fun s =>
    let va := s.readU o.a.toNat
    s.uniformVa va 64 .store (fun t => t.kind = kShared) fun s pa gen _ => (s.send (s.groupPacket 0xCD 0 gen va.toNat pa [])).1

/-- The pages of an MCLR range are translated one by one; then each goes as a packet to its own home (R410). -/
def State.clearPages : List (Nat × Nat) → List (Nat × Nat × Nat × BitVec 16) → State → State
  | [], ps, s => ps.foldl (fun s p => (s.send { s.groupPacket 0xCE 0 p.2.2.2 p.1 p.2.2.1 [] with aux := [p.2.1] }).1) s
  | (va, n) :: rest, ps, s =>
    s.uniformVa (BitVec.ofNat 64 va) 8 .store (fun t => t.kind = kMould) fun s pa gen _ => State.clearPages rest (ps ++ [(va, n, pa, gen)]) s

/-- The parts of a range within each 4 KiB page. -/
def pagesOf (va n : Nat) : List (Nat × Nat) :=
  (List.range ((va + max n 1 + 4095) / 4096 - va / 4096)).map fun k =>
    let a := if k = 0 then va else (va / 4096 + k) * 4096
    (a, min (va + n) ((a / 4096 + 1) * 4096) - a)

/-- MCLR (R409, R410). -/
def State.mouldClear (s : State) (o : MClr) : State :=
  s.guarded s.cur.mask [rdU o.a, rdUlo o.b] fun s =>
    let va := s.readU o.a.toNat
    let n := (s.readU o.b.toNat).toNat % 2 ^ 21
    if va.toNat < 2 ^ 56 ∧ (va.toNat % 8 ≠ 0 ∨ n % 8 ≠ 0 ∨ 2 ^ 20 < n) then s.trapExec 0x13 va
    else if 2 ^ 56 ≤ va.toNat then s.trapExec 0x10 va
    else State.clearPages (pagesOf va.toNat n) [] s

/-- Raises the recorded remote error, if one is held (R418). -/
def State.deliverRemote (s : State) (body : State → State) : State :=
  match s.grp.rerr with
  | some (c, _, a) => s.deliverTrap .remote c.toNat a
  | none => body s

/-- The end of a WAITA (R412): sd and SC, and the acquire where the line is DONE. -/
def State.endWaita (s : State) (o : WaitLine) (status : Nat) : State :=
  let done := status.testBit 4
  let s := (s.writeU o.d.toNat (BitVec.ofNat 64 (status % 2 ^ 32)) 0).writeSc done
  if done then s.acquireAt s.curCore .die else s

/-- WAITA (R412). -/
def State.waitLine (s : State) (o : WaitLine) : State :=
  let timeout (s : State) : State := (s.writeU o.d.toNat 0 0).writeSc false
  let late (s : State) (e : Option Nat) : Bool := e.any fun t => decide (t ≤ s.clk)
  match s.spl.woke with
  | some (.line ..) =>
    match s.spl.answer with
    | some (_, _, hi) => s.endWaita o (hi.toNat % 2 ^ 32)
    | none => timeout s
  | _ =>
    s.guarded s.cur.mask ([rdU o.a] ++ o.b.toList.map rdUlo ++ [wrU o.d, wrSc]) fun s => s.deliverRemote fun s =>
      let va := s.readU o.a.toNat
      let e := s.spl.expiry.or (o.b.map fun r => s.spl.readyAt + (s.readU r.toNat).toNat % 2 ^ 32)
      let s := s.modSpl fun p => { p with expiry := e }
      s.uniformVa va 64 .load sharedOrFabric fun s pa gen kind =>
        if kind ≠ kFabric ∧ dieOfPa (paOf pa) = s.curDie then
          if s.lineEnds (paOf pa) then s.endWaita o (s.lineFlags (paOf pa))
          else if late s e then timeout s
          else s.waitFor (.line (paOf pa) none e)
        else
          let (s, n) := s.send (s.groupPacket 0x30 0 gen va.toNat pa [])
          s.waitFor (.line (paOf pa) (some n) e)

/-- ARRST (R413): the line's low 16 bytes as one snapshot at its home. -/
def State.lineStatus (s : State) (o : TwoU) : State :=
  let write (s : State) (lo hi : Word) : State :=
    ((s.writeU o.d.toNat lo 0).writeU (o.d + 1).toNat hi 0).writeSc (hi.getLsbD 4)
  match s.spl.answer with
  | some (_, lo, hi) => write s lo hi
  | none =>
    s.guarded s.cur.mask [rdU o.a, wrU o.d, wrU (o.d + 1), wrSc] fun s =>
      let va := s.readU o.a.toNat
      s.uniformVa va 64 .load sharedOrFabric fun s pa gen kind =>
        if kind ≠ kFabric ∧ dieOfPa (paOf pa) = s.curDie then
          write s (BitVec.ofNat 64 (s.homeN (paOf pa) 8)) (BitVec.ofNat 64 (s.homeN (paOf pa + 8) 8))
        else
          let (s, n) := s.send (s.groupPacket 0x31 0 gen va.toNat pa [])
          s.waitFor (.answer n)

/-- RFLUSH (R414). -/
def State.remoteFlush (s : State) : State :=
  if s.spl.woke ≠ some .rflush ∧ s.packetsOut s.cur.gid then s.waitFor .rflush else s.deliverRemote id

/-- DGFOLD (R462): one remote add of the digest, type I64, at the index of the binding exactly. -/
def State.digestFold (s : State) (o : DgFold) : State :=
  s.guarded s.cur.mask (rdU o.a :: bindUses o.b) fun s =>
    let va := lowBits 56 (s.readU o.a.toNat)
    let b := s.binding o.b
    if !b.wf then s.trapExec 0x13 b.lineVa
    else s.uniformVa va 8 .store sharedOrFabric fun s target gen _ =>
      s.uniformVa b.lineVa 64 .store sharedOrFabric fun s line _ _ =>
        if nodeOf line ≠ nodeOf target ∨ (nodeOf target = s.nodeId s.curDie ∧ dieOfPa (paOf line) ≠ dieOfPa (paOf target)) then s.trapExec 0x11 b.lineVa
        else
          let bytes := bytesOf 8 s.grp.dgst.toNat
          let p := s.groupPacket 0x20 (kindByte .i64) gen va.toNat target bytes
          let s := (s.send (p.bound (some b) (some line) b.base (tagOf 0x20 (kindByte .i64) target bytes))).1
          if o.clr then s.modGrp fun g => { g with dgst := 0 } else s

/-- DGCHK (R462): the digest word as a plain load of scope `.die`, compared with sb. -/
def State.digestCheck (s : State) (o : SrcTwo) : State :=
  s.guarded s.cur.mask [rdU o.a, rdU o.b] fun s =>
    let va := lowBits 56 (s.readU o.a.toNat)
    let (s, r) := s.checkGlobal .load 8 false va
    s.withChecks [⟨0, va, r⟩] fun s l => match l with
      | ⟨_, _, .fail c⟩ :: _ => s.trapExec c va
      | ⟨_, _, .pass pa _ _ _⟩ :: _ =>
        if s.grp.touches pa 8 ∨ !s.memReady pa then (s.attemptLater s.cur.gid s.cur.ent false id).setFlow .stall
        else
          let (s, v, x) := s.loadAt s.curCore .home pa 8
          if x then s.trapExec 0x16 va
          else if BitVec.ofNat 64 v ≠ s.readU o.b.toNat then s.trapExec 0x20 (BitVec.ofNat 64 v)
          else s
      | l => s.faultSplit AccessKind.load.code l

/-! ### Meanings -/

/-- RADD (R402). -/
def execRadd (o : Remote) (s : State) : Host.Outcome State Fault Refusal := .next (s.remoteOp o 0x20 (o.e.w / 8) sharedOrFabric)
/-- RMIN (R402). -/
def execRmin (o : Remote) (s : State) : Host.Outcome State Fault Refusal := .next (s.remoteOp o 0x21 (o.e.w / 8) sharedOrFabric)
/-- RMAX (R402). -/
def execRmax (o : Remote) (s : State) : Host.Outcome State Fault Refusal := .next (s.remoteOp o 0x22 (o.e.w / 8) sharedOrFabric)
/-- ROR (R402). -/
def execRor (o : Remote) (s : State) : Host.Outcome State Fault Refusal := .next (s.remoteOp o 0x23 (o.e.w / 8) sharedOrFabric)
/-- RWO (R404). -/
def execRwo (o : Remote) (s : State) : Host.Outcome State Fault Refusal :=
  .next (s.remoteOp o 0x24 8 fun t => t.kind = kMould || t.kind = kFabric)
/-- RARR (R404). -/
def execRarr (o : RemArr) (s : State) : Host.Outcome State Fault Refusal := .next (s.remoteArrive o)
/-- RGET (R405). -/
def execRget (o : RemGet) (s : State) : Host.Outcome State Fault Refusal := .next (s.remoteGet o)
/-- CRADD (R406). -/
def execCradd (o : Remote) (s : State) : Host.Outcome State Fault Refusal := .next (s.remoteOp o 0x27 64 sharedOrFabric)
/-- CRRD (R407). -/
def execCrrd (o : CrRead) (s : State) : Host.Outcome State Fault Refusal := .next (s.crucibleLoad o)
/-- ARRINIT (R410). -/
def execArrinit (o : ArrInit) (s : State) : Host.Outcome State Fault Refusal := .next (s.lineInit o)
/-- CRCLR (R410). -/
def execCrclr (o : OneU) (s : State) : Host.Outcome State Fault Refusal := .next (s.crucibleClear o)
/-- MCLR (R410). -/
def execMclr (o : MClr) (s : State) : Host.Outcome State Fault Refusal := .next (s.mouldClear o)
/-- WAITA (R412). -/
def execWaita (o : WaitLine) (s : State) : Host.Outcome State Fault Refusal := .next (s.waitLine o)
/-- ARRST (R413). -/
def execArrst (o : TwoU) (s : State) : Host.Outcome State Fault Refusal := .next (s.lineStatus o)
/-- RFLUSH (R414). -/
def execRflush (s : State) : Host.Outcome State Fault Refusal := .next s.remoteFlush
/-- DGFOLD (R462). -/
def execDgfold (o : DgFold) (s : State) : Host.Outcome State Fault Refusal := .next (s.digestFold o)
/-- DGCHK (R462). -/
def execDgchk (o : SrcTwo) (s : State) : Host.Outcome State Fault Refusal := .next (s.digestCheck o)

end Sys2Proof.Machine
end

