-- ==== Sys2Proof/Machine/Ladle.lean ====
section
/-! DEFINITION. The ladle: its tile records and formats, its commands, and the performance of their pieces (spec/08_core_memory_and_ladle.md
R243 to R253; spec/01_number_formats.md R17, R27 to R32; spec/14_package_remote_operations.md R408; spec/16_fabric_collectives_and_checkpoint.md
R455 to R458). -/

namespace Sys2Proof.Machine

/-! ### The tile record (R245, R456) -/

/-- The fields of a tile record. -/
structure Rec where
  (gaddr spitch saddr gpitch cols rows cbver block swz order cf sf scales ckind caddr count ilist sig bound reduce : Nat)
deriving DecidableEq, Repr, Inhabited

/-- Word k of a record. -/
def recWord (w : List Word) (k : Nat) : Nat := (w.getD k 0).toNat

/-- The fields of a record's words. -/
def Rec.of (w : List Word) : Rec :=
  let x (k h l : Nat) : Nat := bits (recWord w k) h l
  { gaddr := x 0 55 0, spitch := x 1 47 32, saddr := x 1 31 0, gpitch := x 2 63 32, cols := x 2 31 16, rows := x 2 15 0,
    cbver := x 3 39 32, block := x 3 31 24, swz := x 3 19 18, order := x 3 17 16, cf := x 3 15 8, sf := x 3 7 0,
    scales := x 4 55 0, ckind := x 5 1 0, caddr := x 5 63 2 * 4, count := x 6 63 32, ilist := x 6 31 0,
    sig := x 7 63 36, bound := x 7 35 4, reduce := x 7 3 0 }

/-! ### Formats (R246) -/

/-- The bits of an element of a format code. -/
def fmtBits (c : Nat) : Option Nat :=
  match c with
  | 0x00 | 0x04 | 0x05 | 0x07 => some 8
  | 0x01 | 0x0B => some 32
  | 0x02 | 0x03 | 0x0C => some 16
  | 0x06 | 0x08 => some 4
  | 0x09 => some 2
  | 0x0A => some 64
  | _ => none

/-- The floating-point format of a format code. -/
def fmtFloat (c : Nat) : Option Fmt :=
  match c with
  | 0x01 => some .f32
  | 0x02 => some .f16
  | 0x03 => some .bf16
  | 0x04 => some .e4m3
  | 0x05 => some .e5m2
  | 0x06 => some .e2m1
  | 0x0A => some .f64
  | _ => none

/-- Whether a code may be the canonical format. -/
def mayBeCfmt (c : Nat) : Bool := (fmtBits c).isSome && c != 0x06 && c != 0x08 && c != 0x09

/-- Whether a memory format loads unscaled into a canonical one. -/
def loadsAs (sf cf : Nat) : Bool :=
  match sf with
  | 0x00 => cf == 0x00
  | 0x01 | 0x02 | 0x03 => cf == 0x01 || cf == 0x02 || cf == 0x03 || cf == 0x04 || cf == 0x05
  | 0x04 | 0x05 => (fmtFloat cf).isSome && cf != 0x06
  | 0x06 => cf == 0x01 || cf == 0x02 || cf == 0x03 || cf == 0x04
  | 0x07 | 0x08 => cf == 0x07 || cf == 0x0B || cf == 0x0C
  | 0x0A => cf == 0x0A || cf == 0x01
  | 0x0B => cf == 0x0B
  | 0x0C => cf == 0x0B || cf == 0x0C
  | _ => false

/-- Whether a memory format loads scaled into a canonical one. -/
def loadsScaled (sf cf : Nat) : Bool :=
  (sf == 0x04 || sf == 0x05 || sf == 0x06 || sf == 0x07 || sf == 0x08 || sf == 0x09)
  && (cf == 0x01 || cf == 0x02 || cf == 0x03 || cf == 0x04)

/-- The memory bits of an element, at least one. -/
def Rec.sb (r : Rec) : Nat := (fmtBits r.sf).getD 8
/-- The bytes of a canonical element. -/
def Rec.cs (r : Rec) : Nat := (fmtBits r.cf).getD 8 / 8
/-- Whether a load is scaled. -/
def Rec.scaled (r : Rec) : Bool := r.scales != 0 || r.sf == 0x09

/-- The settings of every ladle conversion: RNE with saturation, no flush (R247). -/
def ladleCtx : FpCtx := { rm := .rne, sat := .quiet, ftz := false, daz := false }

/-- An S10 scale (R27). -/
def s10 (x : Nat) : Fv :=
  let e := bits x 9 2
  if e = 0 then .fin ⟨false, 0, 0⟩ else if e = 255 then .nan false else .fin ⟨false, 4 + x % 4, (e : Int) - 129⟩

/-- An element as a value. -/
def elemValue (sf x : Nat) : Fv :=
  match fmtFloat sf with
  | some f => f.decode x
  | none => let v := sext ((fmtBits sf).getD 8) x; .fin ⟨v < 0, v.natAbs, 0⟩

/-- A scaled element in a canonical format (R29); LQ2 saturates into E4M3 (R32). -/
def scaledElem (cf : Nat) (lq2 : Bool) (v scale : Fv) : Nat :=
  let f := (fmtFloat cf).getD .f32
  let c : FpCtx := if f = .e4m3 && !lq2 then { ladleCtx with sat := .off } else ladleCtx
  match scale, v with
  | .nan _, _ => f.nanCode
  | .fin ⟨_, 0, _⟩, .fin _ => 0
  | .fin ⟨_, 0, _⟩, _ => f.nanCode
  | _, .nan _ => f.nanCode
  | _, _ => (f.round c (v.mul scale).1).1

/-- A memory element in the canonical format (R247). -/
def loadElem (sf cf x : Nat) (scale : Option Fv) : Nat :=
  match scale with
  | some sc => scaledElem cf false (elemValue sf x) sc
  | none =>
    if sf = cf then x
    else match fmtFloat cf with
      | some f => (f.round ladleCtx (elemValue sf x)).1
      | none => wrapNat ((fmtBits cf).getD 8) (sext ((fmtBits sf).getD 8) x)

/-- Weight j of an LQ2 index under a lattice entry, before its scale (R30 to R32). -/
def lq2Weight (index entry j : Nat) : Fv :=
  let m := bits entry (4 * j + 3) (4 * j)
  let n := 2 * m + index % 2
  let neg := if j = 7 then popcountNat 7 (bits index 7 1) % 2 = 1 else index.testBit (j + 1)
  .fin ⟨neg && n != 0, n, -2⟩

/-- A canonical element in the memory format (R249). -/
def storeElem (sf cf x : Nat) : Nat :=
  if sf = cf then x
  else match fmtFloat sf, fmtFloat cf with
    | some g, some f => (g.round ladleCtx (f.decode x)).1
    | _, _ => x

/-- LSCAT's combination of an element in memory with a canonical one (R249). -/
def combineElem (red sf cf old x : Nat) : Nat :=
  match red with
  | 2 => (old + x) % 2 ^ (fmtBits sf).getD 8
  | 7 => match fmtFloat sf, fmtFloat cf with
    | some g, some f => (g.round ladleCtx ((g.decode old).add .rne (f.decode x)).1).1
    | _, _ => x
  | _ => storeElem sf cf x

/-! ### Record checks (R244 to R249, R252, R408, R456, R457) -/

/-- The scratchpad rows of a tile, and the bytes of a row (R248). -/
def Rec.scrRows (r : Rec) (n : Nat) : Nat × Nat := if r.order = 2 then (r.cols, n * r.cs) else (n, r.cols * r.cs)

/-- One past the last scratchpad byte of n rows. With SWZ the pieces of a row trade places within groups, and the last row counts with its last group
whole (log 111). -/
def Rec.scrEnd (r : Rec) (n : Nat) : Nat :=
  let (ny, rb) := r.scrRows n
  let grp := 16 * 2 ^ (r.swz + 1)
  if ny = 0 then 0 else r.saddr + (ny - 1) * r.spitch + (if r.swz = 0 then rb else (rb + grp - 1) / grp * grp)

/-- The numbers of the words at fault that all ladle records share, for n rows: words 0 to 2, and the format rules of word 3. -/
def Rec.commonFaults (r : Rec) (w : List Word) (size n : Nat) (store : Bool) : List Nat :=
  let (_, rb) := r.scrRows n
  let bad (k : Nat) (b : Bool) : List Nat := if b then [k] else []
  let pair :=
    if (fmtBits r.sf).isNone || !mayBeCfmt r.cf then false
    else if store then r.sf == r.cf || ((fmtFloat r.sf).isSome && (fmtFloat r.cf).isSome && decide (r.sb < 8 * r.cs))
    else if r.scaled then loadsScaled r.sf r.cf else loadsAs r.sf r.cf
  bad 0 (recWord w 0 / 2 ^ 56 != 0)
  ++ bad 1 (recWord w 1 / 2 ^ 49 != 0 || r.spitch % 16 != 0 || r.saddr % 16 != 0 || decide (size < r.scrEnd n)
      || (r.swz != 0 && (decide (r.spitch < 16 * 2 ^ (r.swz + 1)) || decide (r.spitch < rb))))
  ++ bad 2 (r.cols == 0 || (r.sb == 4 && r.cols % 2 != 0) || (r.sf == 0x09 && r.cols % 64 != 0)
      || (!store && r.scaled && r.block != 0 && r.cols % r.block != 0))
  ++ bad 3 (bits (recWord w 3) 23 20 != 0 || r.order == 3 || !pair)

/-- The first word at fault of LTILE, LGATH and LSCAT, for a block with `size` bytes of scratchpad (R244, R245; the line address of
a bound LSCAT is log 131). -/
def Rec.fault (r : Rec) (w : List Word) (size : Nat) (op : LOp) : Option Nat :=
  let (tile, store, scat) := match op with
    | .tile st => (true, st, false)
    | .scatter _ => (false, true, true)
    | _ => (false, false, false)
  let n := if tile then r.rows else r.count
  let bad (k : Nat) (b : Bool) : List Nat := if b then [k] else []
  let line := r.ckind == 2
  let redOk :=
    if !scat then r.reduce == 0
    else if !line then r.reduce == 0 || (r.reduce == 2 && (r.sf == 0x0B || r.sf == 0x0C)) || (r.reduce == 7 && (r.sf == 0x01 || r.sf == 0x03))
    else 1 ≤ r.reduce && r.reduce ≤ 6
  let lineFmt := match r.reduce with
    | 1 => r.sf == 0x0A || r.sf == 0x01 || r.sf == 0x02 || r.sf == 0x03
    | 2 | 3 | 4 => r.sf == 0x0B
    | 5 => r.sf == 0x0B || r.sf == 0x00
    | _ => true
  let all := r.commonFaults w size n store
    ++ bad 0 (line && r.reduce == 6 && r.gaddr % 8 != 0)
    ++ bad 2 ((r.rows == 0) == tile || (line && r.reduce == 6 && r.gpitch % 8 != 0))
    ++ bad 3 (bits (recWord w 3) 63 40 != 0 || (line && (r.sf != r.cf || !lineFmt))
        || (if store || !r.scaled then r.block != 0 else if r.sf == 0x09 then r.block != 64 else r.block != 32 && r.block != 64))
    ++ bad 4 (recWord w 4 / 2 ^ 56 != 0 || r.scales % 4 != 0 || (store && r.scales != 0) || (r.sf == 0x09 && r.scales == 0))
    ++ bad 5 (r.ckind == 3 || (line && !scat) || (line && r.caddr % 64 != 0) || (line && decide (2 ^ 56 ≤ r.caddr))
        || (r.ckind == 1 && (r.caddr % 8 != 0 || decide (size < r.caddr + 8))))
    ++ bad 6 (if tile then recWord w 6 != 0 else r.ilist % 4 != 0 || decide (size < r.ilist + 4 * r.count))
    ++ bad 7 (!redOk)
  match all with
  | [] => none
  | a :: as => some (as.foldl min a)

/-- The grid of a TSEND record (R456): the sender's coordinates and the dimensions. -/
structure Grid where
  (xc yc zc x y z mask : Nat)
deriving DecidableEq, Repr, Inhabited

/-- The grid of a record's words. -/
def Grid.of (w : List Word) : Grid :=
  let f (k h l : Nat) : Nat := bits (recWord w k) h l
  ⟨f 3 47 40, f 3 55 48, f 3 63 56, f 6 7 0, f 6 15 8, f 6 23 16, f 6 55 24⟩

/-- The linear numbers of the ranks that MASK selects, in ascending order (R457). -/
def Grid.ranks (g : Grid) : List Nat :=
  let lin (a b c : Nat) : Nat := a + g.x * (b + g.y * c)
  if g.mask.testBit 31 then
    [lin ((g.xc + bits g.mask 7 0) % max g.x 1) ((g.yc + bits g.mask 15 8) % max g.y 1) ((g.zc + bits g.mask 23 16) % max g.z 1)]
  else
    let axis (k n c : Nat) : List Nat := if g.mask.testBit k then List.range n else [c]
    let all := (axis 2 g.z g.zc).flatMap fun c => (axis 1 g.y g.yc).flatMap fun b => (axis 0 g.x g.xc).map fun a => lin a b c
    if g.mask.testBit 3 then all else all.filter (· != lin g.xc g.yc g.zc)

/-- The first word at fault of a TSEND record (R456, R457). -/
def Rec.sendFault (r : Rec) (w : List Word) (size : Nat) : Option Nat :=
  let g := Grid.of w
  let bad (k : Nat) (b : Bool) : List Nat := if b then [k] else []
  let fmtOk := match r.reduce with
    | 1 => r.sf == 0x0A || r.sf == 0x01 || r.sf == 0x02 || r.sf == 0x03
    | 2 | 3 | 4 => r.sf == 0x0B
    | 5 => r.sf == 0x0B || r.sf == 0x00
    | _ => true
  let body := if r.reduce = 0 then [] else
    r.commonFaults w size r.rows true
    ++ bad 0 (r.reduce == 6 && r.gaddr % 8 != 0)
    ++ bad 2 (r.rows == 0 || (r.reduce == 6 && r.gpitch % 8 != 0))
    ++ bad 3 (r.block != 0 || r.order != 0 || r.sf != r.cf || !fmtOk)
  let all := body
    ++ bad 3 (decide (g.x ≤ g.xc) || decide (g.y ≤ g.yc) || decide (g.z ≤ g.zc))
    ++ bad 4 (recWord w 4 / 2 ^ 56 != 0 || r.scales % 64 != 0)
    ++ bad 5 (r.ckind != 2 || r.caddr % 64 != 0 || decide (2 ^ 56 ≤ r.caddr))
    ++ bad 6 (recWord w 6 / 2 ^ 56 != 0 || g.x == 0 || g.y == 0 || g.z == 0
        || (if g.mask.testBit 31 then bits g.mask 30 24 != 0 else bits g.mask 30 4 != 0) || g.ranks.isEmpty)
    ++ bad 7 (decide (6 < r.reduce))
  match all with
  | [] => none
  | a :: as => some (as.foldl min a)

/-! ### Placement (R247, R248) -/

/-- The scratchpad address of canonical element (k, c). -/
def Rec.scrAt (r : Rec) (k c : Nat) : Nat :=
  let (y, off) := if r.order = 2 then (c, k * r.cs) else (k, c * r.cs)
  let off := if r.swz = 0 then off else ((off / 16) ^^^ (y % 2 ^ (r.swz + 1))) * 16 + off % 16
  r.saddr + y * r.spitch + off

/-- The memory line start and the element index in it of element (x, c). ORDER places the rows of LGATH and LSCAT as it does those of a tile
(log 110). -/
def Rec.memAt (r : Rec) (x c : Nat) : Nat × Nat := if r.order = 1 then (r.gaddr + c * r.gpitch, x) else (r.gaddr + x * r.gpitch, c)

/-- The virtual address and bit offset of a memory element; LQ2 names the index of the element. -/
def Rec.vaBit (r : Rec) (x c : Nat) : Nat × Nat :=
  let (base, e) := r.memAt x c
  if r.sf = 0x09 then (base + 2 * (e / 8), 0) else (base + e * r.sb / 8, e * r.sb % 8)

/-- The bytes of a memory element's access. -/
def Rec.accBytes (r : Rec) : Nat := if r.sf = 0x09 then 2 else max (r.sb / 8) 1

/-- The columns of a 64-byte piece of a row. -/
def Rec.pieceCols (r : Rec) : Nat := 512 / r.sb
/-- The pieces of a row. -/
def Rec.piecesPerRow (r : Rec) : Nat := (r.cols + r.pieceCols - 1) / r.pieceCols
/-- The columns of piece p of a row. -/
def Rec.colsOf (r : Rec) (p : Nat) : List Nat :=
  (List.range r.pieceCols).filterMap fun i => if p * r.pieceCols + i < r.cols then some (p * r.pieceCols + i) else none

/-- The bytes of a row in memory. -/
def Rec.rowBytes (r : Rec) : Nat := (r.cols * r.sb + 7) / 8
/-- The 64-byte aligned pieces of the memory row at an address: their addresses and lengths (R408). -/
def Rec.linesOf (r : Rec) (row : Nat) : List (Nat × Nat) :=
  (List.range ((row + r.rowBytes + 63) / 64 - row / 64)).map fun p =>
    let a := max row ((row / 64 + p) * 64)
    (a, min (row + r.rowBytes) ((row / 64 + p + 1) * 64) - a)
/-- The most 64-byte aligned pieces that a row can have. -/
def Rec.maxLines (r : Rec) : Nat := (r.rowBytes + 126) / 64

/-- The pieces of a command: its positions times the pieces of each. -/
def LCmd.pieceCount (m : LCmd) : Nat :=
  let r := Rec.of m.words
  let perRow := if r.reduce = 1 then r.cols else r.maxLines
  match m.op with
  | .tile _ => r.rows * r.piecesPerRow
  | .gather _ => r.count * r.piecesPerRow
  | .scatter _ => r.count * (if r.ckind = 2 then perRow else r.piecesPerRow)
  | .codebook _ _ => 1
  | .tsend => (Grid.of m.words).ranks.length * (if r.reduce = 0 then 1 else r.rows * perRow)

/-- The bytes that a command moves into or out of scratchpad, which it takes from PENDING (R252). -/
def LCmd.bytes (m : LCmd) : Nat :=
  let r := Rec.of m.words
  (match m.op with | .tile _ => r.rows | _ => r.count) * r.cols * r.cs

/-! ### Errors and completion (R250, R252) -/

/-- Records an error of a ladle or riddle command: the earliest in issue order and position is kept (R250). -/
def State.recordErr (s : State) (gid : Nat) (e : LErr) : State :=
  s.modGroup gid fun g => match g.lerr with
    | none => { g with lerr := some e }
    | some old => if e.seq < old.seq ∨ (e.seq = old.seq ∧ e.pos < old.pos) then { g with lerr := some e } else g

/-- Marks a piece of a command done. -/
def State.pieceDone (s : State) (core k j : Nat) : State :=
  s.modCore core fun c => { c with ladle := c.ladle.modify k fun m =>
    { m with done := if m.done.contains j then m.done else m.done ++ [j], blocked := m.blocked.erase j } }

/-- A piece that fails: the error is recorded and the piece is done. -/
def State.pieceFail (s : State) (core k j : Nat) (m : LCmd) (cause : BitVec 8) (taddr : Word) : State :=
  (s.recordErr m.gid ⟨m.seq, j, cause, taddr⟩).pieceDone core k j

/-- The end of a ladle or riddle command that is bound to a phase barrier: its bytes are taken from PENDING (R252, R374); a poisoned word is an error of
the command, after those of its positions (R221; log 124). -/
def State.endPhase (s : State) (gid blk addr bytes seq pos : Nat) : State :=
  let s := if (s.block blk).poisoned addr 8 then s.recordErr gid ⟨seq, pos, 0x16, BitVec.ofNat 64 addr⟩ else s
  s.updatePhase blk addr 0 (-(bytes : Int))

/-- Completes the commands of a core whose pieces are done and whose packets have ended. -/
def State.settleLadle (s : State) (core : Nat) : State :=
  (s.core core).ladle.foldl (fun s p =>
    if p.2.done.length < p.2.pieceCount ∨ p.2.packets ≠ [] then s
    else
      let s := s.modCore core fun c => { c with ladle := c.ladle.erase p.1 }
      match p.2.batch with
      | some n => s.batchStep p.2.gid n
      | none => s.endPhase p.2.gid p.2.blk (Rec.of p.2.words).caddr p.2.bytes p.2.seq p.2.pieceCount) s

/-! ### Bytes gathered by word -/

/-- The bytes of a table in whole 8-byte words where all are present, and alone otherwise. -/
def wordRuns (t : Tab Byte) : List (Nat × List Byte) :=
  ((t.map fun p => p.1 / 8).eraseDups).flatMap fun w =>
    let bs := (List.range 8).map fun i => t.find? (8 * w + i)
    if bs.all (·.isSome) then [(8 * w, bs.map fun b => b.getD 0)]
    else (List.range 8).filterMap fun i => (t.find? (8 * w + i)).map fun b => (8 * w + i, [b])

/-- Puts bytes into a table at an address. -/
def putBytes (t : Tab Byte) (a : Nat) (bs : List Byte) : Tab Byte := bs.zipIdx.foldl (fun t p => t.insert (a + p.2) p.1) t

/-- Writes gathered bytes to a block's scratchpad, and marks words poisoned. -/
def State.scrWrite (s : State) (blk : Nat) (t : Tab Byte) (pois : List Nat) : State :=
  s.modBlock blk fun b => pois.foldl (fun b a => b.poison a 1) ((wordRuns t).foldl (fun b r => b.writeBytes r.1 r.2) b)

/-- Writes gathered bytes at home, and marks words poisoned. -/
def State.homeWriteRuns (s : State) (t : Tab Byte) (pois : List Nat) : State :=
  pois.foldl (fun s a => s.homePoison a) ((wordRuns t).foldl (fun s r => s.homeWrite r.1 r.2) s)

/-! ### Translation of a piece -/

/-- How the addresses of a piece fare: package physical addresses by virtual page, a failure with its address, or a served fault. -/
inductive PageRes where
  | ok (pages : Tab Nat)
  | fail (va : Nat)
  | served (va reason page size : Nat)
  /-- Another attempt: a rejection by the home slice (R325), or memory that is not served yet (R438). -/
  | again (va : Nat) (rejected : Bool)
deriving DecidableEq, Repr, Inhabited

/-- Translates every page of a list (virtual address / 4096) for an access of the ladle. -/
def State.pageMap (s : State) (core : Nat) (asid : BitVec 16) (a : AccessKind) (kindOk : Tlb → Bool) : List Nat → Tab Nat → State × PageRes
  | [], t => (s, .ok t)
  | p :: ps, t =>
    match t.find? p with
    | some _ => State.pageMap s core asid a kindOk ps t
    | none => match s.translateWith core asid (p * 4096) a kindOk with
      | (s, .ok pa _) => State.pageMap s core asid a kindOk ps (t.insert p pa)
      | (s, .trap _) => (s, .fail (p * 4096))
      | (s, .served r pg n) => (s, .served (p * 4096) r pg n)
      | (s, .again r) => (s, .again (p * 4096) r)

/-- The physical address of a virtual one whose page has been translated. -/
def physOf (t : Tab Nat) (va : Nat) : Nat := ((t.find? (va / 4096)).getD 0 + va % 4096) % 2 ^ 44

/-- n bytes at a virtual address whose pages have been translated, as a number: read at home, of an IMMUTABLE page too (R314; log 137). -/
def State.pageN (s : State) (t : Tab Nat) (va n : Nat) : Nat := ofBytes ((List.range n).map fun i => s.homeByte (physOf t (va + i)))
/-- Whether one of n bytes at a virtual address lies in a poisoned word. -/
def State.pagePois (s : State) (t : Tab Nat) (va n : Nat) : Bool := (List.range n).any fun i => s.homePois (physOf t (va + i)) 1

/-- The pages of a list of ranges. -/
def pagesTouched (l : List (Nat × Nat)) : List Nat :=
  (l.flatMap fun p => (List.range ((p.1 + max p.2 1 + 4095) / 4096 - p.1 / 4096)).map fun k => p.1 / 4096 + k).eraseDups

/-- A piece whose pages have a served fault waits on a fault entry (R334). -/
def State.pieceBlock (s : State) (core k j : Nat) (asid : BitVec 16) (acc va reason page size : Nat) : State :=
  let (s, e) := s.appendFault (dieOfCore core) asid va page size reason acc
  match e with
  | some n => s.modCore core fun c => { c with ladle := c.ladle.modify k fun m => { m with blocked := m.blocked.insert j (n, va) } }
  | none => s

/-- The address at which a failed page is recorded: the first of a piece's addresses in it. -/
def firstIn (l : List (Nat × Nat)) (va : Nat) : Nat :=
  match l.find? fun p => decide (p.1 / 4096 * 4096 ≤ va) && decide (va < p.1 + max p.2 1) with
  | some p => max p.1 va
  | none => va

/-- The home rule of the ladle's own accesses (R316). -/
def ladleKind (core : Nat) (a : AccessKind) (t : Tlb) : Bool := kindAdmits t.kind (dieOfPa (t.frame % 2 ^ 44) == dieOfCore core) a

/-- A piece is attempted again; the sixteenth rejection in a row is an error (R250, R325). -/
def State.pieceAgain (s : State) (core k j : Nat) (m : LCmd) (va : Nat) (rejected : Bool) : State :=
  let n := m.stales.getD 0 j + 1
  if !rejected then s
  else if maxRejections ≤ n then s.pieceFail core k j m 0x1B (BitVec.ofNat 64 va)
  else s.modCore core fun c => { c with ladle := c.ladle.modify k fun m => { m with stales := m.stales.insert j n } }

/-- A piece has passed the home slices (R325). -/
def State.pieceFresh (s : State) (core k j : Nat) (m : LCmd) : State :=
  if (m.stales.find? j).isNone then s
  else s.modCore core fun c => { c with ladle := c.ladle.modify k fun m => { m with stales := m.stales.erase j } }

/-- Runs a piece once its pages are translated and their memory is served. -/
def State.withPages (s : State) (core k j : Nat) (m : LCmd) (a : AccessKind) (kindOk : Tlb → Bool) (ranges : List (Nat × Nat))
    (body : State → Tab Nat → State) : State :=
  match s.pageMap core m.asid a kindOk (pagesTouched ranges) [] with
  | (s, .ok t) => if t.any fun p => !s.memReady (p.2 % 2 ^ 44) then s else body (s.pieceFresh core k j m) t
  | (s, .again va r) => s.pieceAgain core k j m (firstIn ranges va) r
  | (s, .fail va) => s.pieceFail core k j m 0x1B (BitVec.ofNat 64 (firstIn ranges va))
  | (s, .served va r pg n) => s.pieceBlock core k j m.asid a.code (firstIn ranges va) r pg n

/-! ### Codebooks (R253) -/

/-- The place of a resident codebook version. -/
def Core.bookOf (c : Core) (v : BitVec 8) : Option Nat := (c.books.first? fun _ b => b.v == v).map (·.1)

/-- The place that a load of a version takes: its own, a free one, or the least recently used (R253). -/
def Core.bookPlace (c : Core) (v : BitVec 8) : Nat :=
  match c.bookOf v with
  | some n => n
  | none => match (List.range 4).find? fun n => (c.books.find? n).isNone with
    | some n => n
    | none => (c.books.foldl (fun (best : Nat × Nat) p => if p.2.used < best.2 then (p.1, p.2.used) else best) (0, 2 ^ 64)).1

/-- LCBLD's one piece: it waits until no command of the core has taken the version that it replaces, and behind an earlier load of its version, so
that commands issued after it see its contents (R253). -/
def State.bookPiece (s : State) (core k : Nat) (m : LCmd) (v : BitVec 8) (addr : Nat) : State :=
  let c := s.core core
  let place := c.bookPlace v
  let earlier : Bool := c.ladle.any fun p => decide (p.1 < k) && p.2.done.isEmpty && (match p.2.op with | .codebook w _ => w == v | _ => false)
  if earlier || c.ladle.any fun p => p.2.book == some place then s
  else s.withPages core k 0 m .ladleRead (ladleKind core .ladleRead) [(addr, 1024)] fun s t =>
    let bs := (List.range 1024).map fun i => s.homeByte (physOf t (addr + i))
    let x := (List.range 128).any fun i => s.homePois (physOf t (addr + 8 * i)) 8
    (s.modCore core fun c => { c with books := c.books.insert place ⟨v, bs, x, s.tick⟩ }).pieceDone core k 0

/-- A lattice entry of a codebook (R31). -/
def Book.entry (b : Book) (n : Nat) : Nat := ofBytes ((b.data.drop (4 * n)).take 4)

/-! ### Pieces of tiles and rows -/

/-- The index-list entry of a position, as first read (R249). -/
def State.listEntry (s : State) (m : LCmd) (k : Nat) : BitVec 32 :=
  match m.entries.find? k with
  | some x => x
  | none => BitVec.ofNat 32 ((s.block m.blk).readN ((Rec.of m.words).ilist + 4 * k) 4)

/-- The address of the index-list word of a position, where it holds poison and has not been read yet (R221). -/
def State.listPoison (s : State) (m : LCmd) (k : Nat) : Option Nat :=
  let a := (Rec.of m.words).ilist + 4 * k
  if (m.entries.find? k).isNone && (s.block m.blk).poisoned a 4 then some a else none

/-- Reads the index-list entry of a position and goes on with it; a poisoned one is the position's error (R221; log 124). -/
def State.withEntry (s : State) (core n j : Nat) (m : LCmd) (k : Nat) (body : State → BitVec 32 → State) : State :=
  match s.listPoison m k with
  | some a => s.pieceFail core n j m 0x16 (BitVec.ofNat 64 a)
  | none =>
    let x := s.listEntry m k
    body (s.modCore core fun c => { c with ladle := c.ladle.modify n fun m => { m with entries := m.entries.insert k x } }) x

/-- Whether an entry is out of range (R250). -/
def Rec.outOfRange (r : Rec) (x : BitVec 32) : Bool :=
  x == 0xFFFFFFFF#32 || (r.ckind != 2 && r.bound != 0 && decide (r.bound ≤ x.toNat))

/-- The ranges of memory of the columns of a piece of row x, and of their scales. -/
def Rec.ranges (r : Rec) (x : Nat) (cols : List Nat) : List (Nat × Nat) :=
  (cols.map fun c => ((r.vaBit x c).1, r.accBytes))

/-- The scale word's address of element (x, c) (R28, R247). -/
def Rec.scaleVa (r : Rec) (x c : Nat) : Nat × Nat :=
  let k := x * r.cols / max r.block 1 + c / max r.block 1
  (r.scales + 4 * (k / 3), k % 3)

/-- One memory element as the canonical format holds it, with whether its source was poisoned. -/
def State.fetchElem (s : State) (r : Rec) (book : Option Book) (t : Tab Nat) (x c : Nat) : Nat × Bool :=
  let (va, bit) := r.vaBit x c
  let raw := s.pageN t va r.accBytes / 2 ^ bit % 2 ^ (if r.sf = 0x09 then 16 else r.sb)
  let pois := s.pagePois t va r.accBytes
  if !r.scaled then (loadElem r.sf r.cf raw none, pois)
  else
    let (sva, pos) := r.scaleVa x c
    let spa := physOf t sva
    let sc := s10 (s.homeN spa 4 / 2 ^ (10 * pos) % 2 ^ 10)
    let p := pois || s.homePois spa 4
    if r.sf = 0x09 then
      match book with
      | some b => (scaledElem r.cf true (lq2Weight raw (b.entry (bits raw 15 8)) ((r.memAt x c).2 % 8)) sc, p || b.pois)
      | none => (0, p)
    else (loadElem r.sf r.cf raw (some sc), p)

/-- Loads piece p of row x into scratchpad row k (R247 to R249). -/
def State.loadPiece (s : State) (core n j : Nat) (m : LCmd) (k x p : Nat) : State :=
  let r := Rec.of m.words
  let cols := r.colsOf p
  let ranges := r.ranges x cols ++ if r.scaled then cols.map fun c => ((r.scaleVa x c).1, 4) else []
  s.withPages core n j m .ladleRead (ladleKind core .ladleRead) ranges fun s t =>
    let book := m.book.bind fun b => (s.core core).books.find? b
    let els := cols.map fun c => (r.scrAt k c, s.fetchElem r book t x c)
    let bytes := els.foldl (fun t e => putBytes t e.1 (bytesOf r.cs e.2.1)) []
    (s.scrWrite m.blk bytes ((els.filter fun e => e.2.2).map (·.1))).pieceDone core n j

/-- Stores scratchpad row k's piece p into memory row x, or combines it there (R249), as a ladle write alone (R322; log 130). -/
def State.storePiece (s : State) (core n j : Nat) (m : LCmd) (k x p : Nat) : State :=
  let r := Rec.of m.words
  let cols := r.colsOf p
  s.withPages core n j m .ladleWrite (ladleKind core .ladleWrite) (r.ranges x cols) fun s t =>
    let b := s.block m.blk
    let w := 2 ^ r.sb
    let (bytes, pois) := cols.foldl (fun (a : Tab Byte × List Nat) c =>
      let (va, bit) := r.vaBit x c
      let at_ := (List.range r.accBytes).map fun i => physOf t (va + i)
      let cur := ofBytes (at_.map fun p => (a.1.find? p).getD (s.homeByte p))
      let old := cur / 2 ^ bit % w
      let new := combineElem r.reduce r.sf r.cf old (b.readN (r.scrAt k c) r.cs)
      ((at_.zip (bytesOf r.accBytes (cur - old * 2 ^ bit + new * 2 ^ bit))).foldl (fun t q => t.insert q.1 q.2) a.1,
       if b.poisoned (r.scrAt k c) r.cs then a.2 ++ at_ else a.2)) ([], [])
    let kept := if r.reduce = 0 then [] else (bytes.filter fun q => s.homePois q.1 1).map (·.1)
    let s := (r.ranges x cols).foldl (fun s q => s.touchTables (dieOfCore core) m.asid q.1) s
    (s.homeWriteRuns bytes (pois ++ kept)).pieceDone core n j

/-! ### Pieces bound to a line (R408, R457) -/

/-- Sends one contribution of a command: its target row's bytes or element with the mask of their poisoned words, at its index. -/
def State.sendPiece (s : State) (core n j : Nat) (m : LCmd) (dest line : Nat) (data : List Byte) (pois idx : Nat) : State :=
  let r := Rec.of m.words
  let op := 0x40 + r.reduce
  let kind := if r.reduce = 0 then 0 else r.sf
  let g := s.group m.gid
  let tr (s : State) (va : Nat) (kindOk : Tlb → Bool) : State × XRes := s.translateWith core m.asid va .ladleWrite kindOk
  let finish (s : State) (target : Nat) (gen : BitVec 16) (lpa : Nat) : State :=
    if nodeOf target ≠ nodeOf lpa ∨ (nodeOf target = s.nodeId (dieOfCore core) ∧ dieOfPa (paOf target) ≠ dieOfPa (paOf lpa)) then
      s.pieceFail core n j m 0x1B (BitVec.ofNat 64 line)
    else
      let tagData := if r.reduce = 6 then [] else data
      let p := { blankPacket op kind (some (dieOfCore core)) (some m.gid) m.asid gen (some dest) target data with
        pour := g.cx.pourid.toNat, grp := g.cx.grpid.toNat, lineVa := some line, line := some lpa, idx := idx, sig := r.sig,
        tag := tagOf op kind target tagData, aux := if pois = 0 then [] else [pois], owner := some (core, n) }
      let (s, q) := (s.pieceFresh core n j m).send p
      (s.modCore core fun c => { c with ladle := c.ladle.modify n fun m => { m with packets := m.packets ++ [q] } }).pieceDone core n j
  match tr s line sharedOrFabric with
  | (s, .trap _) => s.pieceFail core n j m 0x1B (BitVec.ofNat 64 line)
  | (s, .served c pg k) => s.pieceBlock core n j m.asid AccessKind.ladleWrite.code line c pg k
  | (s, .again x) => s.pieceAgain core n j m line x
  | (s, .ok lpa lt) =>
    if r.reduce = 0 then finish s lpa lt.gen lpa
    else match tr s dest (fun t => if r.reduce = 6 then t.kind = kMould || t.kind = kFabric else sharedOrFabric t) with
      | (s, .trap _) => s.pieceFail core n j m 0x1B (BitVec.ofNat 64 dest)
      | (s, .served c pg k) => s.pieceBlock core n j m.asid AccessKind.ladleWrite.code dest c pg k
      | (s, .again x) => s.pieceAgain core n j m dest x
      | (s, .ok pa t) => finish s pa t.gen lpa

/-- Delivers piece p of scratchpad row k to memory row `row`, bound to a line with an index base (R408); P is this row's number of pieces (log
127). -/
def State.deliverPiece (s : State) (core n j : Nat) (m : LCmd) (k row line p : Nat) : State :=
  let r := Rec.of m.words
  let b := s.block m.blk
  if r.reduce = 1 then
    s.sendPiece core n j m (row + 64 * p) line (bytesOf r.cs (b.readN (r.scrAt k p) r.cs))
      (if b.poisoned (r.scrAt k p) r.cs then 1 else 0) ((r.bound + k * r.cols + p) % 2 ^ 32)
  else
    let ls := r.linesOf row
    match ls[p]? with
    | none => s.pieceDone core n j
    | some (a, len) =>
      let src (i : Nat) : Nat := r.scrAt k ((a - row + i) / max r.cs 1) + (a - row + i) % max r.cs 1
      let data := (List.range len).map fun i => b.byte (src i)
      let pois := (List.range len).foldl (fun m i => if b.poisoned (src i) 1 then m ||| 2 ^ ((a + i) / 8 - a / 8) else m) 0
      s.sendPiece core n j m a line data pois ((r.bound + k * ls.length + p) % 2 ^ 32)

/-! ### LADLE_PIECE -/

/-- An out-of-range position of a list command (R250). -/
def State.badPosition (s : State) (core n j : Nat) (m : LCmd) (k p : Nat) (gather z : Bool) : State :=
  let r := Rec.of m.words
  if z then
    let fill := if gather then (r.colsOf p).foldl (fun t c => putBytes t (r.scrAt k c) (bytesOf r.cs 0)) [] else []
    (s.scrWrite m.blk (putBytes fill (r.ilist + 4 * k) (bytesOf 4 0xFFFFFFFF)) []).pieceDone core n j
  else
    s.pieceFail core n j m 0x15 (BitVec.ofNat 64 (k + (m.batch.getD 0xFFFFFFFF) * 2 ^ 32))

/-- Whether an earlier position of a scatter that names the same row has this piece still to do (R249). -/
def State.scatterHeld (s : State) (m : LCmd) (k per p : Nat) (x : BitVec 32) : Bool :=
  (List.range k).any fun i => s.listEntry m i == x && !m.done.contains (i * per + p)

/-- Takes the codebook version of an LQ2 command; none if it is not resident (R253). -/
def State.takeBook (s : State) (core n : Nat) (m : LCmd) : Option (State × LCmd) :=
  match m.book, (s.core core).bookOf (BitVec.ofNat 8 (Rec.of m.words).cbver) with
  | some _, _ => some (s, m)
  | none, none => none
  | none, some b => some (s.modCore core fun c => { c with
      books := c.books.modify b (fun k => { k with used := s.tick }), ladle := c.ladle.modify n fun m => { m with book := some b } },
      { m with book := some b })

/-- One piece of a ladle command completes its read, decode and write (R244, R249 to R253). -/
def State.ladlePiece (s : State) (core n j : Nat) : State :=
  match (s.core core).ladle.find? n with
  | none => s
  | some m =>
    let r := Rec.of m.words
    if m.done.contains j ∨ m.pieceCount ≤ j ∨ (m.blocked.find? j).isSome ∨ (s.block m.blk).stopping then s
    else
      let lq2 : Bool := r.sf == 0x09 && (match m.op with | .tile false | .gather _ => true | _ => false)
      let behind : Bool := (s.core core).ladle.any fun p => decide (p.1 < n) && (match p.2.op with | .codebook v _ => v.toNat == r.cbver | _ => false)
      if lq2 && behind then s
      else match m.op with
        | .codebook v a => s.bookPiece core n m v a
        | .tsend =>
          let ranks := (Grid.of m.words).ranks
          let per := if r.reduce = 1 then r.cols else r.maxLines
          let each := if r.reduce = 0 then 1 else r.rows * per
          let q := ranks.getD (j / each) 0
          let line := r.caddr + q * r.scales
          if r.reduce = 0 then s.sendPiece core n j m line line [] 0 (r.bound % 2 ^ 32)
          else
            let k := j % each / per
            s.deliverPiece core n j m k (r.gaddr + q * r.scales + k * r.gpitch) line (j % per)
        | .tile st =>
          let per := r.piecesPerRow
          if st then s.storePiece core n j m (j / per) (j / per) (j % per)
          else if lq2 then
            match s.takeBook core n m with
            | some (s, m) => s.loadPiece core n j m (j / per) (j / per) (j % per)
            | none => s.pieceFail core n j m 0x1B 0x8000000000000003
          else s.loadPiece core n j m (j / per) (j / per) (j % per)
        | .gather z =>
          let per := r.piecesPerRow
          let k := j / per
          s.withEntry core n j m k fun s x =>
            if r.outOfRange x then s.badPosition core n j m k (j % per) true z
            else if lq2 then
              match s.takeBook core n m with
              | some (s, m) => s.loadPiece core n j m k x.toNat (j % per)
              | none => s.pieceFail core n j m 0x1B 0x8000000000000003
            else s.loadPiece core n j m k x.toNat (j % per)
        | .scatter z =>
          let line := r.ckind = 2
          let per := if line then (if r.reduce = 1 then r.cols else r.maxLines) else r.piecesPerRow
          let k := j / per
          s.withEntry core n j m k fun s x =>
            if r.outOfRange x then s.badPosition core n j m k (j % per) false z
            else if line then s.deliverPiece core n j m k (r.gaddr + x.toNat * r.gpitch) r.caddr (j % per)
            else if s.scatterHeld m k per (j % per) x then s
            else s.storePiece core n j m k x.toNat (j % per)

/-! ### Issue (R243, R244) -/

/-- Enters a command into the core's queue, or holds the split while the queue is full. A command holds its entry until it completes (log 112). -/
def State.enqueueLadle (s : State) (op : LOp) (words : List Word) (batch : Bool) : State :=
  let c := s.curCore
  if 32 ≤ (s.core c).ladle.length then s.waitFor .ladleSlot
  else
    let (s, b) := if batch then (let r := s.joinBatch; (r.1, some r.2)) else (s, none)
    let g := s.grp
    let m : LCmd := { gid := s.cur.gid, blk := g.cx.blk, op := op, words := words, asid := g.cx.asid, seq := g.issueSeq, batch := b,
                      packets := [], entries := [], done := [], blocked := [], stales := [], book := none }
    let n := s.uid
    ((s.modCore c fun k => { k with ladle := k.ladle.insert n m }).modGrp fun g => { g with issueSeq := g.issueSeq + 1 }).bump

/-- The eight registers of a record. -/
def recUses (a : UReg) : List Use := (List.range 8).map fun k => rdU (a + BitVec.ofNat 8 k)

/-- The words of a record. -/
def State.recWords (s : State) (a : UReg) : List Word := (List.range 8).map fun k => s.readU (a + BitVec.ofNat 8 k).toNat

/-- ENGINE_FAULT at a command (R244). -/
def State.engineFault (s : State) (code : Nat) : State := s.trapExec 0x1B (BitVec.ofNat 64 (2 ^ 63 + code))

/-- A ladle command with a tile record. -/
def State.ladleOp (s : State) (a : UReg) (op : LOp) : State :=
  s.guarded s.cur.mask (recUses a) fun s =>
    let w := s.recWords a
    let r := Rec.of w
    match (match op with | .tsend => r.sendFault w s.blk.scrSize | _ => r.fault w s.blk.scrSize op) with
    | some k => s.engineFault k
    | none => s.enqueueLadle op w (r.ckind != 1)

/-- The fault service's verdict reaches the pieces that wait on an entry (R334). -/
def State.ladleVerdict (s : State) (core entry : Nat) (resolved : Bool) : State :=
  (s.core core).ladle.foldl (fun s p => p.2.blocked.foldl (fun s q =>
    if q.2.1 ≠ entry then s
    else if resolved then s.modCore core fun c => { c with ladle := c.ladle.modify p.1 fun m => { m with blocked := m.blocked.erase q.1 } }
    else s.pieceFail core p.1 q.1 p.2 0x1B (BitVec.ofNat 64 q.2.2)) s) s

/-! ### Meanings -/

/-- LTILE (R249). -/
def execLtile (o : Ladle) (s : State) : Host.Outcome State Fault Refusal := .next (s.ladleOp o.a (.tile o.st))
/-- LGATH (R249). -/
def execLgath (o : LadleZ) (s : State) : Host.Outcome State Fault Refusal := .next (s.ladleOp o.a (.gather o.z))
/-- LSCAT (R249, R408). -/
def execLscat (o : LadleZ) (s : State) : Host.Outcome State Fault Refusal := .next (s.ladleOp o.a (.scatter o.z))
/-- TSEND (R457). -/
def execTsend (o : OneU) (s : State) : Host.Outcome State Fault Refusal := .next (s.ladleOp o.a .tsend)
/-- LCBLD (R253). -/
def execLcbld (o : LcBld) (s : State) : Host.Outcome State Fault Refusal :=
  .next (s.guarded s.cur.mask [rdU o.a] fun s =>
    let a := wbits (s.readU o.a.toNat) 55 0
    if a % 64 ≠ 0 then s.engineFault 0 else s.enqueueLadle (.codebook o.v a) [] true)
/-- LADLE_PIECE (R244). -/
def execLadlePiece (core k j : Nat) (s : State) : Host.Outcome State Fault Refusal := .next (s.ladlePiece core k j)

end Sys2Proof.Machine
end

