-- ==== Sys2Proof/Machine/Matrix.lean ====
section
/-! DEFINITION. The matrix engine: its operation stream, MMA, OADD, tile flags, rows of tiles, speculation, hazards and errors
(spec/09_matrix_engine.md R254 to R285; spec/01_number_formats.md R33 to R35). -/

namespace Sys2Proof.Machine

/-! ### Operands of an operation (R255, R256) -/

/-- An operand register in a lane, as the operation reads it: what was pending at issue is as it was observed then (R277). -/
def State.opReg (s : State) (e : MEntry) (reg lane : Nat) : Word :=
  match e.overlay.find? (vkey reg lane) with
  | some x => x
  | none => (s.group e.gid).vreg reg lane

/-- Element k of a lane's fragment in the registers from a base on. -/
def State.frag (s : State) (e : MEntry) (w base lane k : Nat) : Nat := elemAt w (k % (64 / w)) (s.opReg e (base + k / (64 / w)) lane)

/-- K, the length of a row or column of a fragment. -/
def fragLen (e : Elem) : Nat := 4 * (64 / e.w)

/-- Whether a half of a lane's four operand registers from a base on is poisoned (R280). -/
def Group.fragPoisoned (g : Group) (base lane : Nat) : Bool :=
  (List.range 8).any fun h => (g.vpois.find? (2 * vkey (base + h / 2) lane + h % 2)).isSome

/-- The poison key of an element of a tile or of its shadow. -/
def poisKey (shadow : Bool) (tile row col : Nat) : Nat := mkey tile row col + if shadow then 16384 else 0

/-- The addend of an element: of the tile or its shadow, as observed at issue where it was pending. -/
def State.addend (s : State) (e : MEntry) (shadow : Bool) (tile row col : Nat) : BitVec 32 :=
  match e.overlay.find? (4096 + 32 * row + col) with
  | some x => x.setWidth 32
  | none => if shadow then (s.group e.gid).shadowElem tile row col else (s.group e.gid).elem tile row col

/-! ### Results -/

/-- A computed element: row, column, its code, flags, and whether an input was poisoned. -/
structure MRes where
  (row col code : Nat) (flags : FpFlags) (pois : Bool)
deriving DecidableEq, Repr, Inhabited

/-- One element of an MMA (R262): the window sum, or the exact integer sum. -/
def State.mmaElem (s : State) (e : MEntry) (o : Mma) (i j : Nat) : Nat × FpFlags :=
  let ks := List.range (fragLen o.e)
  let a (k : Nat) : Nat := s.frag e o.e.w o.va.toNat i k
  let b (k : Nat) : Nat := s.frag e o.e.w o.vb.toNat j k
  let x := if o.noacc then 0 else (s.addend e o.spec o.md.toNat i j).toNat
  match o.e with
  | .i8 =>
    let sum := ks.foldl (fun (t : Int) k => t + sext 8 (a k) * sext 8 (b k)) (sext 32 x)
    let r := fit true 32 e.cx.sat sum
    (r.1, flagIf (r.2 && e.cx.sat = .flagged) fOF)
  | _ =>
    let fa := fmtOf o.e
    let fb := if o.bx then (if fa = .e4m3 then Fmt.e5m2 else Fmt.e4m3) else fa
    windowSumF32 e.cx (ks.map fun k => (fa.read e.cx.daz (a k), fb.read e.cx.daz (b k))) (Fmt.f32.read e.cx.daz x)

/-- The elements of an MMA: rows of its mask, every column. -/
def State.mmaResults (s : State) (e : MEntry) (o : Mma) : List MRes :=
  let g := s.group e.gid
  (lanesOf e.exec).flatMap fun i =>
    let pa := g.fragPoisoned o.va.toNat i
    (List.range 32).map fun j =>
      let r := s.mmaElem e o i j
      let px := !o.noacc && (g.mpois.find? (poisKey o.spec o.md.toNat i j)).isSome
      ⟨i, j, r.1, r.2, pa || px || g.fragPoisoned o.vb.toNat j⟩

/-- An entry of an outlier list: n, k, bits [31:10] of word 0, the value, and its poison (R265). -/
structure OEntry where
  (n k rest value : Nat) (pois : Bool)
deriving DecidableEq, Repr, Inhabited

/-- Entry p of a list. -/
def Block.entry (b : Block) (list p : Nat) : OEntry :=
  let x := b.readN (list + 8 * p) 8
  ⟨bits x 4 0, bits x 9 5, bits x 31 10, bits x 63 32, b.poisoned (list + 8 * p) 8⟩

/-- The value of one A element of an OADD. -/
def State.oaddA (s : State) (e : MEntry) (o : Oadd) (i k : Nat) : Fv :=
  let x := s.frag e o.e.w o.va.toNat i k
  match o.e with
  | .i8 => let v := sext 8 x; .fin ⟨v < 0, v.natAbs, 0⟩
  | _ => (fmtOf o.e).read e.cx.daz x

/-- Whether the half that holds an A element is poisoned. -/
def Group.oaddPoisoned (g : Group) (o : Oadd) (i k : Nat) : Bool :=
  let n := 64 / o.e.w
  (g.vpois.find? (2 * vkey (o.va.toNat + k / n) i + (k % n) / (n / 2))).isSome

/-- One entry applied to one row: the element after it, one rounding (R265). -/
def State.oaddStep (s : State) (e : MEntry) (o : Oadd) (i : Nat) (t : OEntry) (x : Nat) : Nat × FpFlags :=
  let r := Fv.fma e.cx.rm (s.oaddA e o i t.k) (Fmt.f32.read e.cx.daz t.value) (Fmt.f32.read e.cx.daz x)
  let q := Fmt.f32.round e.cx r.1
  (q.1, r.2 ||| q.2)

/-- The elements of an OADD after its list, in list order: each keeps the flags of every entry applied to it, and the poison of its
words (R280; log 132). -/
def State.oaddResults (s : State) (e : MEntry) (o : Oadd) (list : List OEntry) : List MRes :=
  let g := s.group e.gid
  (lanesOf e.exec).flatMap fun i =>
    (list.map (·.n)).eraseDups.map fun j =>
      (list.filter fun t => t.n == j).foldl (fun (r : MRes) t =>
        let q := s.oaddStep e o i t r.code
        { r with code := q.1, flags := r.flags ||| q.2, pois := r.pois || t.pois || g.oaddPoisoned o i t.k })
        ⟨i, j, (s.addend e o.spec o.md.toNat i j).toNat, 0, (g.mpois.find? (poisKey o.spec o.md.toNat i j)).isSome⟩

/-! ### The engine (R257, R263, R279, R281) -/

/-- Records a matrix error: the first in completion order is kept (R279). -/
def State.recordMatrix (s : State) (gid cause : Nat) (taddr : Word) : State :=
  s.modGroup gid fun g => match g.merr with
    | some _ => g
    | none => { g with merr := some (BitVec.ofNat 8 cause, taddr) }

/-- The key, beside an operation's pending operands, of a row of a tile whose load or MZERO had not landed at its issue. -/
def rowMark (tile row : Nat) : Nat := 8192 + 32 * tile + row

/-- What an operation leaves in an element of the tile t: its value; in a row whose load was not covered at its issue, any value (R228);
in a row whose MZERO was pending, the value before or its own (R186). -/
def MEntry.leaves (e : MEntry) (tick t row col : Nat) (old new : BitVec 32) : BitVec 32 :=
  match e.overlay.find? (rowMark t row) with
  | none => new
  | some m => if m == 0 then (Config.freeWord tick (freeKey .tile t) (32 * row + col)).setWidth 32
    else if Config.freeBool tick (freeKey .tile t) (32 * row + col) then new else old

/-- Writes the results of an MMA or OADD with their flags, or records FP_EXCEPTION and writes nothing (R262, R263, R280). -/
def State.landResults (s : State) (e : MEntry) (tile : Nat) (shadow : Bool) (rs : List MRes) : State :=
  let f := rs.foldl (fun a r => a ||| r.flags) 0
  let s := s.modGroup e.gid fun g => { g with fpst := g.fpst ||| f }
  if f &&& e.te ≠ 0 then s.recordMatrix e.gid 0x0D (f.setWidth 64)
  else s.modGroup e.gid fun g => rs.foldl (fun (g : Group) r =>
    let k := mkey tile r.row r.col
    let pk := poisKey shadow tile r.row r.col
    let x := e.leaves s.tick tile r.row r.col (g.elem tile r.row r.col) (BitVec.ofNat 32 r.code)
    { g with m := if shadow then g.m else g.m.setD 0 k x
             shadow := if shadow then g.shadow.setD 0 k x else g.shadow
             mpois := if r.pois then g.mpois.insert pk false else g.mpois.erase pk }) g

/-- Copies of tiles between the real tiles and their shadows, with their poison (R273). -/
def Group.copyTiles (g : Group) (toShadow : Bool) (ts : List Nat) : Group :=
  ts.foldl (fun g t => (List.range 1024).foldl (fun (g : Group) k =>
    let n := t * 1024 + k
    let src := if toShadow then n else n + 16384
    let dst := if toShadow then n + 16384 else n
    let p := match g.mpois.find? src with | some b => g.mpois.insert dst b | none => g.mpois.erase dst
    if toShadow then { g with shadow := g.shadow.setD 0 n (g.m.getD 0 n), mpois := p }
    else { g with m := g.m.setD 0 n (g.shadow.getD 0 n), mpois := p }) g) g

/-- Discards the shadows of tiles. -/
def Group.dropShadows (g : Group) (ts : List Nat) : Group :=
  { g with shadow := g.shadow.filter fun p => !ts.contains (p.1 / 1024)
           mpois := g.mpois.filter fun p => !(decide (16384 ≤ p.1) && ts.contains ((p.1 - 16384) / 1024)) }

/-- The key, beside an operation's marks, of an element as it stood before the MZERO that was pending at the operation's issue. -/
def oldMark (tile row col : Nat) : Nat := 16384 + mkey tile row col

/-- The rows that the issue of a SPEC or SPCOMMIT marked, as it leaves them; `old` holds the other value of an element whose MZERO was pending. -/
def MEntry.copied (e : MEntry) (tick : Nat) (old new : Tab (BitVec 32)) : Tab (BitVec 32) :=
  (e.overlay.filter fun p => decide (p.1 < 16384)).foldl (fun m p =>
    let t := (p.1 - 8192) / 32
    (List.range 32).foldl (fun m j =>
      let k := mkey t (p.1 % 32) j
      m.setD 0 k (e.leaves tick t (p.1 % 32) j (old.getD 0 k) (new.getD 0 k))) m) new

/-- The elements that a SPEC reads in place of those whose MZERO was pending at its issue (R186). -/
def MEntry.before (e : MEntry) (m : Tab (BitVec 32)) : Tab (BitVec 32) :=
  e.overlay.foldl (fun m p => if 16384 ≤ p.1 then m.setD 0 (p.1 - 16384) (p.2.setWidth 32) else m) m

/-- What an operation does when it completes. -/
def State.performMatrix (s : State) (e : MEntry) : State :=
  match e.op with
  | .mma o => s.landResults e o.md.toNat o.spec (s.mmaResults e o)
  | .oadd o list n =>
    let b := s.block (s.group e.gid).cx.blk
    let es := (List.range n).map fun p => (p, b.entry list p)
    let bad (t : OEntry) : Bool := t.rest != 0 || decide (fragLen o.e ≤ t.k)
    let good := (es.filter fun p => !bad p.2).map (·.2)
    let s := match es.find? fun p => bad p.2 with
      | some p => s.recordMatrix e.gid 0x1B (BitVec.ofNat 64 (2 ^ 63 + p.1 * 2 ^ 16 + 0x24))
      | none => s
    s.landResults e o.md.toNat o.spec (s.oaddResults e o good)
  | .spec _ ts => s.modGroup e.gid fun g =>
    let g := g.copyTiles true ts
    { g with shadow := e.copied s.tick (e.before g.shadow) g.shadow }
  | .commit ts => s.modGroup e.gid fun g =>
    let t := (g.copyTiles false ts).dropShadows ts
    { t with m := e.copied s.tick g.m t.m }
  | .drop ts => s.modGroup e.gid fun g => g.dropShadows ts

/-- The clk for which an operation keeps the engine busy (R281). -/
def MOp.busy : MOp → Nat
  | .mma _ => 8
  | .oadd _ _ n => max 2 n
  | .spec _ ts => 2 * ts.length
  | .commit _ | .drop _ => 1

/-- The engine starts the operation at the head of its queue (R257, R281). -/
def State.startMatrix (s : State) (core : Nat) : State :=
  match (s.core core).running, (s.core core).engine with
  | none, (_, e) :: _ => s.modCore core fun k => { k with running := some (s.clk + max 16 e.op.busy) }
  | _, _ => s

/-- The operation that the engine performs completes: MCNT falls, and the completion is a MATRIX wake reason (R257). -/
def State.completeMatrix (s : State) (core : Nat) : State :=
  match (s.core core).running, (s.core core).engine with
  | some t, (_, e) :: rest =>
    if s.clk < t then s
    else
      let s := s.performMatrix e
      let s := if e.tainted then s.freeWritten e else s
      let s := s.modCore core fun k => { k with engine := rest, running := none }
      (s.modGroup e.gid fun g => { g with mcnt := g.mcnt - 1 }).wake core whyMatrix
  | _, _ => s

/-- An operation enters the core's queue and then `after` takes effect, or its split is held while there is no room (R257). An operation
under way still holds its entry (log 135). -/
def State.enqueueMatrix (s : State) (e : MEntry) (after : State → State) : State :=
  let c := s.curCore
  if 64 ≤ s.grp.mcnt ∨ 64 ≤ (s.core c).engine.length then s.waitFor .engineSlot
  else
    let n := s.uid
    after (((s.modCore c fun k => { k with engine := k.engine ++ [(n, e)] }).modGrp fun g =>
      { g with mcnt := g.mcnt + 1, mops := g.mops.insert n e }).bump)

/-- The uniform MWAIT (R258, R279): a recorded error is raised in place of completing and is cleared at the trap's entry; operations but the last n are covered. -/
def State.matrixWait (s : State) (n : Nat) : State :=
  if n < s.grp.mcnt then s.waitFor (.matrix n)
  else match s.grp.merr with
    | some (c, a) => s.deliverTrap .matrix c.toNat a
    | none => s.modGrp fun g => { g with mops := g.mops.drop (g.mops.length - n) }

/-! ### Issue of MMA and OADD (R259 to R264, R277) -/

/-- The four registers of a fragment, which the issue names. -/
def fragUses (v : VReg) : List Use := (List.range 4).map fun k => ⟨.vec, v.toNat + k, 0, false⟩

/-- The operands of an operation that are pending at issue, as they are observed (R277). -/
def State.pendingOver (s : State) (va : VReg) (vb : Option VReg) (md : TReg) (spec : Bool) : Tab Word :=
  let g := s.grp
  let look (regs : List Nat) (lanes : List Nat) : List (Nat × Word) := lanes.flatMap fun i => regs.filterMap fun r =>
    if g.uncovered s.iid .vec r i || (g.lateOf s.now s.iid .vec r i).isSome then some (vkey r i, s.readV r i) else none
  let regs (v : VReg) : List Nat := (List.range 4).map fun k => v.toNat + k
  let rows := lanesOf s.spl.exec
  let tile : List (Nat × Word) := if spec then [] else rows.flatMap fun i =>
    if g.uncovered s.iid .tile md.toNat i then
      (List.range 32).map fun j => (4096 + 32 * i + j, Config.freeWord s.tick (freeKey .tile md.toNat) (32 * i + j))
    else (List.range 32).filterMap fun j => (g.lateOf s.now s.iid .tile md.toNat (32 * i + j)).map fun l =>
      (4096 + 32 * i + j, if Config.freeBool s.tick (freeKey .tile md.toNat) (32 * i + j) then (g.elem md.toNat i j).setWidth 64 else l.old)
  (look (regs va) rows ++ (match vb with | some v => look (regs v) (List.range 32) | none => []) ++ tile).foldl (fun t p => t.insert p.1 p.2) []

/-- Names a tile by its number. -/
def useTile (t : Nat) : Use := ⟨.tile, t, 0, false⟩

/-- The rows of tiles that an operation reads or writes while their load is not covered (0) or their MZERO is pending (1), at its issue
(R228, R277). -/
def State.rowMarks (s : State) (ts rows : List Nat) : Tab Word :=
  let g := s.grp
  (ts.flatMap fun t => rows.filterMap fun i =>
    if g.uncovered s.iid .tile t i then some (rowMark t i, (0 : Word))
    else if g.late.any fun l => l.kind = .tile && l.num == t && l.lane / 32 == i && decide (s.now < l.land) && l.iid != s.iid then
      some (rowMark t i, 1)
    else none).foldl (fun m p => m.insert p.1 p.2) []

/-- The elements of tiles whose MZERO is pending, as they stood before it (R186). -/
def State.oldMarks (s : State) (ts : List Nat) : Tab Word :=
  s.grp.late.foldl (fun m l =>
    if l.kind = .tile && ts.contains l.num && decide (s.now < l.land) && l.iid != s.iid then m.insert (16384 + 1024 * l.num + l.lane) l.old else m) []

/-- Rows of tiles that an operation writes before the loads of them are covered: what those loads land is undefined too (R228). -/
def State.clobberRows (s : State) (marks : Tab Word) : State :=
  s.modGrp fun g => { g with uncov := g.uncov.map fun u =>
    if u.kind = .tile && u.iid != s.iid && (marks.find? (rowMark u.num u.lane)).isSome then { u with clobbered := true } else u }

/-- Whether a tile is covered by an open speculation tag (R272). -/
def Group.tagged (g : Group) (t : Nat) : Bool := g.tags.any fun p => p.2.contains t

/-- The first steps of R261: the allocation of the operands, retirement, the registers' checks, and the tag of the shadow. -/
def State.matrixIssue (s : State) (uses : List Use) (md : TReg) (flag : Option TReg) (spec : Bool) (body : State → State) : State :=
  let g := s.grp
  if uses.any g.unallocated then s.takeTrap 0x01 (BitVec.ofNat 64 s.cur.off) s.cur.mask
  else if (flag.any fun f => !g.tf.getLsbD f.toNat) || s.spl.exec == 0 then s
  else s.guarded s.cur.mask uses fun s =>
    if spec && !g.tagged md.toNat then s.engineFault 0x21 else body s

/-- The queue entry of an operation of the issuing split. -/
def State.matrixEntry (s : State) (op : MOp) (overlay : Tab Word) : MEntry :=
  ⟨s.cur.gid, op, s.spl.exec, s.fpCtx, s.grp.enabled, overlay, false⟩

/-- The rows of the tile that an MMA or OADD writes before what was pending there has landed: none where it writes the shadow. -/
def State.destMarks (s : State) (md : TReg) (spec : Bool) : Tab Word :=
  if spec then [] else s.rowMarks [md.toNat] (lanesOf s.spl.exec)

/-- An MMA or OADD enters the queue with what is pending at its issue (R257, R277). -/
def State.queueMatrix (s : State) (op : MOp) (va : VReg) (vb : Option VReg) (md : TReg) (spec : Bool) : State :=
  let marks := s.destMarks md spec
  s.enqueueMatrix (s.matrixEntry op (marks.foldl (fun t p => t.insert p.1 p.2) (s.pendingOver va vb md spec))) fun t => t.clobberRows marks

/-- MMA (R261). -/
def State.matrixMma (s : State) (o : Mma) : State :=
  s.matrixIssue (fragUses o.va ++ fragUses o.vb ++ [useM o.md]) o.md o.flag o.spec fun s =>
    s.queueMatrix (.mma o) o.va (some o.vb) o.md o.spec

/-- OADD (R261, R264). -/
def State.matrixOadd (s : State) (o : Oadd) : State :=
  s.matrixIssue (fragUses o.va ++ [rdU o.sb, useM o.md]) o.md o.flag o.spec fun s =>
    let d := s.readU o.sb.toNat
    let list := wbits d 31 0
    let n := wbits d 40 32
    if 256 < n then s.engineFault 0x20
    else if list % 8 ≠ 0 then s.trapExec 0x13 (BitVec.ofNat 64 list)
    else if s.blk.scrSize < list + 8 * n then s.trapExec 0x14 (BitVec.ofNat 64 list)
    else s.queueMatrix (.oadd o list n) o.va none o.md o.spec

/-! ### Speculation (R272 to R274) -/

/-- SPEC: it consumes the tiles that it copies at its issue (R185, R186, R228). -/
def State.openTag (s : State) (o : TwoU) : State :=
  s.guarded s.cur.mask [rdUlo o.a, wrU o.d] fun s =>
    let g := s.grp
    let ts := (List.range 16).filter fun t => (s.readU o.a.toNat).getLsbD t
    match (List.range 2).find? fun k => (g.tags.find? k).isNone with
    | none => s.engineFault 0x22
    | some k =>
      if ts.isEmpty || ts.any (fun t => decide (g.cx.nt ≤ t) || g.tagged t)
          || decide (g.cx.nh < ts.length + g.tags.foldl (fun n p => n + p.2.length) 0) then s.engineFault 0x22
      else s.guarded s.cur.mask (ts.map useTile) fun s =>
        s.enqueueMatrix (s.matrixEntry (.spec k ts) ((s.oldMarks ts).foldl (fun t p => t.insert p.1 p.2) (s.rowMarks ts (List.range 32)))) fun s =>
          (s.modGrp fun g => { g with tags := g.tags.insert k ts }).writeU o.d.toNat (BitVec.ofNat 64 k) 2

/-- SPCOMMIT, which writes its tiles as a consumer of them at issue (R185, R186, R228), and SPDROP. -/
def State.closeTag (s : State) (a : UReg) (commit : Bool) : State :=
  s.guarded s.cur.mask [rdUlo a] fun s =>
    let k := wbits (s.readU a.toNat) 0 0
    match s.grp.tags.find? k with
    | none => s.engineFault 0x23
    | some ts =>
      if commit then
        s.guarded s.cur.mask (ts.map useTile) fun s =>
          let marks := s.rowMarks ts (List.range 32)
          s.enqueueMatrix (s.matrixEntry (.commit ts) marks) fun s =>
            (s.modGrp fun g => { g with tags := g.tags.erase k }).clobberRows marks
      else s.enqueueMatrix (s.matrixEntry (.drop ts) []) fun s => s.modGrp fun g => { g with tags := g.tags.erase k }

/-! ### Tiles as the pipes read and write them (R268 to R271, R275, R280) -/

/-- Whether an instruction that names a tile is forbidden while an operation is not covered (R275). -/
def MOp.forbids (o : MOp) (t : Nat) (writes : Bool) : Bool :=
  match o with
  | .mma m => m.md.toNat == t && (!m.spec || writes)
  | .oadd m _ _ => m.md.toNat == t && (!m.spec || writes)
  | .spec _ ts => writes && ts.contains t
  | .commit ts => ts.contains t
  | .drop _ => false

/-- Runs an instruction that names a tile after the hazard check: with SBCHK = 1 a conflict traps; with SBCHK = 0 the elements of the
conflicting operations are undefined, and `body` is told whether what it reads, or writes, is (R275, R276). -/
def State.tileGuard (s : State) (t : TReg) (writes : Bool) (body : State → Bool → State) : State :=
  let bad := s.grp.mops.filter fun p => p.2.op.forbids t.toNat writes
  if bad.isEmpty then body s false
  else if s.grp.sbchk then s.takeTrap 0x0B (BitVec.ofNat 64 (2 ^ 9 + t.toNat)) s.cur.mask
  else
    let both := bad.any fun p => !(s.written p.2).2.2.2
    body (bad.foldl (fun s p => s.taint p.1 p.2) s) (!writes || both)

/-- A tile element as a lane instruction reads it: undefined beside an operation or a load not covered, old or new while MZERO is pending. -/
def State.readElem (s : State) (free : Bool) (t i j : Nat) : BitVec 32 :=
  let g := s.grp
  if free || g.uncovered s.iid .tile t i then (Config.freeWord s.tick (freeKey .tile t) (32 * i + j)).setWidth 32
  else match g.lateOf s.now s.iid .tile t (32 * i + j) with
    | none => g.elem t i j
    | some l => if Config.freeBool s.tick (freeKey .tile t) (32 * i + j) then g.elem t i j else l.old.setWidth 32

/-- Runs an instruction that reads the first columns of rows of a tile unless an element that it reads is poisoned (R280); where both
kinds of poison are met, log 133. -/
def State.tilePoison (s : State) (t : TReg) (cols : Nat) (body : State → State) : State :=
  let row (i : Nat) : Option Bool := (List.range cols).findSome? fun j => s.grp.mpois.find? (mkey t.toNat i j)
  match (lanesOf s.cur.mask).findSome? row with
  | none => body s
  | some k => s.takeTrap (if k then 0x16 else 0x0C) (BitVec.ofNat 64 (regCode .tile t.toNat))
      (maskOf fun i => s.cur.mask.getLsbD i && row i == some k)

/-- The checks of a lane's row of L bytes in scratchpad (R269). -/
def State.checkRow (s : State) (len p : Nat) : LaneRes :=
  if p % 16 ≠ 0 then .fail 0x13
  else if s.blk.scrSize < p + len then .fail 0x14
  else .pass p s.grp.cx.blk false false

/-- MLD (R269). -/
def State.rowLoad (s : State) (o : TileMem) : State :=
  s.counted fun s => s.guarded s.cur.mask [rdUlo o.c, rdVlo o.a, useM o.md] fun s => s.tileGuard o.md true fun s free =>
    s.issueLanes (mkAcc .load .scratch 8 true .none .blk .tile []) .load
      (fun t i => let p := s.scratchAddr o.c o.a 1 (o.disp.toInt * 128) i; (t, BitVec.ofNat 64 p, s.checkRow 128 p))
      (fun _ x p blk _ _ => (List.range 16).map fun k =>
        mkPiece x.lane (p + 8 * k) blk false false (if free then 1 else 0) (mkey o.md.toNat x.lane (2 * k))) noDigest

/-- The stores of a row of a lane, eight bytes each. -/
def rowPieces (x : LaneChk) (p blk : Nat) (bytes : List Byte) : List Piece :=
  (List.range (bytes.length / 8)).map fun k =>
    mkPiece x.lane (p + 8 * k) blk false false (BitVec.ofNat 64 (ofBytes ((bytes.drop (8 * k)).take 8))) 0

/-- MST (R269). -/
def State.rowStore (s : State) (o : TileMem) : State :=
  s.guarded s.cur.mask [rdUlo o.c, rdVlo o.a, useM o.md] fun s => s.tileGuard o.md false fun s free => s.tilePoison o.md 32 fun s =>
    s.issueLanes (mkAcc .store .scratch 8 false .none .blk .none []) .store
      (fun t i => let p := s.scratchAddr o.c o.a 1 (o.disp.toInt * 128) i; (t, BitVec.ofNat 64 p, s.checkRow 128 p))
      (fun _ x p blk _ _ => rowPieces x p blk ((List.range 32).flatMap fun j => bytesOf 4 (s.readElem free o.md.toNat x.lane j).toNat)) noDigest

/-- MZERO (R269): its latency is that of a register write; an element with a write or a load pending is left open. -/
def State.rowZero (s : State) (o : TileOne) : State :=
  s.guarded s.cur.mask [useM o.md] fun s => s.tileGuard o.md true fun s free =>
    let g := s.grp
    let t := o.md.toNat
    let own := s.spl.owned
    let keys := (lanesOf s.cur.mask).flatMap fun i => (List.range 32).map fun j => (i, j)
    let val (i j : Nat) : BitVec 32 :=
      if free || g.uncovered s.iid .tile t i then (Config.freeWord s.tick (freeKey .tile t + 2048) (32 * i + j)).setWidth 32
      else match g.lateOf s.now s.iid .tile t (32 * i + j) with
        | none => 0
        | some _ => if Config.freeBool s.tick (freeKey .tile t + 2048) (32 * i + j) then 0 else g.elem t i j
    let pend : List Late := keys.map fun k => ⟨.tile, t, 32 * k.1 + k.2, (g.elem t k.1 k.2).setWidth 64, s.now + 4, own, s.iid⟩
    let keep := g.late.filter fun l => !(l.kind = .tile && l.num == t && s.cur.mask.getLsbD (l.lane / 32))
    let m := keys.foldl (fun (x : Group) k => x.setElem t k.1 k.2 (val k.1 k.2)) g
    s.modGrp fun _ => { m with
      late := keep ++ pend
      uncov := (lanesOf s.cur.mask).foldl (fun l i => l.map fun u =>
        if u.kind = .tile && u.num == t && u.lane == i && u.iid != s.iid then { u with clobbered := true } else u) g.uncov }

/-- One element as MSTS converts it (R270); a signalling NaN raises invalid (R16). -/
def stsElem (c : FpCtx) (e : Elem) (sat : Bool) (x : Nat) : Nat × FpFlags :=
  match e with
  | .i16 | .n16 | .i8 | .n8 => ((fit (e = .i16 || e = .i8) e.w (if sat then .quiet else .off) (sext 32 x)).1, 0)
  | _ =>
    let v := Fmt.f32.read c.daz x
    let (r, f) := (fmtOf e).round { c with sat := if sat then .quiet else .off } v
    (r, f ||| flagIf v.isSig fNV)

/-- MSTS (R269, R270): the flags are those of the lanes that pass their checks (R227). -/
def State.rowStoreNarrow (s : State) (o : TileSts) : State :=
  s.guarded s.cur.mask [rdUlo o.c, rdVlo o.a, useM o.md] fun s => s.tileGuard o.md false fun s free => s.tilePoison o.md 32 fun s =>
    let n := o.e.w / 8
    let addr (i : Nat) : Nat := s.scratchAddr o.c o.a 1 (o.disp.toInt * (32 * n)) i
    let c : FpCtx := ⟨s.grp.rmode, .off, s.grp.fpm.getLsbD 4, s.grp.fpm.getLsbD 5⟩
    let el (i j : Nat) : Nat × FpFlags := stsElem c o.e o.sat (s.readElem free o.md.toNat i j).toNat
    let ok (i : Nat) : Bool := match s.checkRow (32 * n) (addr i) with | .pass .. => true | _ => false
    s.withFlags (fun i => if ok i then (List.range 32).foldl (fun f j => f ||| (el i j).2) 0 else 0) fun t =>
      t.issueLanes (mkAcc .store .scratch 8 false .none .blk .none []) .store
        (fun t i => (t, BitVec.ofNat 64 (addr i), s.checkRow (32 * n) (addr i)))
        (fun _ x p blk _ _ => rowPieces x p blk ((List.range 32).flatMap fun j => bytesOf n (el x.lane j).1)) noDigest

/-- The word of HPACK in a lane (R271). -/
def hpackWord (k : Nat) (e : Nat → BitVec 32) : Nat :=
  let q := 32 / max k 1
  (List.range (q * k)).foldl (fun h j =>
    let x := (e j).toNat
    if 0 < x ∧ x ≤ 0x7F800000 then h + 2 ^ j else h) 0

/-- HPACK (R271). -/
def State.hashPack (s : State) (o : Hpack) : State :=
  s.guarded s.cur.mask [useM o.ms, wrV o.d] fun s => s.tileGuard o.ms false fun s free => s.tilePoison o.ms (32 / max o.k.toNat 1 * o.k.toNat) fun s =>
    let h (i : Nat) : Nat := hpackWord o.k.toNat fun j => s.readElem free o.ms.toNat i j
    let low := s.grp.vpois
    let t := s.writeV o.d.toNat s.cur.mask 6 fun i =>
      if o.hi then BitVec.ofNat 64 (h i * 2 ^ 32 + (s.readV o.d.toNat i).toNat % 2 ^ 32) else BitVec.ofNat 64 (h i)
    if o.hi then t.modGrp fun g => { g with vpois := (lanesOf s.cur.mask).foldl (fun p i =>
      match low.find? (2 * vkey o.d.toNat i) with | some b => p.insert (2 * vkey o.d.toNat i) b | none => p) g.vpois }
    else t

/-! ### Meanings -/

/-- MMA (R261, R262). -/
def execMma (o : Mma) (s : State) : Host.Outcome State Fault Refusal := .next (s.matrixMma o)
/-- OADD (R264, R265). -/
def execOadd (o : Oadd) (s : State) : Host.Outcome State Fault Refusal := .next (s.matrixOadd o)
/-- MLD (R269). -/
def execMld (o : TileMem) (s : State) : Host.Outcome State Fault Refusal := .next (s.rowLoad o)
/-- MST (R269). -/
def execMst (o : TileMem) (s : State) : Host.Outcome State Fault Refusal := .next (s.rowStore o)
/-- MZERO (R269). -/
def execMzero (o : TileOne) (s : State) : Host.Outcome State Fault Refusal := .next (s.rowZero o)
/-- MSTS (R270). -/
def execMsts (o : TileSts) (s : State) : Host.Outcome State Fault Refusal := .next (s.rowStoreNarrow o)
/-- HPACK (R271). -/
def execHpack (o : Hpack) (s : State) : Host.Outcome State Fault Refusal := .next (s.hashPack o)
/-- SPEC (R273). -/
def execSpec (o : TwoU) (s : State) : Host.Outcome State Fault Refusal := .next (s.openTag o)
/-- SPCOMMIT (R273). -/
def execSpcommit (o : OneU) (s : State) : Host.Outcome State Fault Refusal := .next (s.closeTag o.a true)
/-- SPDROP (R273). -/
def execSpdrop (o : OneU) (s : State) : Host.Outcome State Fault Refusal := .next (s.closeTag o.a false)
/-- TFSET (R266). -/
def execTfset (o : ThreeU) (s : State) : Host.Outcome State Fault Refusal :=
  .next (s.guarded s.cur.mask [rdUlo o.a, rdUlo o.b, wrU o.d] fun s =>
    let a : BitVec 16 := (s.readU o.a.toNat).setWidth 16
    let b : BitVec 16 := (s.readU o.b.toNat).setWidth 16
    let old := s.grp.tf
    (s.modGrp fun g => { g with tf := (old &&& ~~~a) ||| (b &&& a) }).writeU o.d.toNat (old.setWidth 64) 2)
/-- MWAIT (R258). -/
def execMwait (o : Count) (s : State) : Host.Outcome State Fault Refusal := .next (s.matrixWait o.n.toNat)
/-- The short MWAIT. -/
def execMwaitShort (o : ShCount) (s : State) : Host.Outcome State Fault Refusal := .next (s.matrixWait o.n.toNat)
/-- MATRIX_OP_START (R257). -/
def execMatrixOpStart (core : Nat) (s : State) : Host.Outcome State Fault Refusal := .next (s.startMatrix core)
/-- MATRIX_OP_COMPLETION (R257). -/
def execMatrixOpCompletion (core : Nat) (s : State) : Host.Outcome State Fault Refusal := .next (s.completeMatrix core)

end Sys2Proof.Machine
end

