-- ==== Sys2Proof/Machine/Riddle.lean ====
section
/-! DEFINITION. The riddle: table slots and their descriptors, buckets and the overflow policies, probes, updates, rehashing, fences and
errors (spec/13_retrieval_tables.md R361 to R389). -/

namespace Sys2Proof.Machine

/-! ### Descriptors (R363 to R366) -/

/-- Word k of a descriptor. -/
def dword (d : List Word) (k : Nat) : Nat := (d.getD k 0).toNat

/-- A family record. -/
structure Fam where
  (proj buckets famid l k dim : Nat)
deriving DecidableEq, Repr, Inhabited

/-- Family A or B of a descriptor. -/
def Fam.of (d : List Word) (b : Bool) : Fam :=
  let o := if b then 10 else 6
  ⟨bits (dword d o) 55 0, bits (dword d (o + 1)) 55 0, bits (dword d (o + 2)) 47 32, bits (dword d (o + 2)) 29 24,
    bits (dword d (o + 2)) 20 16, bits (dword d (o + 2)) 15 0⟩

/-- q: the table ids in one word. -/
def Fam.q (f : Fam) : Nat := 32 / max f.k 1
/-- W: the id words of a query. -/
def Fam.words (f : Fam) : Nat := (f.l + f.q - 1) / max f.q 1

/-- Whether a descriptor is REHASHING. -/
def rehashing (d : List Word) : Bool := bits (dword d 0) 1 0 == 1
/-- Lines of a bucket. -/
def bucketLines (d : List Word) : Nat := 2 ^ bits (dword d 0) 3 2
/-- CURSOR. -/
def cursorOf (d : List Word) : Nat := bits (dword d 2) 63 32
/-- ROWS. -/
def rowsOf (d : List Word) : Nat := bits (dword d 2) 31 0
/-- POOLNEXT. -/
def poolNext (d : List Word) : Nat := bits (dword d 5) 63 32
/-- POOLSIZE. -/
def poolSize (d : List Word) : Nat := bits (dword d 5) 31 0

/-- A word of a descriptor with a field of 32 bits replaced: the high half, or the low one. -/
def setHalf (d : List Word) (k : Nat) (hi : Bool) (v : Nat) : List Word :=
  let x := dword d k
  d.set k (BitVec.ofNat 64 (if hi then v % 2 ^ 32 * 2 ^ 32 + x % 2 ^ 32 else x / 2 ^ 32 * 2 ^ 32 + v % 2 ^ 32))

/-- Whether a family record breaks a rule of R375: a reserved bit, or, where it is in use, K, L or DIM. -/
def famFault (d : List Word) (b used : Bool) : Bool :=
  let o := if b then 10 else 6
  let f := Fam.of d b
  bits (dword d o) 63 56 != 0 || bits (dword d (o + 1)) 63 56 != 0 || bits (dword d (o + 2)) 63 48 != 0 || bits (dword d (o + 2)) 31 30 != 0
  || bits (dword d (o + 2)) 23 21 != 0 || dword d (o + 3) != 0
  || (used && (decide (f.k < 4) || decide (22 < f.k) || f.l == 0 || decide (32 < f.l) || f.dim == 0 || f.dim % 16 != 0))

/-- Whether an address field breaks its alignment (R375). -/
def alignFault (d : List Word) : Bool :=
  let bad (b : Bool) : Bool := (Fam.of d b).proj % 64 != 0 || (Fam.of d b).buckets % 64 != 0
  bits (dword d 4) 55 0 % 64 != 0 || bad false || (rehashing d && bad true)

/-- Whether a field breaks its rule (R375). -/
def fieldFault (d : List Word) : Bool :=
  dword d 0 / 64 != 0 || decide (2 ≤ bits (dword d 0) 1 0) || bits (dword d 0) 3 2 == 3 || bits (dword d 4) 63 56 != 0
  || dword d 15 / 2 ^ 33 != 0 || famFault d false true || famFault d true (rehashing d)
  || decide (rowsOf d < cursorOf d) || (bits (dword d 0) 5 4 == 3 && decide (poolSize d < poolNext d))

/-! ### Slots (R361, R362, R375) -/

/-- Changes a table slot of a die. -/
def State.modSlot (s : State) (d n : Nat) (f : TSlot → TSlot) : State :=
  s.modDie d fun x => { x with slots := x.slots.insert n (f (s.tslot d n)) }

/-- The live words of a binding of a slot. -/
def TSlot.live (t : TSlot) (bind : Nat) : List Word := if t.bind = bind then t.desc else (t.olds.find? bind).getD []
/-- Changes the live words of a binding of a slot. -/
def TSlot.modLive (t : TSlot) (bind : Nat) (f : List Word → List Word) : TSlot :=
  if t.bind = bind then { t with desc := f t.desc } else { t with olds := t.olds.modify bind f }

/-- A command other than a probe is issued on a slot: what HSTAT has read of it is no longer its state (R375). -/
def State.noteUpdate (s : State) (n : Nat) (op : ROp) : State :=
  if op = .probe then s
  else s.modDie s.curDie fun x => { x with slots := x.slots.modify n fun t => { t with stats := t.stats.map fun k => { k with stale := true } } }

/-- What a slot has held, with what a binding of it that ends leaves behind. -/
def TSlot.held (t : TSlot) : List Snap :=
  if t.bound ∧ t.undef then ⟨t.asid, t.desc, true, true⟩ :: t.stats else t.stats

/-- Whether a descriptor that keeps the state of a former one, or rebinds its arrays, finds undefined buckets: they were undefined before, or an
update came after the HSTAT that read the state, and no later HSTAT has read the same (R375; log 113). -/
def staleBind (held : List Snap) (asid : BitVec 16) (desc : List Word) : Bool :=
  let mine := held.filter fun k => k.asid == asid && sharesArrays k.desc desc
  let moved (k : Snap) : Bool := cursorOf k.desc == cursorOf desc && poolNext k.desc == poolNext desc
  let same (k : Snap) : Bool := moved k && dword k.desc 14 == dword desc 14 && dword k.desc 15 == dword desc 15
  mine.any (·.lost) || (mine.any (fun k => k.stale && moved k) && !mine.any fun k => !k.stale && same k)

/-- A slot after an accepted binding, or an unbinding (R375). No words unbind; the live words of the old binding stay for its commands in flight. -/
def State.bindSlot (s : State) (d n : Nat) (asid : BitVec 16) (desc : List Word) : State :=
  let used (b : Nat) : Bool := (s.die d).riddle.any fun c => c.2.slot == n && c.2.bind == b
  s.modSlot d n fun t =>
    let olds := if t.bound then t.olds.insert t.bind t.desc else t.olds
    { bound := !desc.isEmpty, asid := if desc.isEmpty then 0 else asid, version := t.version + 1, bind := t.bind + 1, desc := desc,
      olds := olds.filter fun p => used p.1, undef := !desc.isEmpty && staleBind t.held asid desc, stats := t.held }

/-- HSLOTn as it reads (R362). -/
def State.hslot (s : State) (d n : Nat) : Word :=
  let t := s.tslot d n
  BitVec.ofNat 64 ((if t.bound then 2 ^ 63 else 0) + t.asid.toNat * 2 ^ 32 + t.version.toNat)

/-- The refusal of an HBIND (R375). -/
def State.refuseBind (s : State) (d : UReg) (reason : Nat) : State := s.writeU d.toNat (BitVec.ofNat 64 (2 ^ 63 + reason * 2 ^ 32)) 0

/-- A slot number as the die's slots wrap it; WellFormed admits 0 to 7 alone. -/
def slotNo (n : BitVec 3) : Nat := n.toNat

/-- HBIND (R375). -/
def State.bindTable (s : State) (o : HslotTwo) : State :=
  match s.spl.woke, s.spl.answer with
  | some (.answer _), some _ => s.refuseBind o.d 4
  | _, _ => s.guarded s.cur.mask [rdU o.a, wrU o.d] fun s =>
    let d := s.curDie
    let n := slotNo o.n
    let t := s.tslot d n
    let asid := s.grp.cx.asid
    let a := s.readU o.a.toNat
    let va := wbits a 55 0
    let done (s : State) : State := s.writeU o.d.toNat ((s.tslot d n).version.setWidth 64) 0
    if t.bound ∧ t.asid ≠ asid then s.refuseBind o.d 3
    else if a = 0 then done (s.bindSlot d n 0 [])
    else if va % 128 ≠ 0 then s.refuseBind o.d 2
    else match s.translateWith s.curCore asid va .load
        (fun e => kindAdmits e.kind (dieOfPa (e.frame % 2 ^ 44) == d) .load && e.kind != kDevice) with
      | (s, .trap _) => s.refuseBind o.d 4
      | (s, .again r) =>
        if r && decide (maxRejections ≤ s.spl.rejects + 1) then (s.modSpl fun p => { p with rejects := 0 }).refuseBind o.d 4
        else (s.attemptLater s.cur.gid s.cur.ent r id).setFlow .stall
      | (s, .served r p k) =>
        (s.faultSplit AccessKind.load.code [⟨0, BitVec.ofNat 64 va, .served r p k⟩]).modSpl fun p => { p with woke := some (.answer s.uid) }
      | (s, .ok pa _) =>
        let pa := paOf pa
        if s.grp.touches pa 128 ∨ !s.memReady pa then s.holdReady
        else if s.homePois pa 128 then s.refuseBind o.d 4
        else
          let w := (List.range 16).map fun k => BitVec.ofNat 64 (s.homeN (pa + 8 * k) 8)
          if alignFault w then s.refuseBind o.d 2
          else if fieldFault w then s.refuseBind o.d 1
          else done (s.bindSlot d n asid w)

/-! ### Slot checks (R372, R383) -/

/-- TABLE_STATE. -/
def State.tableState (s : State) (n reason : Nat) : State := s.trapExec 0x1A (BitVec.ofNat 64 (n + reason * 256))

/-- Runs an instruction that names a slot. The slot is checked before every other thing that an issue checks but the encoding (R46, R372);
`extra` gives the reason of the instruction's own case. -/
def State.withSlot (s : State) (uses : List Use) (n : BitVec 3) (extra : List Word → Option Nat) (body : State → TSlot → State) : State :=
  let t := s.tslot s.curDie (slotNo n)
  if uses.any s.grp.unallocated then s.guarded s.cur.mask uses fun s => s
  else if !t.bound then s.tableState (slotNo n) 1
  else if t.asid ≠ s.grp.cx.asid then s.tableState (slotNo n) 2
  else match extra t.desc with
    | some r => s.tableState (slotNo n) r
    | none => s.guarded s.cur.mask uses fun s => body s t

/-! ### Issue of commands (R374, R376, R378, R379) -/

/-- Enters a command of the issuing group, and answers its name. -/
def State.enterRiddle (s : State) (n : BitVec 3) (t : TSlot) (op : ROp) (words : List Word) (batch phase : Option Nat) : State × Nat :=
  let g := s.grp
  let c : RCmd := { gid := s.cur.gid, core := g.cx.core, blk := g.cx.blk, slot := slotNo n, bind := t.bind, op := op, version := t.version,
                    desc := t.desc, asid := g.cx.asid, words := words, seq := g.issueSeq, batch := batch, phase := phase, step := 0, hits := [],
                    blocked := none, linked := [], applied := false, ids := [], rejects := 0, skips := [] }
  let k := s.uid
  ((((s.noteUpdate (slotNo n) op).modDie s.curDie fun x => { x with riddle := x.riddle.insert k c }).modGrp fun g => { g with issueSeq := g.issueSeq + 1 }).bump, k)

/-- A command reports its completion to its batch, or to its phase barrier (R374), whose error comes after those of its steps (R221; log 124). -/
def State.reportRiddle (s : State) (gid blk : Nat) (batch phase : Option Nat) (bytes seq steps : Nat) : State :=
  match batch, phase with
  | some b, _ => s.batchStep gid b
  | none, some a => s.endPhase gid blk a bytes seq steps
  | none, none => s

/-- A command that has nothing to do completes at once (R376, R378). -/
def State.emptyRiddle (s : State) (batch phase : Option Nat) : State :=
  (s.modGrp fun g => { g with issueSeq := g.issueSeq + 1 }).reportRiddle s.cur.gid s.grp.cx.blk batch phase 0 s.grp.issueSeq 0

/-- A riddle command with its completion word (R374); `empty` says that it has nothing to do. -/
def State.riddleCommand (s : State) (n : BitVec 3) (t : TSlot) (op : ROp) (words : List Word) (cw : Word) (bad empty : Bool) : State :=
  let kind := wbits cw 1 0
  let addr := wbits cw 63 2 * 4
  if bad || (kind == 1 && (addr % 8 != 0 || decide (s.blk.scrSize < addr + 8))) then s.engineFault 0x30
  else if 2 ≤ kind then s.engineFault 0x31
  else if kind = 0 then
    let (s, b) := s.joinBatch
    if empty then s.emptyRiddle (some b) none else (s.enterRiddle n t op words (some b) none).1
  else if empty then s.emptyRiddle none (some addr)
  else (s.enterRiddle n t op words none (some addr)).1

/-- The fields of a probe record (R376). -/
structure Probe where
  (qstride qaddr bids cap oaddr qmask caddr : Nat)
deriving DecidableEq, Repr, Inhabited

/-- The probe record of three words. -/
def Probe.of (w : List Word) : Probe :=
  let f (k h l : Nat) : Nat := bits (recWord w k) h l
  ⟨f 0 47 32, f 0 31 0, f 1 63 63, f 1 44 32, f 1 31 0, f 2 63 32, f 2 31 0⟩

/-- The queries of a probe, in ascending order. -/
def Probe.queries (p : Probe) : List Nat := (List.range 32).filter fun i => p.qmask.testBit i

/-- The id words of a query that a probe reads. -/
def probeWords (d : List Word) (p : Probe) : Nat :=
  (Fam.of d false).words + if rehashing d && p.bids == 1 then (Fam.of d true).words else 0

/-- Whether a probe record breaks its rules, in a scratchpad of `size` bytes. -/
def Probe.bad (p : Probe) (w d : List Word) (size : Nat) : Bool :=
  let n := probeWords d p
  bits (recWord w 0) 63 48 != 0 || bits (recWord w 1) 62 45 != 0 || p.qstride % 4 != 0 || decide (p.qstride < 4 * n)
  || p.qaddr % 4 != 0 || p.oaddr % 4 != 0 || p.caddr % 4 != 0 || p.cap == 0 || decide (4096 < p.cap)
  || p.queries.any fun i => decide (size < p.qaddr + p.qstride * i + 4 * n) || decide (size < p.oaddr + 4 * p.cap * (i + 1))
      || decide (size < p.caddr + 4 * (i + 1))

/-- HPROBE (R376). -/
def State.probe (s : State) (o : Hprobe) : State :=
  let w := (List.range 4).map fun k => s.readU (o.a + BitVec.ofNat 8 k).toNat
  let p := Probe.of w
  s.withSlot ((List.range 4).map fun k => rdU (o.a + BitVec.ofNat 8 k)) o.n (fun d => if rehashing d && p.bids == 0 then some 5 else none) fun s t =>
    s.riddleCommand o.n t .probe (w.take 3) (w.getD 3 0) (p.bad w t.desc s.blk.scrSize) p.queries.isEmpty

/-- The bytes of a list of updates (R378). -/
def listBytes (d : List Word) (famB : Bool) (w : Word) : Nat := 4 * (1 + (Fam.of d famB).words) * wbits w 47 32

/-- HINS and HDEL (R378). The address of an empty list is checked too (log 138). -/
def State.updateList (s : State) (o : Hlist) (op : ROp) : State :=
  s.withSlot [rdU o.a, rdU o.b] o.n (fun d => if o.famB && !rehashing d then some 3 else none) fun s t =>
    let w := s.readU o.a.toNat
    let l := wbits w 31 0
    s.riddleCommand o.n t op [w] (s.readU o.b.toNat)
      (wbits w 63 48 != 0 || l % 4 != 0 || decide (s.blk.scrSize < l + listBytes t.desc o.famB w)) (wbits w 47 32 == 0)

/-- HADV (R379): its split waits for the new cursor. -/
def State.advance (s : State) (o : HslotTwo) : State :=
  match s.spl.answer with
  | some (_, v, _) => s.writeU o.d.toNat v 0
  | none =>
    s.withSlot [rdUlo o.a, wrU o.d] o.n (fun d => if rehashing d then none else some 3) fun s t =>
      let (s, k) := s.enterRiddle o.n t (.advance (wbits (s.readU o.a.toNat) 31 0)) [] none none
      s.waitFor (.answer k)

/-- HSWAP (R380). -/
def State.swapFamilies (s : State) (o : Hswap) : State :=
    s.withSlot [wrU o.d] o.n (fun d => if !rehashing d || decide (cursorOf d < rowsOf d) then some 4 else none) fun s t =>
      let d := t.desc
      let swapped := (setHalf d 2 true 0).set 0 ((d.getD 0 0) &&& ~~~3#64)
      let desc := (List.range 16).map fun k =>
        if 6 ≤ k ∧ k < 10 then d.getD (k + 4) 0 else if 10 ≤ k ∧ k < 14 then 0 else swapped.getD k 0
      let s := s.modSlot s.curDie (slotNo o.n) fun t => { t with desc := desc, version := t.version + 1 }
      s.writeU o.d.toNat ((t.version + 1).setWidth 64) 0

/-- HFENCE (R381). -/
def State.riddleFence (s : State) (o : Hfence) : State :=
  match s.spl.woke with
  | some (.hfence ..) => s
  | _ =>
    let go (s : State) : State :=
      let w := s.uid
      if s.riddleFenced s.cur.gid w (o.drain.map slotNo) then s else s.bump.waitFor (.hfence w (o.drain.map slotNo))
    match o.drain with
    | none => go s
    | some n => s.withSlot [] n (fun _ => none) fun s _ => go s

/-- Whether a group's accesses still to be performed touch a range of its scratchpad (R229). -/
def Group.touchesScr (g : Group) (a n : Nat) : Bool :=
  g.accs.any fun x => x.2.space != .mem && x.2.pieces.any fun p => p.pending && p.blk == g.cx.blk && decide (p.addr < a + n) && decide (a < p.addr + x.2.size)

/-- HSTAT (R382): the snapshot is written once the group's earlier accesses of its bytes have been performed. -/
def State.statTable (s : State) (o : Hstat) : State :=
  s.withSlot [rdUlo o.a] o.n (fun _ => none) fun s t =>
    let a := (s.readU o.a.toNat).toNat % 2 ^ 32
    if a % 16 ≠ 0 then s.trapExec 0x13 (BitVec.ofNat 64 a)
    else if s.blk.scrSize < a + 128 then s.trapExec 0x14 (BitVec.ofNat 64 a)
    else if s.grp.touchesScr a 128 then s.holdReady
    else
      let old := ((s.die s.curDie).riddle.filter fun c => c.2.slot == slotNo o.n && c.2.version != t.version).length
      let d := t.desc.set 3 (BitVec.ofNat 64 (old * 2 ^ 32 + t.version.toNat))
      let read (l : List Snap) : List Snap := ⟨t.asid, t.desc, false, false⟩ :: l.filter fun k => k.lost || k.asid != t.asid || k.desc != t.desc
      (s.modSlot s.curDie (slotNo o.n) fun t => { t with stats := read t.stats }).modBlock s.grp.cx.blk fun b =>
        b.writeBytes a (d.flatMap fun w => bytesOf 8 w.toNat)

/-! ### Steps of a command (R377, R378, R385, R386) -/

/-- What a step of a command does: family, table, the scratchpad address of the id words, and the entry or query it serves. -/
structure RStep where
  (famB : Bool) (table words item : Nat)
deriving DecidableEq, Repr, Inhabited

/-- The steps of a command. -/
def RCmd.total (c : RCmd) : Nat :=
  let a := (Fam.of c.desc false).l
  let b := (Fam.of c.desc true).l
  match c.op with
  | .probe => (Probe.of c.words).queries.length * (a + if rehashing c.desc then b else 0)
  | .insert f | .delete f => wbits (c.words.getD 0 0) 47 32 * (if f then b else a)
  | .advance _ => 1

/-- Step k of a command. -/
def RCmd.stepAt (c : RCmd) (k : Nat) : RStep :=
  let a := Fam.of c.desc false
  let b := Fam.of c.desc true
  let list (famB : Bool) (f : Fam) : RStep :=
    let l := max f.l 1
    ⟨famB, k % l, wbits (c.words.getD 0 0) 31 0 + 4 * (1 + f.words) * (k / l) + 4, k / l⟩
  match c.op with
  | .probe =>
    let p := Probe.of c.words
    let per := max (a.l + if rehashing c.desc then b.l else 0) 1
    let i := p.queries.getD (k / per) 0
    let base := p.qaddr + p.qstride * i
    if k % per < a.l then ⟨false, k % per, base, i⟩ else ⟨true, k % per - a.l, base + 4 * a.words, i⟩
  | .insert f => list f (if f then b else a)
  | .delete f => list f (if f then b else a)
  | .advance _ => ⟨false, 0, 0, 0⟩

/-- A scratchpad word that a command reads: once (R374). -/
def State.inputWord (s : State) (c : RCmd) (a : Nat) : Nat := (c.ids.find? a).getD ((s.block c.blk).readN a 4)

/-- The scratchpad addresses that a step reads: the id word of its table, and the row of its entry. -/
def RCmd.inputs (c : RCmd) (t : RStep) : List Nat :=
  (t.words + 4 * (t.table / max (Fam.of c.desc t.famB).q 1)) :: if c.op.isUpdate then [t.words - 4] else []

/-- The first poisoned word among those that a step has still to read (R221). -/
def State.inputPoison (s : State) (c : RCmd) (t : RStep) : Option Nat :=
  (c.inputs t).find? fun a => (c.ids.find? a).isNone && (s.block c.blk).poisoned a 4

/-- The virtual address of the bucket that a step names (R365, R366). -/
def State.bucketVa (s : State) (c : RCmd) (t : RStep) : Nat :=
  let f := Fam.of c.desc t.famB
  let q := max f.q 1
  let w := s.inputWord c (t.words + 4 * (t.table / q))
  let b := bits w (t.table % q * f.k + f.k - 1) (t.table % q * f.k)
  f.buckets + (t.table * 2 ^ f.k + b) * bucketLines c.desc * 64

/-- Whether an earlier command of the group on the slot still has an operation on the bucket of a step (R386). -/
def State.bucketHeld (s : State) (die n : Nat) (c : RCmd) (va : Nat) : Bool :=
  (s.die die).riddle.any fun p => decide (p.1 < n) && p.2.gid == c.gid && p.2.slot == c.slot && !p.2.applied
    && (match p.2.op with | .advance _ => false | _ => true)
    && (List.range (p.2.total - p.2.step)).any fun j => s.bucketVa p.2 (p.2.stepAt (p.2.step + j)) == va

/-- The lines of a bucket and of its chain at home: their physical addresses, the chain's with its pool indices. -/
structure Bucket where
  (own chain : List Nat)
deriving DecidableEq, Repr, Inhabited

/-- How the reading of a bucket ends. -/
inductive BRes where
  | ok (b : Bucket)
  | fail (cause va : Nat)
  | served (va reason page size : Nat)
  | again (va : Nat) (rejected : Bool)
deriving DecidableEq, Repr, Inhabited

/-- Translates a bucket or pool line; a poisoned word of it is MEM_POISON (R384). -/
def State.riddleLine (s : State) (c : RCmd) (a : AccessKind) (va : Nat) : State × XRes :=
  s.translateWith c.core c.asid (va % 2 ^ 64) a fun t => (t.kind = kPrivate || t.kind = kShared) && dieOfPa (t.frame % 2 ^ 44) == dieOfCore c.core

/-- The first poisoned word of a line. -/
def State.linePoison (s : State) (pa : Nat) : Option Nat := (List.range 8).find? fun k => s.mpois.getD false (pa / 8 + k)

/-- The address of a bucket or pool line, once its memory is served, or why there is none (R384). -/
def State.lineOf (s : State) (c : RCmd) (a : AccessKind) (va : Nat) : State × Except BRes Nat :=
  match s.riddleLine c a va with
  | (s, .trap _) => (s, .error (.fail 0x1B va))
  | (s, .served r p n) => (s, .error (.served va r p n))
  | (s, .again r) => (s, .error (.again va r))
  | (s, .ok pa _) => if s.memReady (paOf pa) then (s, .ok (paOf pa)) else (s, .error (.again va false))

/-- What a line of a slot whose buckets are undefined holds when it is read (R365, R375). -/
def State.openLine (s : State) (c : RCmd) (pa : Nat) : State :=
  if (s.tslot (dieOfCore c.core) c.slot).undef then
    s.homeWrite pa ((List.range 8).flatMap fun k => bytesOf 8 (Config.freeWord s.tick 8201 (pa / 8 + k)).toNat)
  else s

/-- Reads lines one after another: their addresses, or the first failure. -/
def State.readLines (s : State) (c : RCmd) (a : AccessKind) : List Nat → List Nat → State × Except BRes (List Nat)
  | [], acc => (s, .ok acc)
  | va :: rest, acc => match s.lineOf c a va with
    | (s, .error e) => (s, .error e)
    | (s, .ok pa) => match s.linePoison pa with
      | some k => (s, .error (.fail 0x16 (va + 8 * k)))
      | none => State.readLines (s.openLine c pa) c a rest (acc ++ [pa])

/-- The link word at an address. -/
def State.linkAt (s : State) (pa : Nat) : Nat := s.homeN pa 4

/-- Whether a command follows a link (R368, R386). -/
def RCmd.follows (c : RCmd) (j : Nat) : Bool := decide (j < poolNext c.desc) || c.linked.contains j

/-- Follows a chain from a link; a line met before ends it. -/
def State.readChain (s : State) (c : RCmd) (a : AccessKind) : Nat → Nat → List Nat → List Nat → State × Except BRes (List Nat)
  | 0, _, _, acc => (s, .ok acc)
  | fuel + 1, j, seen, acc =>
    if !c.follows j || seen.contains j then (s, .ok acc)
    else match s.readLines c a [bits (dword c.desc 4) 55 0 + 64 * j] [] with
      | (s, .ok l) =>
        let pa := l.headD 0
        State.readChain s c a fuel (s.linkAt pa) (j :: seen) (acc ++ [pa])
      | (s, .error e) => (s, .error e)

/-- Reads a bucket with its chain (R385). -/
def State.readBucket (s : State) (c : RCmd) (a : AccessKind) (va : Nat) : State × BRes :=
  match s.readLines c a ((List.range (bucketLines c.desc)).map fun l => va + 64 * l) [] with
  | (s, .error e) => (s, e)
  | (s, .ok own) =>
    match s.readChain c a (poolNext c.desc + c.linked.length + 1) (s.linkAt (own.headD 0 + 4)) [] [] with
    | (s, .error e) => (s, e)
    | (s, .ok ch) => (s, .ok ⟨own, ch⟩)

/-- The addresses of the own slots of a bucket (R367, R368). -/
def Bucket.slots (b : Bucket) : List Nat :=
  match b.own with
  | [] => []
  | h :: rest => ((List.range 14).map fun k => h + 8 + 4 * k) ++ rest.flatMap fun l => (List.range 16).map fun k => l + 4 * k
/-- The addresses of the chain slots of a bucket, in chain order. -/
def Bucket.chainSlots (b : Bucket) : List Nat := b.chain.flatMap fun l => (List.range 15).map fun k => l + 4 + 4 * k

/-- The ids that a bucket and its chain hold. -/
def State.idsOf (s : State) (b : Bucket) : List Nat :=
  (((b.slots ++ b.chainSlots).map fun a => s.homeN a 4).filter (· != 0xFFFFFFFF)).eraseDups

/-- Writes n little-endian bytes of a number at home. -/
def State.homeNum (s : State) (pa n v : Nat) : State := s.homeWrite pa (bytesOf n v)

/-- The effects of an insert on the slot's live words (R370): ids replaced, dropped, a pool line linked, the pool found empty. -/
def countReplaced (d : List Word) : List Word := setHalf d 14 true (bits (dword d 14) 63 32 + 1)
/-- A dropped id. -/
def countDropped (d : List Word) : List Word := setHalf d 14 false (bits (dword d 14) 31 0 + 1)
/-- A linked pool line. -/
def countLinked (d : List Word) : List Word := setHalf (setHalf d 5 true (poolNext d + 1)) 15 false (bits (dword d 15) 31 0 + 1)
/-- POOL_EMPTY. -/
def poolEmpty (d : List Word) : List Word := d.set 15 ((d.getD 15 0) ||| 1#64 <<< 32)

/-- Changes the live words that a command's binding has. -/
def State.modLive (s : State) (die : Nat) (c : RCmd) (f : List Word → List Word) : State := s.modSlot die c.slot fun t => t.modLive c.bind f

/-- A pool line is linked: the commands of the group on the slot follow it from now on. -/
def State.noteLinked (s : State) (die : Nat) (c : RCmd) (j : Nat) : State :=
  s.modDie die fun x => { x with riddle := x.riddle.map fun p =>
    if p.2.gid = c.gid ∧ p.2.slot = c.slot ∧ p.2.bind = c.bind then (p.1, { p.2 with linked := p.2.linked ++ [j] }) else p }

/-- Insert under CHAIN when the own slots are full (R370). -/
def State.chainInsert (s : State) (die : Nat) (c : RCmd) (b : Bucket) (x : Nat) : State × Option BRes :=
  let h := b.own.headD 0
  let flag (s : State) (f : Nat) : State := s.homeNum (h + 3) 1 (s.homeN (h + 3) 1 ||| f)
  match b.chainSlots.find? fun a => s.homeN a 4 == 0xFFFFFFFF with
  | some a => (s.homeNum a 4 x, none)
  | none =>
    let live := (s.tslot die c.slot).live c.bind
    let j := poolNext live
    if poolSize c.desc ≤ j then (s.modLive die c (fun d => countDropped (poolEmpty d)) |> (flag · 1), none)
    else match s.lineOf c .atomic (bits (dword c.desc 4) 55 0 + 64 * j) with
      | (s, .error e) => (s, some e)
      | (s, .ok pa) =>
        let s := s.homeWrite pa (bytesOf 4 0xFFFFFFFF ++ bytesOf 4 x ++ List.replicate 56 0xFF)
        let s := s.homeNum (match b.chain.getLast? with | some last => last | none => h + 4) 4 j
        ((flag (s.modLive die c countLinked) 4).noteLinked die c j, none)

/-- Insert (R370), or the failure of the pool line that it must link. -/
def State.insertRow (s : State) (die : Nat) (c : RCmd) (b : Bucket) (x : Nat) : State × Option BRes :=
  if (s.idsOf b).contains x then (s, none)
  else
    let h := b.own.headD 0
    let cap := b.slots.length
    let n := min (s.homeN h 2 + 1) 65535
    let flag (s : State) (f : Nat) : State := s.homeNum (h + 3) 1 (s.homeN (h + 3) 1 ||| f)
    let counted (s : State) : State := s.homeNum h 2 n
    match b.slots.find? fun a => s.homeN a 4 == 0xFFFFFFFF with
    | some a => ((counted s).homeNum a 4 x, none)
    | none =>
      match bits (dword c.desc 0) 5 4 with
      | 0 => ((flag (counted s) 1).modLive die c countDropped, none)
      | 1 =>
        let k := s.homeN (h + 2) 1 % max cap 1
        let s := ((counted s).homeNum (b.slots.getD k 0) 4 x).homeNum (h + 2) 1 ((k + 1) % max cap 1)
        ((flag s 2).modLive die c countReplaced, none)
      | 2 =>
        let r := (mix64 (c.desc.getD 1 0 ^^^ BitVec.ofNat 64 x ^^^ BitVec.ofNat 64 n)).toNat % n
        if r < cap then ((flag ((counted s).homeNum (b.slots.getD r 0) 4 x) 2).modLive die c countReplaced, none)
        else ((flag (counted s) 1).modLive die c countDropped, none)
      | _ => match s.chainInsert die c b x with
        | (s, none) => (counted s, none)
        | r => r

/-- A deletion (R371). -/
def State.deleteRow (s : State) (b : Bucket) (x : Nat) : State :=
  (b.slots ++ b.chainSlots).foldl (fun s a => if s.homeN a 4 = x then s.homeNum a 4 0xFFFFFFFF else s) s

/-! ### Events -/

/-- A command of a die's riddle. -/
def State.modRiddle (s : State) (die n : Nat) (f : RCmd → RCmd) : State := s.modDie die fun x => { x with riddle := x.riddle.modify n f }

/-- The output list and count of a query (R377): ids by hits descending, then by id ascending. -/
def State.putHits (s : State) (c : RCmd) (i : Nat) : State :=
  let p := Probe.of c.words
  let ins (x : Nat × Nat) : List (Nat × Nat) → List (Nat × Nat)
    | l => l.takeWhile (fun y => decide (x.2 < y.2) || (x.2 == y.2 && decide (y.1 < x.1))) ++ [x]
      ++ l.dropWhile fun y => decide (x.2 < y.2) || (x.2 == y.2 && decide (y.1 < x.1))
  let ids := (c.hits.foldl (fun l x => ins x l) []).map (·.1)
  let m := ids.length
  let out := (List.range p.cap).flatMap fun j => bytesOf 4 (ids.getD j 0xFFFFFFFF)
  s.modBlock c.blk fun b => (b.writeBytes (p.oaddr + 4 * p.cap * i) out).writeBytes (p.caddr + 4 * i)
    (bytesOf 4 (min m p.cap + if p.cap < m then 2 ^ 31 else 0))

/-- One step of a command is done; after the last table of a query its output is written. -/
def State.riddleStepped (s : State) (die n : Nat) : State :=
  match (s.die die).riddle.find? n with
  | none => s
  | some c =>
    let per := max ((Fam.of c.desc false).l + if rehashing c.desc then (Fam.of c.desc true).l else 0) 1
    let last := c.op = .probe ∧ (c.step + 1) % per = 0
    let s := if last then s.putHits c (c.stepAt c.step).item else s
    s.modRiddle die n fun c => { c with step := c.step + 1, hits := if last then [] else c.hits, blocked := none, rejects := 0 }

/-- A step that fails: recorded (R384). -/
def State.riddleFail (s : State) (die n : Nat) (c : RCmd) (cause : BitVec 8) (va : Nat) : State :=
  (s.recordErr c.gid ⟨c.seq, c.step, cause, BitVec.ofNat 64 va⟩).riddleStepped die n

/-- A bucket that fails: recorded, and skipped by the command from now on (R384). -/
def State.bucketFail (s : State) (die n : Nat) (c : RCmd) (cause : BitVec 8) (va : Nat) : State :=
  (s.modRiddle die n fun x => { x with skips := s.bucketVa c (c.stepAt c.step) :: x.skips }).riddleFail die n c cause va

/-- What follows the reading of a bucket that did not succeed: an error, a wait for the fault service, or another attempt, of which the
sixteenth rejection in a row is an error (R325, R384). -/
def State.riddleMiss (s : State) (die n : Nat) (c : RCmd) (acc : AccessKind) (r : BRes) : State :=
  match r with
  | .ok _ => s
  | .fail cause va => s.bucketFail die n c (BitVec.ofNat 8 cause) va
  | .served va reason page size =>
    let (s, e) := s.appendFault die c.asid va page size reason acc.code
    s.modRiddle die n fun c => { c with blocked := e.map fun k => (k, va) }
  | .again va rejected =>
    if !rejected then s
    else if maxRejections ≤ c.rejects + 1 then s.bucketFail die n c 0x1B va
    else s.modRiddle die n fun c => { c with rejects := c.rejects + 1 }

/-- Runs the next step of a command, if it has one of the kind, is not blocked, and no earlier operation of its group on the bucket is
still to be applied (R386). A poisoned word that the step reads is its error (R221; log 124), and a bucket that has failed is skipped (R384). -/
def State.riddleStep (s : State) (die n : Nat) (kind : ROp → Bool) (body : State → RCmd → RStep → Nat → State) : State :=
  match (s.die die).riddle.find? n with
  | none => s
  | some c =>
    if !kind c.op ∨ c.total ≤ c.step ∨ c.blocked.isSome then s
    else
      let t := c.stepAt c.step
      let va := s.bucketVa c t
      match s.inputPoison c t with
      | some a => s.riddleFail die n c 0x16 a
      | none =>
        let seen := (c.inputs t).foldl (fun m a => m.insert a (s.inputWord c a)) c.ids
        if s.bucketHeld die n c va then s
        else if c.skips.contains va && !(c.op.isUpdate && s.inputWord c (t.words - 4) == 0xFFFFFFFF) then (s.modRiddle die n fun c => { c with ids := seen }).riddleStepped die n
        else body (s.modRiddle die n fun c => { c with ids := seen }) c t va

/-- The row of an entry. -/
def State.entryRow (s : State) (c : RCmd) (t : RStep) : Nat := s.inputWord c (t.words - 4)

/-- An update of one bucket: an entry of row 0xFFFFFFFF is skipped, and recorded once (R378, R384). -/
def State.riddleUpdate (s : State) (die n : Nat) (kind : ROp → Bool) (act : State → RCmd → Bucket → Nat → State × Option BRes) : State :=
  s.riddleStep die n kind fun s c t va =>
    let x := s.entryRow c t
    if x = 0xFFFFFFFF then
      if t.table = 0 then s.riddleFail die n c 0x1B (2 ^ 63 + 0x33 + t.item * 2 ^ 16) else s.riddleStepped die n
    else match s.readBucket c .atomic va with
      | (s, .ok b) => match act s c b x with
        | (s, none) => s.riddleStepped die n
        | (s, some r) => s.riddleMiss die n c .atomic r
      | (s, r) => s.riddleMiss die n c .atomic r

/-- Whether a command is an insert. -/
def ROp.isInsert : ROp → Bool | .insert _ => true | _ => false
/-- Whether a command is a deletion. -/
def ROp.isDelete : ROp → Bool | .delete _ => true | _ => false

/-- BUCKET_SNAPSHOT: a probe reads one bucket and counts its ids (R377, R385). -/
def State.snapshotStep (s : State) (die n : Nat) : State :=
  s.riddleStep die n (· == .probe) fun s c t va =>
    match s.readBucket c .load va with
    | (s, .ok b) =>
      let cur := cursorOf c.desc
      let keep (x : Nat) : Bool := !rehashing c.desc || (if t.famB then decide (x < cur) else decide (cur ≤ x))
      let hits := ((s.idsOf b).filter keep).foldl (fun h x => h.insert x (h.getD 0 x + 1)) c.hits
      (s.modRiddle die n fun c => { c with hits := hits }).riddleStepped die n
    | (s, r) => s.riddleMiss die n c .load r

/-- The bytes that a command reports to its phase barrier (R377, R378). -/
def RCmd.bytes (c : RCmd) : Nat :=
  match c.op with
  | .probe => let p := Probe.of c.words; p.queries.length * (p.qstride + 4 * p.cap + 4)
  | .insert f | .delete f => listBytes c.desc f (c.words.getD 0 0)
  | .advance _ => 0

/-- A command that has taken its steps is applied: HFENCE and HADV no longer wait for it (R379, R381). -/
def State.riddleApplied (s : State) (die n : Nat) : State :=
  s.modRiddle die n fun c => if c.total ≤ c.step then { c with applied := true } else c

/-- The cursor moves (R379): in the slot if its version is still the one sampled, or in the words of a binding that has been replaced. -/
def State.applyAdvance (s : State) (die n : Nat) (c : RCmd) (k : Nat) : State :=
  let t := s.tslot die c.slot
  let d := if t.bind = c.bind ∧ t.version ≠ c.version then c.desc else t.live c.bind
  let cur := min (cursorOf d + k) (rowsOf d)
  let s := if t.bind = c.bind ∧ t.version ≠ c.version then s else s.modLive die c fun d => setHalf d 2 true cur
  let s := s.modDie die fun x => { x with riddle := x.riddle.erase n }
  s.giveAnswer c.gid n (false, BitVec.ofNat 64 cur, 0)

/-- RIDDLE_COMMAND_COMPLETION (R374): every step is done; HADV waits for its group's earlier updates on any slot. -/
def State.completeRiddle (s : State) (die n : Nat) : State :=
  match (s.die die).riddle.find? n with
  | none => s
  | some c =>
    match c.op with
    | .advance k =>
      if (s.die die).riddle.any fun p => p.2.gid == c.gid && decide (p.1 < n) && p.2.op.isUpdate && !p.2.applied then s
      else s.applyAdvance die n c k
    | _ =>
      if c.step < c.total then s
      else
        let s := s.modDie die fun x => { x with riddle := x.riddle.erase n }
        s.reportRiddle c.gid c.blk c.batch c.phase c.bytes c.seq c.total

/-- The fault service's verdict reaches the commands of a die that wait on an entry (R334, R384). -/
def State.riddleVerdict (s : State) (die entry : Nat) (resolved : Bool) : State :=
  (s.die die).riddle.foldl (fun s p => match p.2.blocked with
    | some (e, va) =>
      if e ≠ entry then s
      else if resolved then s.modRiddle die p.1 fun c => { c with blocked := none }
      else s.bucketFail die p.1 p.2 0x1B va
    | none => s) s

/-! ### Meanings -/

/-- HPROBE (R376, R377). -/
def execHprobe (o : Hprobe) (s : State) : Host.Outcome State Fault Refusal := .next (s.probe o)
/-- HINS (R378). -/
def execHins (o : Hlist) (s : State) : Host.Outcome State Fault Refusal := .next (s.updateList o (.insert o.famB))
/-- HDEL (R378). -/
def execHdel (o : Hlist) (s : State) : Host.Outcome State Fault Refusal := .next (s.updateList o (.delete o.famB))
/-- HADV (R379). -/
def execHadv (o : HslotTwo) (s : State) : Host.Outcome State Fault Refusal := .next (s.advance o)
/-- HSWAP (R380). -/
def execHswap (o : Hswap) (s : State) : Host.Outcome State Fault Refusal := .next (s.swapFamilies o)
/-- HFENCE (R381). -/
def execHfence (o : Hfence) (s : State) : Host.Outcome State Fault Refusal := .next (s.riddleFence o)
/-- HSTAT (R382). -/
def execHstat (o : Hstat) (s : State) : Host.Outcome State Fault Refusal := .next (s.statTable o)
/-- HBIND (R375). -/
def execHbind (o : HslotTwo) (s : State) : Host.Outcome State Fault Refusal := .next (s.bindTable o)
/-- BUCKET_INSERT (R370). -/
def execBucketInsert (die k : Nat) (s : State) : Host.Outcome State Fault Refusal :=
  .next ((s.riddleUpdate die k ROp.isInsert fun s c b x => s.insertRow die c b x).riddleApplied die k)
/-- BUCKET_DELETE (R371). -/
def execBucketDelete (die k : Nat) (s : State) : Host.Outcome State Fault Refusal :=
  .next ((s.riddleUpdate die k ROp.isDelete fun s _ b x => (s.deleteRow b x, none)).riddleApplied die k)
/-- BUCKET_SNAPSHOT (R385). -/
def execBucketSnapshot (die k : Nat) (s : State) : Host.Outcome State Fault Refusal := .next (s.snapshotStep die k)
/-- RIDDLE_COMMAND_COMPLETION (R374). -/
def execRiddleCommandCompletion (die k : Nat) (s : State) : Host.Outcome State Fault Refusal := .next (s.completeRiddle die k)

end Sys2Proof.Machine
end

