-- ==== Sys2Proof/Machine/Pool.lean ====
section
/-! DEFINITION. The core pool and the lehr: the space of groups, retired granules, parking and unparking, and clock gating
(spec/07_core_issue_pool_and_mailboxes.md R200 to R210; spec/10_cluster_and_casts.md R287 to R289). -/

namespace Sys2Proof.Machine

/-! ### Space (R202, R289) -/

/-- Space of the four kinds in bytes: vector, uniform, accumulator and shadow (R202). -/
structure Room where
  (vec uni acc sha : Nat)
deriving DecidableEq, Repr, Inhabited

/-- No space. -/
def Room.zero : Room := ⟨0, 0, 0, 0⟩
/-- The sum of two spaces. -/
def Room.add (a b : Room) : Room := ⟨a.vec + b.vec, a.uni + b.uni, a.acc + b.acc, a.sha + b.sha⟩
/-- Whether a space lies within another, kind by kind. -/
def Room.within (a b : Room) : Bool :=
  decide (a.vec ≤ b.vec) && decide (a.uni ≤ b.uni) && decide (a.acc ≤ b.acc) && decide (a.sha ≤ b.sha)
/-- Lehr space, in units of 16 KiB (R289). -/
def Room.lehr (a : Room) : Nat := (a.vec + a.uni + a.acc + a.sha + 16383) / 16384

/-- The space of a group with n vector and k uniform registers, t tiles and h shadows (R202). -/
def roomOf (n k t h : Nat) : Room := ⟨256 * n, 8 * k, 4096 * t, if t = 0 then 0 else 4096 * h⟩
/-- The space of a group. -/
def Group.room (g : Group) : Room := roomOf g.cx.nv g.cx.nu g.cx.nt g.cx.nh

/-- The fields of a partition word (R201): VGRAN, SGRAN, PGRAN, AGRAN, HGRAN. -/
structure Parts where
  (v s p a h : Nat)
deriving DecidableEq, Repr, Inhabited

/-- A partition word's fields. -/
def Parts.of (w : Word) : Parts := ⟨wbits w 6 0, wbits w 14 8, wbits w 22 16, wbits w 30 24, wbits w 38 32⟩
/-- The granules that a partition word takes. -/
def Parts.sum (p : Parts) : Nat := p.v + p.s + p.p + p.a + p.h
/-- The register space that a partition word gives a block. -/
def Parts.room (p : Parts) : Room := ⟨16384 * p.v, 16384 * p.s, 16384 * p.a, 16384 * p.h⟩

/-- A launch. -/
def State.launch (s : State) (l : Nat) : Launch := (s.launches.find? l).getD default
/-- Changes a launch. -/
def State.modLaunch (s : State) (l : Nat) (f : Launch → Launch) : State := { s with launches := s.launches.modify l f }
/-- Word k of a launch record. -/
def Launch.word (l : Launch) (k : Nat) : Word := l.words.getD k 0
/-- The partition word of a launch (R339). -/
def Launch.parts (l : Launch) : Parts := Parts.of (l.word 4)

/-! ### What a core and a cluster hold -/

/-- Whether a group of a list has not ended. -/
def State.anyAlive (s : State) (gs : List Nat) : Bool := gs.any fun n => match s.groups.find? n with | some g => !g.ended | none => false
/-- Whether a block has groups that have not ended (R342). -/
def State.blockLive (s : State) (b : Block) : Bool := s.anyAlive b.groups
/-- The placed blocks of a core that have not ended. -/
def State.blocksOn (s : State) (c : Nat) : List (Nat × Block) := s.blocks.filter fun p => p.2.core == c && s.blockLive p.2
/-- The groups of a core that have not ended. -/
def State.groupsOn (s : State) (c : Nat) : List (Nat × Group) := s.groups.filter fun p => p.2.cx.core == c && !p.2.ended

/-- The granules of a core that are not retired (R223). -/
def Core.granules (k : Core) : List Nat := (List.range 64).filter fun g => !k.poolret.getLsbD g
/-- The granules of a core that are neither retired nor held (R200), and that wait for no test (R222). -/
def State.freeGranules (s : State) (c : Nat) : List Nat :=
  let held := (s.blocksOn c).flatMap fun p => p.2.granules
  (s.core c).granules.filter fun g => !held.contains g && !(s.core c).suspect.contains g
/-- Whether a core takes no block: it or its cluster is retired (R224, R302). -/
def State.coreRetired (s : State) (c : Nat) : Bool := (s.core c).retired || (s.cluster (clusterOfCore c)).retired

/-- The cores of a cluster, over the package. -/
def coresOf (k : Nat) : List Nat := (List.range 8).map fun i => 8 * k + i
/-- The clusters of a die, over the package. -/
def clustersOf (d : Nat) : List Nat := (List.range 8).map fun i => 8 * d + i

/-- The lehr space of a cluster, in units of 16 KiB (R289). -/
def Cluster.lehr (k : Cluster) : Nat := (k.lehrWays.toNat * (524288 - 64 * k.setsRet.length)) / 16384
/-- The lehr space that the groups of a cluster hold: parked ones, and those whose move into the pool is not complete (R289). -/
def State.lehrUsed (s : State) (k : Nat) : Nat :=
  (s.groups.filter fun p => clusterOfCore p.2.cx.core == k && !p.2.ended && (!p.2.resident || decide (s.clk < p.2.movedAt))).foldl (fun n p => n + p.2.room.lehr) 0
/-- Whether the lehr of a cluster has room for more. -/
def State.lehrFits (s : State) (k n : Nat) : Bool := decide (s.lehrUsed k + n ≤ (s.cluster k).lehr)

/-- The register space that the resident groups of a block hold. -/
def State.roomHeld (s : State) (b : Block) : Room :=
  b.groups.foldl (fun r n => match s.groups.find? n with
    | some g => if g.resident && !g.ended then r.add g.room else r
    | none => r) Room.zero

/-- Whether a group's space is free in its block's granules (R205, R207). -/
def State.roomFor (s : State) (g : Group) : Bool :=
  let b := s.block g.cx.blk
  ((s.roomHeld b).add g.room).within (s.launch b.launch).parts.room

/-! ### Parking (R206, R207) -/

/-- The waits behind which a group may be parked (R206). -/
def State.parkWait (s : State) (w : Wait) : Bool :=
  match w with
  | .bar .. | .cbar .. | .phase .. | .line .. | .sleep .. | .rcv (some _) _ => true
  | .answer r => (s.mbreqs.find? r).isSome
  | _ => false

/-- The first condition of R206: every live split waits, or is FAULTED, or is TRAPPED behind one that does. -/
def State.allWaiting (s : State) (g : Group) : Bool :=
  (g.splits.all fun p => match p.2.st with
    | .waiting w => s.parkWait w
    | .faulted .. | .trapped .. => true
    | .ready => false)
  && g.splits.any fun p => match p.2.st with | .trapped .. => false | _ => true

/-- Whether a reply is aimed at a register of a group: that of an ARRST or HADV, or of an access (R206). -/
def State.replyDue (s : State) (g : Group) : Bool :=
  (g.accs.any fun a => a.2.dst != .none && a.2.dst != .phase)
  || g.splits.any fun p => match p.2.st with
    | .waiting (.answer r) => (s.mbreqs.find? r).isNone && !(p.2.answer.isSome && p.2.merged.all (·.2.isSome))
    | .waiting (.lines _) => true
    | _ => false

/-- The other conditions of R206 and R289: no deferred split, LCNT and MCNT 0, no fixed-latency result pending, nothing aimed at its
registers, and room in the lehr. -/
def State.quietGroup (s : State) (g : Group) : Bool :=
  g.defCount == 0 && g.lcnt == 0 && g.mcnt == 0 && !(g.late.any fun l => decide (s.clk < l.land))
  && !s.replyDue g && s.lehrFits (clusterOfCore g.cx.core) g.room.lehr

/-- Whether a group is parkable (R206). -/
def State.parkable (s : State) (g : Group) : Bool := g.resident && !g.ended && s.allWaiting g && s.quietGroup g

/-- The clk that moving a group's space takes (R207). -/
def Group.moveClk (g : Group) : Nat := 64 * g.room.lehr

/-- Parks a group: PARKS rises by 1, and its space is on the move (R207). -/
def State.park (s : State) (gid : Nat) : State :=
  s.modGroup gid fun g => { g with resident := false, parks := g.parks + 1, firedAt := none, stuckAt := none, movedAt := s.clk + g.moveClk }

/-- The clk at which the moves out of a block's space are complete (R207). -/
def State.movedOut (s : State) (blk : Nat) : Nat :=
  (s.groups.filter fun p => p.2.cx.blk == blk && !p.2.ended && !p.2.resident).foldl (fun t p => max t p.2.movedAt) s.clk

/-- Makes a parked group resident. Its space moves once that of the groups parked before it has moved out, and it issues no earlier; its splits
are candidates anew (R198, R207). -/
def State.unpark (s : State) (gid : Nat) : State :=
  let t := s.movedOut (s.group gid).cx.blk + (s.group gid).moveClk
  s.modGroup gid fun g => { g with
    resident := true
    movedAt := t
    stuckAt := none
    splits := g.splits.map fun p => (p.1, { p.2 with readyAt := max p.2.readyAt t, candAt := t, promoted := false }) }

/-- Whether an event for which a parked group waits has fired (R207). -/
def State.fired (s : State) (gid : Nat) : Bool :=
  (s.group gid).splits.any fun p => match p.2.st with
    | .ready => true
    | .waiting w => s.waitOver gid p.1 w
    | _ => false

/-- The group of a list that comes first by a number. -/
def leastBy (f : Group → Nat) : List (Nat × Group) → Option (Nat × Group)
  | [] => none
  | p :: ps => match leastBy f ps with
    | some q => if f p.2 ≤ f q.2 then some p else some q
    | none => some p

/-- The resident groups of a block. -/
def State.residents (s : State) (blk : Nat) : List (Nat × Group) :=
  s.groups.filter fun p => p.2.cx.blk == blk && p.2.resident && !p.2.ended

/-- Whether a group that is ready to unpark has no space, and no group of its block can make room (R207). -/
def State.stuck (s : State) (g : Group) : Bool :=
  !s.roomFor g && !((s.residents g.cx.blk).any fun p => s.parkable p.2)

/-- Parked groups whose event has fired, or whose cluster's lehr has shrunk below what it holds (R301), are ready to unpark, and the clk for which
one has waited with no group parkable are counted (R207). -/
def State.settleFired (s : State) : State :=
  s.groups.foldl (fun s p =>
    if p.2.resident || p.2.ended then s
    else if p.2.firedAt.isNone && !s.fired p.1 && s.lehrFits (clusterOfCore p.2.cx.core) 0 then s
    else
      let stuck := s.stuck p.2
      s.modGroup p.1 fun g => { g with
        firedAt := some (g.firedAt.getD s.clk)
        stuckAt := if stuck then some (g.stuckAt.getD s.clk) else none }) s

/-- GROUP_UNPARK (R207): into free space, for which one parkable group makes room, the one whose event fired longest ago (log 114). -/
def State.unparkGroup (s : State) (gid : Nat) : State :=
  let g := s.group gid
  if g.resident ∨ g.ended ∨ g.firedAt.isNone ∨ (s.groups.find? gid).isNone then s
  else if s.roomFor g then s.unpark gid
  else match leastBy (·.eventAt) ((s.residents g.cx.blk).filter fun p => s.parkable p.2) with
    | none => s
    | some q =>
      let s := s.park q.1
      if s.roomFor g then s.unpark gid else s

/-- FORCED_PARK (R207): after 4,096 clk of waiting, with no group parkable, the resident group of the block that issued least recently and
meets every condition but the first. -/
def State.forcePark (s : State) (gid : Nat) : State :=
  let g := s.group gid
  let rs := s.residents g.cx.blk
  if g.resident ∨ g.ended ∨ !(g.stuckAt.any fun t => decide (t + 4096 ≤ s.clk)) ∨ !s.stuck g then s
  else match leastBy (·.lastIssue) (rs.filter fun p => s.quietGroup p.2) with
    | none => s
    | some q => s.park q.1

/-! ### Clock gating (R209, R210) -/

/-- Whether none of a core's groups has a READY split and its engine, ladle, special-function units and dividers are idle (R209). -/
def State.coreIdle (s : State) (c : Nat) : Bool :=
  let k := s.core c
  !((s.groupsOn c).any fun p => p.2.splits.any fun q => q.2.st == .ready)
  && k.engine.isEmpty && k.ladle.isEmpty && k.divider.all (fun p => decide (p.2 ≤ s.clk)) && k.sfu.all fun p => decide (p.2 ≤ s.clk)

/-- CORE_CLOCK_GATE (R209): after 16 consecutive idle clk. -/
def State.gateCore (s : State) (c : Nat) : State :=
  let k := s.core c
  if k.gated ∨ !s.coreIdle c ∨ s.clk < k.idleFrom + 16 then s
  else s.modCore c fun k => { k with gated := true, woken := false }

/-- The clk from which a core has been idle follows its work (R209). -/
def State.noteIdle (s : State) (c : Nat) : State :=
  if s.coreIdle c then s else s.modCore c fun k => { k with idleFrom := s.clk + 1 }

/-! ### Meanings -/

/-- GROUP_UNPARK (R207). -/
def execGroupUnpark (g : Nat) (s : State) : Host.Outcome State Fault Refusal := .next (s.unparkGroup g)
/-- FORCED_PARK (R207). -/
def execForcedPark (g : Nat) (s : State) : Host.Outcome State Fault Refusal := .next (s.forcePark g)
/-- CORE_CLOCK_GATE (R209). -/
def execCoreClockGate (core : Nat) (s : State) : Host.Outcome State Fault Refusal := .next (s.gateCore core)
/-- CORE_WAKE (R210): a wake reason reaches a gated core. -/
def execCoreWake (core : Nat) (why : BitVec 8) (s : State) : Host.Outcome State Fault Refusal := .next (s.wake core why)

end Sys2Proof.Machine
end

