-- ==== Sys2Proof/Machine/Launch.lean ====
section
/-! DEFINITION. Launch records, queues and the dispatcher: taking and checking a record, POUR, eligibility and the start of launches
(spec/12_die_launch_and_preemption.md R339 to R349; spec/02_group_and_lanes.md R47, R52; spec/07_core_issue_pool_and_mailboxes.md R201;
spec/10_cluster_and_casts.md R290, R291). -/

namespace Sys2Proof.Machine

/-! ### The launch record (R339) -/

/-- The 4 bytes of a record at an offset. -/
def Launch.at4 (l : Launch) (off : Nat) : Nat := bits (l.word (off / 8)).toNat (8 * (off % 8) + 31) (8 * (off % 8))
/-- Bits of the 4 bytes at an offset. -/
def Launch.field (l : Launch) (off h lo : Nat) : Nat := bits (l.at4 off) h lo

/-- PLANE0. -/
def Launch.plane0 (l : Launch) : Nat := l.field 0x08 28 26
/-- ENTRY. -/
def Launch.entry (l : Launch) : Nat := l.field 0x08 25 0
/-- TRAPOFF. -/
def Launch.trapOff (l : Launch) : Nat := l.field 0x0C 25 0
/-- DIMX × DIMY × DIMZ. -/
def Launch.nblk (l : Launch) : Nat := l.at4 0x10 * l.at4 0x14 * l.at4 0x18
/-- DETNUM. -/
def Launch.detnum (l : Launch) : Bool := (l.at4 0x1C).testBit 29
/-- CORES: a co-resident pour. -/
def Launch.coRes (l : Launch) : Bool := (l.at4 0x1C).testBit 28
/-- PRIO. -/
def Launch.prio0 (l : Launch) : Nat := l.field 0x1C 26 24
/-- DEFDEPTH. -/
def Launch.defDepth (l : Launch) : Nat := l.field 0x1C 20 16
/-- CAST. -/
def Launch.castSize (l : Launch) : Nat := l.field 0x1C 11 8
/-- NGRP. -/
def Launch.ngrp (l : Launch) : Nat := l.field 0x1C 5 0
/-- The number of casts. -/
def Launch.casts (l : Launch) : Nat := l.nblk / max l.castSize 1
/-- The role of a group (ROLEMAP). -/
def Launch.roleOf (l : Launch) (g : Nat) : Nat := wbits (l.word 7) (2 * g + 1) (2 * g)
/-- VREGS, UREGS and TILES of a role. -/
def Launch.role (l : Launch) (k : Nat) : Nat × Nat × Nat :=
  (l.field (0x28 + 4 * k) 4 0, l.field (0x28 + 4 * k) 11 8, l.field (0x28 + 4 * k) 20 16)
/-- The roles that the groups of a block have. -/
def Launch.roles (l : Launch) : List Nat := ((List.range (min l.ngrp 32)).map l.roleOf).eraseDups
/-- DEFBASE. -/
def Launch.defBase (l : Launch) : Nat := l.at4 0x40
/-- SHADOW. -/
def Launch.shadows (l : Launch) : Nat := l.field 0x44 4 0
/-- CONSTADDR. -/
def Launch.constAddr (l : Launch) : Nat := (l.word 9).toNat
/-- CONSTCNT. -/
def Launch.constCnt (l : Launch) : Nat := l.field 0x50 7 0
/-- SAVESLOTS. -/
def Launch.saveSlots (l : Launch) : Nat := l.field 0x54 15 0
/-- SAVEBASE. -/
def Launch.saveBase (l : Launch) : Nat := (l.word 11).toNat
/-- SAVESZ. -/
def Launch.saveSz (l : Launch) : Nat := l.at4 0x60
/-- DIEMASK: the dies, in ascending order. -/
def Launch.dies (l : Launch) : List Nat := (List.range 24).filter fun d => (l.at4 0x68).testBit d
/-- Whether CLUSMASK names a cluster of a die. -/
def Launch.onCluster (l : Launch) (k : Nat) : Bool := (l.at4 0x6C).testBit (k % 8)
/-- STATUS. -/
def Launch.statusVa (l : Launch) : Nat := (l.word 14).toNat
/-- DONEADDR. -/
def Launch.doneVa (l : Launch) : Nat := (l.word 15).toNat
/-- DONEBASE. -/
def Launch.doneBase (l : Launch) : Nat := l.at4 0x80
/-- DEPADDR of a dependence line. -/
def Launch.depVa (l : Launch) (d : Nat) : Nat := (l.word (17 + 2 * d)).toNat
/-- DEPTGT of a dependence line. -/
def Launch.depTgt (l : Launch) (d : Nat) : Nat := l.at4 (0x90 + 16 * d)
/-- ASID. -/
def Launch.asid (l : Launch) : BitVec 16 := BitVec.ofNat 16 (l.field 0xC8 15 0)

/-- The space of group g of a block (R202). -/
def Launch.groupRoom (l : Launch) (g : Nat) : Room :=
  let (v, u, t) := l.role (l.roleOf g)
  roomOf (8 * v) (32 * u) t l.shadows

/-- The groups that admission makes resident, in ascending order while space of every kind remains (R205). -/
def residency (cap : Room) : Room → List Room → List Bool
  | _, [] => []
  | used, r :: rs => if (used.add r).within cap then true :: residency cap (used.add r) rs else (r :: rs).map fun _ => false

/-- Which groups of a block start resident (R205). -/
def Launch.starts (l : Launch) : List Bool := residency l.parts.room Room.zero ((List.range l.ngrp).map l.groupRoom)
/-- The lehr space of the groups of a block that start parked (R289). -/
def Launch.startLehr (l : Launch) : Nat :=
  (l.starts.zipIdx).foldl (fun n p => if p.1 then n else n + (l.groupRoom p.2).lehr) 0
/-- The bytes of a save slot (R358). -/
def Launch.slotBytes (l : Launch) : Nat := 65536 + 16384 * l.parts.sum

/-! ### The checks of a record (R341) -/

/-- The reserved fields: offset and bits (R339, R201). -/
def reservedFields : List (Nat × Nat × Nat) :=
  [(0x08, 31, 29), (0x0C, 31, 26), (0x1C, 31, 30), (0x1C, 27, 27), (0x1C, 23, 21), (0x1C, 15, 12), (0x1C, 7, 6), (0x20, 31, 31), (0x20, 23, 23),
   (0x20, 15, 15), (0x20, 7, 7), (0x24, 31, 7), (0x44, 31, 5), (0x50, 31, 8), (0x54, 31, 16), (0x64, 31, 0), (0x68, 31, 24), (0x6C, 31, 8),
   (0x84, 31, 0), (0xC8, 31, 16)]
  ++ ((List.range 4).flatMap fun k => [(0x28 + 4 * k, 31, 21), (0x28 + 4 * k, 15, 12), (0x28 + 4 * k, 7, 5), (0x94 + 16 * k, 31, 0)])
  ++ ((List.range 13).map fun k => (0xCC + 4 * k, 31, 0))

/-- BADREC, but for the address space and the translations. -/
def Launch.badRecord (l : Launch) : Bool :=
  (reservedFields.any fun f => l.field f.1 f.2.1 f.2.2 != 0)
  || l.nblk == 0 || decide (2 ^ 32 < l.nblk) || l.ngrp == 0 || decide (32 < l.ngrp) || l.castSize == 0 || decide (8 < l.castSize)
  || l.nblk % max l.castSize 1 != 0 || decide (16 < l.defDepth) || decide (16 < l.shadows) || decide (128 < l.constCnt)
  || (l.roles.any fun k => let (v, u, t) := l.role k; v == 0 || decide (16 < v) || u == 0 || decide (8 < u) || decide (16 < t))
  || l.at4 0x68 % 2 ^ 24 == 0 || l.at4 0x6C % 256 == 0
  || l.defBase % 16 != 0 || l.constAddr % 8 != 0 || l.saveBase % 4096 != 0 || l.statusVa % 8 != 0 || l.doneVa % 64 != 0
  || (List.range 4).any fun d => l.depVa d % 64 != 0

/-- BADCODE: a case of R52. -/
def Launch.badCode (l : Launch) : Bool :=
  let c := l.word 0
  let planes := 2 ^ wbits c 19 18
  let len := (wbits c 13 0 + 1) * 4096
  wbits c 17 14 == 15 || (planes != 1 && decide (2 ^ (wbits c 17 14 + 12) < len)) || decide (planes ≤ l.plane0)
  || decide (len ≤ l.entry) || decide (len ≤ l.trapOff) || l.entry % 4 != 0 || l.trapOff % 4 != 0

/-- A case of R47: a constant outside a role's uniform registers. -/
def Launch.badConst (l : Launch) : Bool := l.constCnt != 0 && l.roles.any fun k => decide (32 * (l.role k).2.1 < 128 + l.constCnt)

/-- BADPOOL: a case of R201, or deferred areas beyond the scratchpad. -/
def Launch.badPool (l : Launch) : Bool :=
  let p := l.parts
  decide (64 < p.sum) || decide (p.p * 16384 < l.defBase + 16 * l.defDepth * l.ngrp)
  || (List.range (min l.ngrp 32)).any fun g => !(l.groupRoom g).within p.room

/-- BADSAVE. -/
def Launch.badSave (l : Launch) : Bool := l.saveSlots != 0 && decide (l.saveSz * 4096 < l.slotBytes)

/-- The casts of the die of rank k (R349). -/
def Launch.rangeOf (l : Launch) (k : Nat) : Nat × Nat := (k * l.casts / max l.dies.length 1, (k + 1) * l.casts / max l.dies.length 1)

/-- How many blocks of a launch an otherwise empty core can hold (R200, R204, R223). -/
def State.coreHolds (s : State) (l : Launch) (c : Nat) : Nat :=
  if s.coreRetired c then 0 else min ((s.core c).granules.length / max l.parts.sum 1) (128 / max l.ngrp 1)

/-- How many casts of a launch an otherwise empty cluster can hold, counted up to a limit (R289, R291). -/
def State.clusterHolds (s : State) (l : Launch) (k limit : Nat) : Nat :=
  let room := (coresOf k).map (s.coreHolds l)
  let fits (n : Nat) : Bool := decide (l.castSize * n ≤ room.foldl (fun a c => a + min c n) 0)
    && decide (n * l.castSize * l.startLehr ≤ (s.cluster k).lehr)
  if !l.onCluster k || (s.cluster k).retired then 0
  else ((List.range (min limit 512)).filter fun n => fits (n + 1)).foldl (fun a n => max a (n + 1)) 0

/-- LAUNCH_TOO_LARGE (R291, R352): a cast, or a co-resident pour, that some die of its mask can never hold. -/
def State.tooLarge (s : State) (l : Launch) : Bool :=
  l.dies.zipIdx.any fun p =>
    let (a, b) := l.rangeOf p.2
    let want := if l.coRes then b - a else 1
    decide (a < b) && decide ((clustersOf p.1).foldl (fun n k => n + s.clusterHolds l k want) 0 < want)

/-! ### Translations without fault service (R341, R357) -/

/-- The walk of an address by the dispatcher, or by a die for a save slot: it sets A, and D for a write (R323), and serves no fault. -/
def State.plainWalk (s : State) (d : Nat) (asid : BitVec 16) (va : Nat) (wr : Bool) (ok : Tlb → Bool) : State × Option Nat :=
  let ast := s.astEntry d asid.toNat
  if 2 ^ 56 ≤ va ∨ !(s.reg d 0x000).getLsbD 0 ∨ !astValid ast then (s, none)
  else match s.walk d ast va with
    | .fail .. | .wait => (s, none)
    | .leaf a e sh =>
      let t := Tlb.ofLeaf asid (astGen ast) va a e sh
      if !t.r ∨ (wr ∧ !t.w) ∨ !ok t then (s, none)
      else
        let b := byteAt e 1 ||| 1 ||| (if wr then 2 else 0)
        (if b = byteAt e 1 then s else s.homeWrite (a + 1) [b], some (t.frame + (va - t.base)))

/-- Whether n bytes at a global address can be read here: memory without poison, or another node's. -/
def State.readable (s : State) (g n : Nat) : Bool :=
  nodeOf g != s.nodeId s.watchDie || (s.isMemory (paOf g) n && !s.homePois (paOf g) n)

/-- Whether memory at a global address is served (R438). -/
def State.served? (s : State) (g : Nat) : Bool := nodeOf g != s.nodeId s.watchDie || s.memReady (paOf g)

/-- Whether the walk of an address, or what it leads to, lies in memory that is not served yet (R438). -/
def State.walkWaits (s : State) (d : Nat) (asid : BitVec 16) (va : Nat) : Bool :=
  let ast := s.astEntry d asid.toNat
  (s.reg d 0x000).getLsbD 0 && decide (va < 2 ^ 56)
  && (!s.memReady (wbits (s.reg d 0x000) 43 20 * 2 ^ 20 + 16 * asid.toNat) || (astValid ast && match s.walk d ast va with
    | .wait => true
    | .fail .. => false
    | .leaf a e sh => !s.served? (Tlb.ofLeaf asid (astGen ast) va a e sh).frame))

/-- The constants table, entry by entry; none where it cannot be read in full. -/
def State.readConsts (s : State) (d : Nat) (asid : BitVec 16) : List Nat → State × Option (List Word)
  | [] => (s, some [])
  | va :: vas =>
    match s.plainWalk d asid va false fun t => t.kind = kPrivate || t.kind = kImmutable || t.kind = kShared || t.kind = kMould with
    | (s, some pa) =>
      if !s.readable pa 8 then (s, none)
      else match s.readConsts d asid vas with
        | (s, some l) => (s, some (BitVec.ofNat 64 (s.homeN (paOf pa) 8) :: l))
        | r => r
    | (s, none) => (s, none)

/-- A translation that a record may leave out: the state, the address where it is aligned, translates and can be read, and whether it is at
fault. -/
def State.optWalk (s : State) (d : Nat) (asid : BitVec 16) (va n : Nat) (wr : Bool) (ok : Tlb → Bool) : State × Option Nat × Bool :=
  if va = 0 then (s, none, false)
  else if va % n ≠ 0 then (s, none, true)
  else match s.plainWalk d asid va wr ok with
    | (s, some g) => if s.readable g n then (s, some g, false) else (s, none, true)
    | (s, none) => (s, none, true)

/-! ### Status and completion packets (R343) -/

/-- A die sets status bits of a launch with an unbound remote OR; key 24 stands for the dispatcher. -/
def State.sendStatus (s : State) (l key sdie v : Nat) : State :=
  let x := s.launch l
  match x.status with
  | none => s
  | some a =>
    let gen := astGen (s.astEntry sdie x.asid.toNat)
    let p := blankPacket 0x23 (kindByte .i64) (some sdie) none x.asid gen (some x.statusVa) a (bytesOf 8 v)
    (s.send { p with pour := x.pourid.toNat, launch := some (l, key) }).1

/-- Whether every status OR of a launch has been acknowledged or has failed, for the keys named. -/
def State.statusDone (s : State) (l : Nat) (keys : Nat → Bool) : Bool :=
  !(s.packets.any fun p => match p.2.launch with
    | some (m, k) => m == l && keys k && p.2.op == 0x23 && p.2.status.isNone
    | none => false)

/-! ### Queues (R344, R345) -/

/-- QCFG of a queue, at the dispatching die. -/
def State.qcfg (s : State) (q : Nat) : Word := s.reg s.watchDie (0x100 + 16 * q)
/-- The ring header of a queue. -/
def queueBase (c : Word) : Nat := wbits c 43 12 * 4096
/-- The entries of a ring. -/
def queueSize (c : Word) : Nat := 2 ^ (wbits c 7 4 + 4)
/-- The address of entry n of a ring. -/
def queueEntry (c : Word) (n : Nat) : Nat := queueBase c + 64 + 8 * (n % queueSize c)

/-- The launch whose record has a pour id: the latest. -/
def State.launchOf (s : State) (pour : Nat) : Option (Nat × Launch) :=
  s.launches.foldl (fun a p => if p.2.pourid.toNat = pour then some p else a) none

/-- A record as read by the dispatcher. -/
def State.readRecord (s : State) (pa : Nat) : List Word := (List.range 32).map fun k => BitVec.ofNat 64 (s.homeN (pa + 8 * k) 8)

/-- A launch before anything of it has been done. -/
def Launch.fresh (pourid : BitVec 32) (addr : Nat) (words : List Word) (queue : Nat) (number : Option (Nat × Nat × Nat × Nat)) : Launch :=
  { pourid := pourid, addr := addr, words := words, queue := queue, number := number, refused := 0, consts := [], status := none, line := none,
    deps := [], seen := [], eligibleAt := none, aged := 0, started := false, prio := 0, startedAt := 0, startOrder := 0, ranges := [],
    firstPlaced := false, owed := [], sent := [], reported := [], ended := false, arrived := [] }

/-- The dependence lines of a record: translated, and whether one is at fault (R341). -/
def State.readDeps (s : State) (d : Nat) (l : Launch) : List Nat → State × List (Nat × Nat) × Bool
  | [] => (s, [], false)
  | k :: ks =>
    let (s, a, bad) := s.optWalk d l.asid (l.depVa k) 64 false sharedOrFabric
    let (s, rest, bad') := s.readDeps d l ks
    (s, (a.toList.map fun g => (k, g)) ++ rest, bad || bad')

/-- The addresses that the check of a record translates. -/
def Launch.named (l : Launch) : List Nat :=
  ((List.range l.constCnt).map fun j => l.constAddr + 8 * j) ++ ([l.statusVa, l.doneVa] ++ (List.range 4).map l.depVa).filter (· != 0)

/-- The dispatcher checks a record that it has taken, and refuses the launch or keeps it (R341, R343). -/
def State.checkLaunch (s : State) (n : Nat) : State :=
  let d := s.watchDie
  let l := s.launch n
  let asid := l.asid
  let (s, consts) := s.readConsts d asid ((List.range l.constCnt).map fun j => l.constAddr + 8 * j)
  let (s, status, badS) := s.optWalk d asid l.statusVa 8 true fun t => t.kind = kShared
  let (s, line, badL) := s.optWalk d asid l.doneVa 64 false sharedOrFabric
  let (s, deps, badD) := s.readDeps d l [0, 1, 2, 3]
  let badParent := match l.number with
    | some (p, _) => (s.launchOf p).any fun x => x.2.asid != asid
    | none => false
  let bit (b : Bool) (k : Nat) : Nat := if b then 2 ^ k else 0
  let cause := bit (l.badRecord || !astValid (s.astEntry d asid.toNat) || badS || badL || badD) 16 + bit l.badCode 17
    + bit (l.badConst || consts.isNone) 18 + bit l.badPool 19 + bit l.badSave 20 + bit badParent 22
  let cause := if cause = 0 ∧ s.tooLarge l then 2 ^ 21 else cause
  let s := s.modLaunch n fun l => { l with consts := consts.getD [], status := status, line := line, deps := deps, refused := cause, ended := cause != 0 }
  let s := if badS then s.logErr d ⟨0x341, l.addr, cause, 0, 0, []⟩ else s
  let s := s.sendStatus n 24 d 1
  if cause = 0 then s else s.sendStatus n 24 d (cause + 0x14)

/-- TAIL of a queue as the dispatcher takes it beside HEAD: a value that it ignored counts once HEAD has advanced far enough (R345). -/
def State.tailOf (s : State) (q head : Nat) : Nat :=
  let later := s.tails.getD 0 (32 + q)
  if head < later ∧ later - head ≤ queueSize (s.qcfg q) then later else s.tails.getD 0 q

/-- LAUNCH_TAKE (R341, R344, R345): the dispatcher takes the next record of a queue, in ring order. -/
def State.takeLaunch (s : State) (q : Nat) : State :=
  let d := s.watchDie
  let c := s.qcfg q
  let base := queueBase c
  let head := s.homeN base 8
  let tail := s.tailOf q head
  if !c.getLsbD 0 ∨ s.level < 2 ∨ !s.isMemory base 64 ∨ !s.memReady base ∨ tail ≤ head ∨ queueSize c < tail - head then s
  else
    let slot := queueEntry c head
    let a := s.homeN slot 8
    let step (s : State) : State := s.homeWrite base (bytesOf 8 (head + 1))
    let key := q * 2 ^ 64 + head
    let drop (s : State) : State := { s with children := s.children.erase key }
    if a % 256 ≠ 0 ∨ nodeOf a ≠ s.nodeId d ∨ !s.isMemory (paOf a) 256 ∨ s.homePois slot 8 ∨ (s.memReady (paOf a) ∧ s.homePois (paOf a) 256) then
      drop ((step s).logErr d ⟨0x345, q, head, a, 0, []⟩)
    else if !s.memReady (paOf a) then s
    else if let l := Launch.fresh 0 a (s.readRecord (paOf a)) q none; l.named.any (s.walkWaits d l.asid) then s
    else
      let id := if s.pourCount + 1 < 2 ^ 32 then s.pourCount + 1 else 1
      let n := s.uid
      let l := Launch.fresh (BitVec.ofNat 32 id) a (s.readRecord (paOf a)) q (s.children.find? key)
      let s := { step s with pourCount := id, launches := s.launches.insert n l }.bump
      (drop s).checkLaunch n

/-- QDOOR (R344): the dispatcher reads TAIL, once queues and the ring's memory are served (R438). One that makes the ring hold more than its size is
ignored until HEAD has advanced (R345). -/
def State.readTail (s : State) (q : Nat) : State :=
  let c := s.qcfg q
  if !c.getLsbD 0 ∨ !s.isMemory (queueBase c) 64 then s
  else if s.level < 2 ∨ !s.memReady (queueBase c) then { s with doorWaits := s.doorWaits ++ [q] }
  else
    let head := s.homeN (queueBase c) 8
    let tail := s.homeN (queueBase c + 8) 8
    if head + queueSize c < tail then { s with tails := (s.tails.setD 0 q (s.tailOf q head)).setD 0 (32 + q) tail }
    else { s with tails := (s.tails.setD 0 q tail).setD 0 (32 + q) 0 }

/-! ### POUR (R346) -/

/-- The dispatcher's answer to a POUR of a record address: the append, SC and sd. The accesses before it have been performed. While the ring's memory
is not served the answer waits (R438). -/
def State.append (s : State) (d : UReg) (q : Nat) (sa : Word) : State :=
  let s := s.releaseAt s.curCore .die
  let c := s.qcfg q
  let base := queueBase c
  let head := s.homeN base 8
  let tail := s.homeN (base + 8) 8
  if !c.getLsbD 0 ∨ !c.getLsbD 8 ∨ !s.isMemory base 64 ∨ (s.memReady base ∧ queueSize c ≤ tail - head) then s.writeSc false
  else if !s.memReady base then s.holdReady
  else
    let g := s.grp
    let num := (g.cx.pourid.toNat, g.cx.blkid.toNat, g.cx.grpid.toNat, g.calls.toNat)
    let s := (s.homeWrite (queueEntry c tail) (bytesOf 8 sa.toNat)).homeWrite (base + 8) (bytesOf 8 (tail + 1))
    let s := { s with tails := s.tails.setD 0 q (tail + 1), children := s.children.insert (q * 2 ^ 64 + tail) num }
    (s.writeU d.toNat (g.calls.setWidth 64) 0).writeSc true |>.modGrp fun g => { g with calls := g.calls + 1 }

/-- POUR: a die-scope release of every earlier access of the group; the address is kept as read at issue. -/
def State.pourRecord (s : State) (o : Pour) : State :=
  match s.spl.woke, s.spl.answer with
  | some (.fence ..), some (_, sa, _) => s.append o.d o.q.toNat sa
  | _, _ => s.guarded s.cur.mask [rdU o.a, wrU o.d, wrSc] fun s =>
    let sa := s.readU o.a.toNat
    if s.grp.performedBefore s.uid true then s.append o.d o.q.toNat sa
    else ((s.waitFor (.fence s.uid .die true)).modSpl fun p => { p with answer := some (false, sa, 0) }).bump

/-! ### Requests to pre-empt (R353, R356) -/

/-- The placed blocks of a cast that have not ended. -/
def State.liveBlocks (s : State) (cast : Nat) : List (Nat × Block) := s.blocks.filter fun b => b.2.cast == cast && s.blockLive b.2

/-- The casts that are pre-empted with a cast: all those of a co-resident pour, and otherwise itself (R293, R352). -/
def State.together (s : State) (cast : Nat) : List Nat :=
  let n := (s.castOf cast).launch
  if (s.launch n).coRes then
    (s.casts.filter fun c => c.2.launch == n && c.2.blocks.any fun b => (s.blocks.find? b).any s.blockLive).map (·.1)
  else [cast]

/-- The pre-emption of blocks is requested: it is pending for the whole of their casts, and every request is a PREEMPT wake reason of their
cores (R356, R360). -/
def State.ask (s : State) (f : Nat → Block → Bool) : State :=
  let cs := (((s.blocks.filter fun b => s.blockLive b.2 && f b.1 b.2).map (·.2.cast)).eraseDups.flatMap s.together).eraseDups
  cs.foldl (fun s c => (s.liveBlocks c).foldl (fun s b => (s.modBlock b.1 fun x => { x with asked := true }).wake b.2.core whyPreempt) s) s

/-! ### Eligibility and start (R347 to R349) -/

/-- Whether numbers compare as less, field by field (R347). -/
def numberLess (a b : Nat × Nat × Nat × Nat) : Bool :=
  decide (a.1 < b.1) || (a.1 == b.1 && (decide (a.2.1 < b.2.1) || (a.2.1 == b.2.1
    && (decide (a.2.2.1 < b.2.2.1) || (a.2.2.1 == b.2.2.1 && decide (a.2.2.2 < b.2.2.2))))))

/-- Whether the count of a dependence line is seen at its target. -/
def State.depMet (s : State) (l : Launch) (k g : Nat) : Bool :=
  if nodeOf g = s.nodeId s.watchDie then s.memReady (paOf g) && decide (l.depTgt k ≤ s.lineCount (paOf g)) else l.seen.contains k

/-- Whether the order of numbers lets a launch go (R347): the parent has ended and every lower sibling of its queue has started. -/
def State.siblingsStarted (s : State) (l : Launch) : Bool :=
  match l.number with
  | none => true
  | some num => match s.launchOf num.1 with
    | none => true
    | some (_, p) =>
      let lower (q : Nat) (m : Option (Nat × Nat × Nat × Nat)) : Bool := q == l.queue && m.any fun m => m.1 == num.1 && numberLess m num
      !p.detnum || (p.ended
        && !(s.launches.any fun x => lower x.2.queue x.2.number && !x.2.started && x.2.refused == 0)
        && !(s.children.any fun x => lower (x.1 / 2 ^ 64) (some x.2)))

/-- The dispatcher looks at the dependence lines of other nodes with reads of their homes. -/
def State.pollDeps (s : State) (n : Nat) : State :=
  let l := s.launch n
  let d := s.watchDie
  l.deps.foldl (fun s p =>
    if nodeOf p.2 = s.nodeId d ∨ l.seen.contains p.1 ∨ (s.packets.any fun x => x.2.launch == some (n, 64 + p.1) && x.2.status.isNone) then s
    else
      let k := blankPacket 0x31 0 (some d) none l.asid (astGen (s.astEntry d l.asid.toNat)) (some (l.depVa p.1)) p.2 []
      (s.send { k with launch := some (n, 64 + p.1) }).1) s

/-- Taken launches become eligible (R347). -/
def State.settleEligible (s : State) : State :=
  s.launches.foldl (fun s p =>
    if p.2.started ∨ p.2.refused ≠ 0 ∨ p.2.eligibleAt.isSome then s
    else
      let s := s.pollDeps p.1
      let l := s.launch p.1
      if l.deps.all (fun k => s.depMet l k.1 k.2) && s.siblingsStarted l then s.modLaunch p.1 fun l => { l with eligibleAt := some s.clk } else s) s

/-- The clk of 1 ms (R2). -/
def clkPerMs : Nat := 4000000

/-- PRIORITY_AGING (R348): the whole ms that a launch has waited eligible. -/
def State.ageLaunch (s : State) (n : Nat) : State :=
  s.modLaunch n fun l => match l.eligibleAt with
    | some t => if l.started then l else { l with aged := max l.aged ((s.clk - t) / clkPerMs) }
    | none => l

/-- The effective priority of a launch that has not started (R348). -/
def Launch.effective (l : Launch) : Nat := min 7 (l.prio0 + l.aged)

/-- The eligible launches that have not started. -/
def State.candidates (s : State) : List (Nat × Launch) := s.launches.filter fun p => p.2.eligibleAt.isSome && !p.2.started && p.2.refused == 0

/-- Whether launch a is started before launch b (R348): priority, then queues in turn, then ring order. -/
def State.startsBefore (s : State) (a b : Nat × Launch) : Bool :=
  let turn (l : Launch) : Nat := (l.queue + 32 - (s.lastQueue + 1) % 32) % 32
  decide (b.2.effective < a.2.effective) || (a.2.effective == b.2.effective
    && (decide (turn a.2 < turn b.2) || (turn a.2 == turn b.2 && decide (a.1 < b.1))))

/-- The launch that the dispatcher starts next. -/
def State.bestLaunch (s : State) : Option (Nat × Launch) :=
  s.candidates.foldl (fun b p => match b with
    | none => some p
    | some q => if s.startsBefore p q then some p else b) none

/-- Whether a die is drained or draining (R440). -/
def State.draining (s : State) (d : Nat) : Bool := (s.reg d 0x090).getLsbD 0

/-- The die to which a drained die's work for a launch passes (R440): the next of its mask that is not drained, or itself (log
128). -/
def State.nextDie (s : State) (l : Launch) (d : Nat) : Nat :=
  let ds := l.dies
  match ((ds.filter fun k => d < k) ++ ds.filter fun k => k < d).find? fun k => !s.draining k with
  | some k => k
  | none => d

/-- A drained die's unplaced ranges and saved blocks pass on; a co-resident pour waits (R440). -/
def State.moveWork (s : State) (d : Nat) : State :=
  if !s.draining d then s
  else
    let pass (p : Nat × Launch) : Nat × Launch :=
      let dst := s.nextDie p.2 d
      let move (r : Nat × Nat × Nat) : Nat × Nat × Nat := if r.1 = d then (dst, r.2) else r
      if p.2.coRes || dst == d || !(p.2.ranges.any fun r => r.1 == d) then p
      else (p.1, { p.2 with ranges := p.2.ranges.map move, sent := p.2.sent.filter (· != dst), reported := p.2.reported.filter (· != dst) })
    let s := { s with launches := s.launches.map pass }
    s.saved.foldl (fun s v =>
      let n := (s.castOf v.2.cast).launch
      let l := s.launch n
      let dst := s.nextDie l d
      if v.2.die ≠ d ∨ l.coRes ∨ dst = d then s
      else { s with saved := s.saved.insert v.1 { v.2 with die := dst } }.modLaunch n fun l =>
        { l with sent := l.sent.filter (· != dst), reported := l.reported.filter (· != dst) }) s

/-- The watch slots as a die holds them are handed to another die (R432). -/
def State.copyWatches (s : State) (src dst : Nat) : State :=
  let isWatch (o : Nat) : Bool := decide (0x1000 ≤ o) && decide (o < 0x3000)
  let own := (s.die src).regs.filter fun p => isWatch p.1
  s.modDie dst fun x => { x with regs := own.foldl (fun t p => t.insert p.1 p.2) (x.regs.filter fun p => !isWatch p.1) }

/-- DRAIN of a die is set or cleared (R432, R440). -/
def State.setDrain (s : State) (d : Nat) (on : Bool) : State :=
  let v := s.reg d 0x090
  if s.draining d = on then s
  else if on then
    (((if d = 0 then s.copyWatches 0 23 else s).setReg d 0x090 (v ||| 1)).moveWork d).ask fun _ b => dieOfCore b.core == d
  else
    (if d = 0 then s.copyWatches 23 0 else s).setReg d 0x090 (v &&& ~~~1)

/-- LAUNCH_START (R348, R349): the best eligible launch is started, and its ranges are handed to the dies. -/
def State.startLaunch (s : State) : State :=
  let s := s.candidates.foldl (fun s p => s.ageLaunch p.1) s
  match s.bestLaunch with
  | none => s
  | some (n, l) =>
    let order := (s.launches.filter fun p => p.2.started).length
    let ranges := l.dies.zipIdx.filterMap fun p => let (a, b) := l.rangeOf p.2; if a < b then some (p.1, a, b) else none
    let s := s.modLaunch n fun l => { l with started := true, prio := l.effective, startedAt := s.clk, startOrder := order, ranges := ranges }
    l.dies.foldl (fun s d => s.moveWork d) { s with lastQueue := l.queue }

/-! ### Completion (R343) -/

/-- Whether a die has a block of a launch left to run. -/
def State.workLeft (s : State) (n d : Nat) : Bool :=
  ((s.launch n).ranges.any fun r => r.1 == d)
  || (s.blocks.any fun b => b.2.launch == n && dieOfCore b.2.core == d && s.blockLive b.2)
  || (s.saved.any fun v => (s.castOf v.2.cast).launch == n && v.2.die == d)

/-- DIE_END_REPORT (R343): a die with nothing left to run sets its status bits, waits for their acknowledgement, and reports; the last report
ends the launch, and the dispatcher sets ENDED. -/
def State.endReport (s : State) (d n : Nat) : State :=
  let l := s.launch n
  if !l.started ∨ l.ended ∨ !l.dies.contains d ∨ l.reported.contains d ∨ s.workLeft n d then s
  else if !l.sent.contains d then
    let v := l.owed.getD 0 d
    let s := s.modLaunch n fun l => { l with sent := l.sent ++ [d], owed := l.owed.erase d }
    if v = 0 then s else s.sendStatus n d d v
  else if !s.statusDone n (· == d) then s
  else
    let s := s.modLaunch n fun l => { l with reported := l.reported ++ [d] }
    if l.dies.all (fun k => k == d || l.reported.contains k) then
      (s.modLaunch n fun l => { l with ended := true }).sendStatus n 24 s.watchDie 4
    else s

/-- COMPLETION_ARRIVAL (R343): once ENDED is acknowledged, each die of the mask contributes its arrival; the dispatcher does so for a refused
launch. -/
def State.completionArrival (s : State) (d n : Nat) : State :=
  let l := s.launch n
  if !l.ended ∨ !l.dies.contains d ∨ l.arrived.contains d ∨ !s.statusDone n fun _ => true then s
  else
    let s := s.modLaunch n fun l => { l with arrived := l.arrived ++ [d] }
    match l.line with
    | none => s
    | some a =>
      let sd := if l.refused = 0 then d else s.watchDie
      let p := blankPacket 0x25 0 (some sd) none l.asid (astGen (s.astEntry sd l.asid.toNat)) (some l.doneVa) a []
      let rank := (l.dies.filter fun k => k < d).length
      (s.send { p with pour := l.pourid.toNat, lineVa := some l.doneVa, line := some a, idx := (l.doneBase + rank) % 2 ^ 32
                       tag := tagOf 0x25 0 a [], launch := some (n, 32) }).1

/-! ### Meanings -/

/-- POUR (R346). -/
def execPour (o : Pour) (s : State) : Host.Outcome State Fault Refusal := .next (s.pourRecord o)
/-- QDOOR_WRITE (R344): a write of the host, which needs a link (R426; log 126). -/
def execQdoorWrite (q : Nat) (s : State) : Host.Outcome State Fault Refusal := .next (s.hostEvent s.watchDie fun s => s.readTail q)
/-- LAUNCH_TAKE (R341). -/
def execLaunchTake (q : Nat) (s : State) : Host.Outcome State Fault Refusal := .next (s.takeLaunch q)
/-- LAUNCH_START (R348). -/
def execLaunchStart (s : State) : Host.Outcome State Fault Refusal := .next s.settleEligible.startLaunch
/-- PRIORITY_AGING (R348). -/
def execPriorityAging (l : Nat) (s : State) : Host.Outcome State Fault Refusal := .next (s.ageLaunch l)
/-- DIE_END_REPORT (R343). -/
def execDieEndReport (die l : Nat) (s : State) : Host.Outcome State Fault Refusal := .next (s.endReport die l)
/-- COMPLETION_ARRIVAL (R343). -/
def execCompletionArrival (die l : Nat) (s : State) : Host.Outcome State Fault Refusal := .next (s.completionArrival die l)

end Sys2Proof.Machine
end

