-- ==== Sys2Proof/Machine/Place.lean ====
section
/-! DEFINITION. Placement of casts, drain reservations, pre-emption, saving and restoration (spec/12_die_launch_and_preemption.md R350 to R360;
spec/07_core_issue_pool_and_mailboxes.md R200 to R205; spec/10_cluster_and_casts.md R289 to R293; spec/09_matrix_engine.md R282, R283;
spec/15_package_host_and_service.md R440, R443). -/

namespace Sys2Proof.Machine

/-! ### Pending work (R350) -/

/-- A unit of pending work: an unplaced cast of a launch, or a saved cast by name. -/
structure Work where
  (launch : Nat) (castId : Nat) (saved : Option Nat)
deriving DecidableEq, Repr, Inhabited

/-- The pending work of a launch on a die: saved casts in ascending cast id, then the first casts of its ranges: more of them than the die has
clusters could reserve none (R292). -/
def State.workOf (s : State) (n d : Nat) : List Work :=
  let saved := s.saved.filterMap fun v =>
    let c := s.castOf v.2.cast
    if v.2.die = d ∧ c.launch = n then some (⟨n, c.id.toNat, some v.1⟩ : Work) else none
  let fresh := ((s.launch n).ranges.filter fun r => r.1 == d).flatMap fun r =>
    (List.range (min 8 (r.2.2 - r.2.1))).map fun i => (⟨n, r.2.1 + i, none⟩ : Work)
  let byId (l : List Work) : List Work := sortBy (fun a b => decide (a.castId ≤ b.castId)) l
  byId saved ++ byId fresh

/-- The started launches in order of effective priority, then of start. -/
def State.startedLaunches (s : State) : List (Nat × Launch) :=
  sortBy (fun a b => decide (b.2.prio < a.2.prio) || (a.2.prio == b.2.prio && decide (a.2.startOrder ≤ b.2.startOrder)))
    (s.launches.filter fun p => p.2.started && !p.2.ended)

/-- The pending work of a die, in order (R350); launches held off it are left out (R355). -/
def State.pending (s : State) (d : Nat) : List Work :=
  (s.startedLaunches.filter fun p => !(s.die d).held.contains p.1).flatMap fun p => s.workOf p.1 d

/-! ### Fit (R204, R289, R291) -/

/-- What a block asks of a core: granules, group slots and lehr space. -/
structure Need where
  (gran groups lehr : Nat)
deriving DecidableEq, Repr, Inhabited

/-- What the blocks of a unit of work ask, rank by rank. Of a saved cast it is the blocks that were saved, and a core each for its blocks that had
ended (R293). -/
def State.needs (s : State) (w : Work) : List Need :=
  let l := s.launch w.launch
  match w.saved.bind s.saved.find? with
  | none => List.replicate l.castSize ⟨l.parts.sum, l.ngrp, l.startLehr⟩
  | some v =>
    (v.blocks.map fun b =>
      let gs := b.2.groups.filterMap fun n => (v.groups.find? n).bind fun g => if g.ended then none else some g
      (⟨l.parts.sum, gs.length, (gs.filter fun g => !g.resident).foldl (fun a g => a + g.room.lehr) 0⟩ : Need))
    ++ List.replicate (l.castSize - v.blocks.length) ⟨0, 0, 0⟩

/-- Whether a core takes a block, beside lehr space already promised in its cluster. -/
def State.coreTakes (s : State) (c : Nat) (n : Need) (promised : Nat) : Bool :=
  !s.coreRetired c && decide (n.gran ≤ (s.freeGranules c).length) && decide ((s.groupsOn c).length + n.groups ≤ 128)
  && s.lehrFits (clusterOfCore c) (promised + n.lehr)

/-- Distinct cores for blocks, the lowest that take each. -/
def State.pickCores (s : State) : List Need → List Nat → Nat → Option (List Nat)
  | [], _, _ => some []
  | n :: ns, cs, promised =>
    match cs.find? fun c => s.coreTakes c n promised with
    | none => none
    | some c => (s.pickCores ns (cs.filter (· != c)) (promised + n.lehr)).map fun l => c :: l

/-- The cores of a cluster that take a unit of work among those that may be used (R291, R292). -/
def State.clusterTakes (s : State) (w : Work) (k : Nat) (may : Nat → Bool) : Option (List Nat) :=
  let l := s.launch w.launch
  let free := match (s.cluster k).reserved with | some r => r == (w.launch, w.castId) | none => true
  if !l.onCluster k ∨ !free then none else s.pickCores (s.needs w) ((coresOf k).filter may) 0

/-- The cores that take a unit of work on a die: the lowest cluster's (R350). -/
def State.dieTakes (s : State) (w : Work) (d : Nat) (may : Nat → Bool) : Option (List Nat) :=
  (clustersOf d).findSome? fun k => s.clusterTakes w k may

/-! ### Placing (R45, R47, R50, R204, R205) -/

/-- The uniform registers at the start of a group: the constants in s128 onwards, the others zero (R47). -/
def startU (consts : List Word) : Tab Word := consts.zipIdx.foldl (fun t p => t.setD 0 (128 + p.2) p.1) []

/-- A group at its start (R45, R50): one split at the entry offset that owns all lanes. -/
def Group.start (cx : GroupCtx) (plane entry clk : Nat) (consts : List Word) (resident : Bool) : Group :=
  let all := BitVec.allOnes 32
  { cx := cx, v := [], u := startU consts, m := [], shadow := [], tf := 0xFFFF,
    planes := (List.range 32).foldl (fun t i => t.setD 0 i (BitVec.ofNat 3 plane)) [], exited := 0,
    splits := [(0, Split.fresh entry all all all false [] clk)], defHead := 0, defCount := 0, defFrom := 0, fpm := fpmReset, fpst := 0, lcnt := 0, mcnt := 0,
    sbchk := false, bseq := 0, bdone := 0, batches := [], closed := [], tcause := 0, taddr := 0, toff := 0, tmask := 0, svpl0 := 0, svpl1 := 0,
    handler := none, aside := [], asideIid := none, vpois := [], upois := [], mpois := [], late := [], uncov := [], accs := [], mops := [], tags := [],
    merr := none, lerr := none, issueSeq := 0, parks := 0, resident := resident, firedAt := none,
    eventAt := 0, stuckAt := none, movedAt := 0, calls := 0, dgst := 0, dgen := false,
    rerr := none, rreason := 0, lastIssue := 0, ended := false }

/-- The lowest free group slot of a core (R204). -/
def State.freeSlot (s : State) (c : Nat) : Nat :=
  let used := (s.groupsOn c).map fun p => p.2.cx.slot
  ((List.range 128).find? fun k => !used.contains k).getD 128

/-- The context of group g of a block (R50, R339). -/
def Launch.ctx (l : Launch) (core slot blk cast rank castId g : Nat) : GroupCtx :=
  let (v, u, t) := l.role (l.roleOf g)
  { core := core, slot := slot, blk := blk, cast := cast, rank := rank, grpid := BitVec.ofNat 5 g
    blkid := BitVec.ofNat 32 (castId * l.castSize + rank), castid := BitVec.ofNat 32 castId, pourid := l.pourid
    nblk := BitVec.ofNat 33 l.nblk, ngrp := BitVec.ofNat 6 l.ngrp, asid := l.asid, creg := l.word 0, trapOff := l.trapOff
    defBase := l.defBase + 16 * l.defDepth * g, defCap := l.defDepth, prio := l.prio0, nv := 8 * v, nu := 32 * u, nt := t
    nh := if t = 0 then 0 else l.shadows }

/-- A block is admitted on a core (R204): its granules and group slots are taken, its scratchpad is zero, and what the dispatcher saw on the
dependence lines is acquired (R347). A gated core wakes for it, with no wake reason (log 115). -/
def State.seatBlock (s : State) (n cast castId rank core : Nat) : State :=
  let l := s.launch n
  let b := s.uid
  let gs := (List.range l.ngrp).map fun g => b + 1 + g
  let blk : Block :=
    { launch := n, core := core, cast := cast, rank := rank, blkid := BitVec.ofNat 32 (castId * l.castSize + rank), groups := gs,
      pgran := l.parts.p, granules := (s.freeGranules core).take l.parts.sum, scr := [], spois := [], bars := [], slot := none,
      placedAt := s.clk, restoredAt := 0, asked := false, stopping := false }
  let s := { s with blocks := s.blocks.insert b blk, uid := b + 1 + l.ngrp }
  let s := l.starts.zipIdx.foldl (fun s p =>
    let cx := l.ctx core (s.freeSlot core) b cast rank castId p.2
    { s with groups := s.groups.insert (b + 1 + p.2) (Group.start cx l.plane0 l.entry (s.clk + 1) l.consts p.1) }) s
  (s.wake core 0).acquireAt core .die

/-- The first block of a launch sets STARTED (R343). -/
def State.noteStarted (s : State) (n d : Nat) : State :=
  if (s.launch n).firstPlaced then s else (s.modLaunch n fun l => { l with firstPlaced := true }).sendStatus n d d 2

/-- A cluster whose reservation ends passes to the first of the casts that wait to reserve it (R292; log 140). -/
def State.release (s : State) (d k : Nat) : State :=
  let next := (s.die d).claims.find? fun c => c.2.contains k && (s.pending d).any fun w => (w.launch, w.castId) == c.1
  (s.modCluster k fun c => { c with reserved := next.map (·.1) }).modDie d fun x =>
    { x with claims := match next with | some c => x.claims.erase c | none => x.claims }

/-- The drain reservations of casts end, and what they wait to reserve (R292). -/
def State.unreserve (s : State) (d : Nat) (f : Nat × Nat → Bool) : State :=
  let s := if (s.die d).claims.isEmpty then s else s.modDie d fun x => { x with claims := x.claims.filter fun c => !f c.1 }
  (clustersOf d).foldl (fun s k => if (s.cluster k).reserved.any f then s.release d k else s) s

/-- An unplaced cast is placed on its cores, rank by rank (R291). -/
def State.placeFresh (s : State) (w : Work) (d : Nat) (cores : List Nat) : State :=
  let cast := s.uid
  let s := s.bump
  let s := cores.zipIdx.foldl (fun s p => s.seatBlock w.launch cast w.castId p.2 p.1) s
  let blocks := (s.blocks.filter fun b => b.2.cast == cast).map (·.1)
  let next (r : Nat × Nat × Nat) : List (Nat × Nat × Nat) :=
    if r.1 = d ∧ r.2.1 ≤ w.castId ∧ w.castId < r.2.2 then [(d, r.2.1, w.castId), (d, w.castId + 1, r.2.2)] else [r]
  let s := { s with casts := s.casts.insert cast ⟨w.launch, BitVec.ofNat 32 w.castId, cores.length, blocks, []⟩ }
  let s := s.modLaunch w.launch fun l => { l with ranges := (l.ranges.flatMap next).filter fun r => decide (r.2.1 < r.2.2) }
  (s.unreserve d (· == (w.launch, w.castId))).noteStarted w.launch d

/-! ### Save slots (R357, R358) -/

/-- The launch of a saved cast. -/
def State.savedLaunch (s : State) (v : Saved) : Nat := (s.castOf v.cast).launch

/-- The save slots of a launch that are in use on a die. -/
def State.slotsUsed (s : State) (n d : Nat) : List Nat :=
  (s.blocks.filterMap fun b => if b.2.launch = n ∧ dieOfCore b.2.core = d ∧ s.blockLive b.2 then b.2.slot else none)
  ++ s.saved.flatMap fun v => if s.savedLaunch v.2 = n ∧ v.2.home = d then v.2.slots.map (·.2) else []

/-- The lowest free save slot of a launch on a die. -/
def State.slotFree (s : State) (n d : Nat) : Option Nat :=
  let used := s.slotsUsed n d
  (List.range (s.launch n).saveSlots).find? fun j => !used.contains j

/-- The virtual address of a save slot. -/
def Launch.slotVa (l : Launch) (d j : Nat) : Nat := l.saveBase + (d * l.saveSlots + j) * l.saveSz * 4096

/-- The page rule of a save slot: PRIVATE, homed on its die (R357). -/
def slotPage (d : Nat) (t : Tlb) : Bool := t.kind = kPrivate && dieOfPa (t.frame % 2 ^ 44) == d

/-- The frames of n pages of a save slot, or none where one does not translate. -/
def State.slotFrames (s : State) (d : Nat) (asid : BitVec 16) (va : Nat) (wr : Bool) : Nat → State × Option (List Nat)
  | 0 => (s, some [])
  | n + 1 => match s.slotFrames d asid va wr n with
    | (s, some l) => match s.plainWalk d asid (va + 4096 * n) wr (slotPage d) with
      | (s, some pa) => (s, some (l ++ [paOf pa]))
      | (s, none) => (s, none)
    | r => r

/-- The frames of a save slot of a block: those that the layout of R358 takes. -/
def State.slotPages (s : State) (n d j : Nat) (wr : Bool) : State × Option (List Nat) :=
  let l := s.launch n
  s.slotFrames d l.asid (l.slotVa d j) wr (l.slotBytes / 4096)

/-- Whether a page of a save slot lies in memory that is not served yet (R438). -/
def State.slotWaits (s : State) (n d j : Nat) : Bool :=
  let l := s.launch n
  (List.range (l.slotBytes / 4096)).any fun k => s.walkWaits d l.asid (l.slotVa d j + 4096 * k)

/-- Byte i of a save slot as the die writes it: the slot version, the image version and the number of its operations; the others are opaque
(R282, R358; log 14). -/
def slotByte (stamp ops va i : Nat) : Byte :=
  if i = 0 ∨ i = 0x1000 then 1
  else if i = 1 ∨ i = 0x1001 then 0
  else if i = 0x1002 ∨ i = 0x1003 then byteAt ops (i - 0x1002)
  else Config.freeByte stamp (va + i)

/-- The bytes of page k of a save slot. -/
def slotPageBytes (stamp ops va k : Nat) : List Byte := (List.range 4096).map fun i => slotByte stamp ops va (4096 * k + i)

/-! ### Stopping (R353 to R356) -/

/-- Gives every block of a cast that needs one a free save slot, or none where a slot is lacking (R353). -/
def State.takeSlots (s : State) : List (Nat × Block) → Option State
  | [] => some s
  | (b, x) :: rest =>
    if x.slot.isSome then s.takeSlots rest
    else match s.slotFree x.launch (dieOfCore x.core) with
      | none => none
      | some j => (s.modBlock b fun x => { x with slot := some j }).takeSlots rest

/-- The slots of casts that are stopped together. -/
def State.slotsFor (s : State) (casts : List Nat) : Option State :=
  casts.foldl (fun a c => a.bind fun t => t.takeSlots (t.liveBlocks c)) (some s)

/-- Whether an access leaves nothing in flight: a look at a phase that has not left its core (R239), or the lines of a CRRD, which have been read
(R407). Both belong to the context of their split. -/
def Acc.settled (a : Acc) : Bool :=
  (a.dst == .phase && a.pieces.all fun p => p.st == .sent) || (a.dst == .crucible && a.ready)

/-- Whether steps 2 to 4 of R356 are done for a block, with nothing aimed at its registers (R206), and its riddle commands have completed
(R374). What its groups have sent to cast windows is performed, though they have ended (R293). -/
def State.quiesced (s : State) (b : Nat) (x : Block) : Bool :=
  x.groups.all (fun n =>
    let g := s.group n
    g.accs.all (·.2.settled) && (g.ended || (g.lcnt == 0 && !s.replyDue g && !(g.late.any fun l => decide (s.clk < l.land)))))
  && !((s.die (dieOfCore x.core)).riddle.any fun c => c.2.blk == b)

/-! ### Saving (R356 to R358) -/

/-- A block that cannot be saved or restored ends, and its die sets FAILED with a cause (R357, R359). -/
def State.failBlock (s : State) (b d bit : Nat) : State :=
  let x := s.block b
  let s := x.groups.foldl (fun s g => if (s.group g).ended then s else s.endGroup g) s
  s.modLaunch x.launch fun l => { l with owed := l.owed.insert d (l.owed.getD 0 d ||| (8 + 2 ^ bit)) }

/-- The context of a block is written into its save slot: the block is then still placed; none where a page does not translate. -/
def State.writeSlot (s : State) (b : Nat) : State × Bool :=
  let x := s.block b
  let d := dieOfCore x.core
  let l := s.launch x.launch
  let j := x.slot.getD 0
  let ops := ((s.core x.core).engine.filter fun e => x.groups.contains e.2.gid).length
  match s.slotPages x.launch d j true with
  | (s, none) => (s, false)
  | (s, some fs) =>
    (fs.zipIdx.foldl (fun s f => s.homeWrite f.1 (slotPageBytes s.tick ops (l.slotVa d j) f.2)) s, true)

/-- A wait of a split that leaves its core, whose mailbox reasons number n: a SLEEP.MB keeps how many of them it has not seen end it (R242). -/
def Wait.leave (w : Wait) (n : Nat) : Wait :=
  match w with
  | .sleep t mb seen => .sleep t mb (n - seen)
  | w => w

/-- A cast is saved: its blocks leave their cores with all their context (R356 step 5). What the groups wrote at their core is released at die
scope first, so that it stays theirs wherever they run on. -/
def State.saveCast (s : State) (cast : Nat) : State :=
  let d := match s.liveBlocks cast with | b :: _ => dieOfCore b.2.core | [] => 0
  let s := (s.liveBlocks cast).foldl (fun s b =>
    let (s, ok) := (s.releaseAt b.2.core .die).writeSlot b.1
    if ok then s else s.failBlock b.1 d 24) s
  let bs := s.liveBlocks cast
  let gs := bs.flatMap fun b => b.2.groups
  let mine (g : Nat) : Bool := gs.contains g
  let cores := bs.map fun b => b.2.core
  let leave (g : Group) : Group := { g with splits := g.splits.map fun p => (p.1, match p.2.st with
    | .waiting w => { p.2 with st := .waiting (w.leave (s.core g.cx.core).mbWakes) }
    | _ => p.2) }
  let v : Saved :=
    { die := d, home := d, cast := cast, blocks := bs, groups := (s.groups.filter fun g => mine g.1).map fun g => (g.1, leave g.2)
      ladle := cores.flatMap fun c => (s.core c).ladle.filter fun m => mine m.2.gid
      engine := cores.flatMap fun c => (s.core c).engine.filter fun e => mine e.2.gid
      slots := bs.map fun b => (b.1, b.2.slot.getD 0), at_ := s.clk, stamp := s.tick }
  let noted (y : Nat × Die) : Nat × Die := (y.1, { y.2 with preempting := y.2.preempting.filter fun b => !(bs.any fun x => x.1 == b) })
  if bs.isEmpty then s
  else
    let n := s.uid
    let s := cores.foldl (fun s c => s.modCore c fun k =>
      { k with ladle := k.ladle.filter fun m => !mine m.2.gid, engine := k.engine.filter fun e => !mine e.2.gid
               running := if k.engine.head?.any (fun e => mine e.2.gid) then none else k.running }) s
    ({ s with saved := s.saved.insert n v, blocks := s.blocks.filter fun b => !(bs.any fun x => x.1 == b.1)
              groups := s.groups.filter fun g => !mine g.1
              dies := s.dies.map noted }.bump).moveWork d

/-! ### Restoration (R282, R283, R359) -/

/-- The watch packets that a split's ended wait for a line has sent, its own and those of splits that merged into it, are done with (R412). -/
def State.endWatch (s : State) (p : Split) (w : Wait) : State :=
  match w with
  | .line _ r _ => { s with packets := (r.toList ++ p.merged.map (·.1)).foldl (fun t n => t.erase n) s.packets }
  | _ => s

/-- A wait of a split restored after n clk on a core whose mailbox reasons number k: what remained of its time remains (R178, R242). -/
def Wait.shift (w : Wait) (n k : Nat) : Wait :=
  let later (e : Option Nat) : Option Nat := e.map (· + n)
  match w with
  | .rcv e m => .rcv (later e) m
  | .sleep t mb fresh => .sleep (t + n) mb (k + fresh)
  | w => w

/-- A restored split: its waits go on, but for that for an arrival line, whose WAITA is evaluated afresh (R412), and a served fault is retried at
once (R331). -/
def Split.restore (p : Split) (clk pause k : Nat) : Split :=
  let p := { p with expiry := p.expiry.map (· + pause) }
  match p.st with
  | .waiting (.line ..) =>
    { p with st := .ready, readyAt := clk + 1, candAt := clk + 1, lastIssue := clk, promoted := false, answer := none, merged := [] }
  | .waiting w => { p with st := .waiting (w.shift pause k) }
  | .faulted .. => p.resolve (clk + 1)
  | _ => { p with readyAt := clk + 1, candAt := clk + 1, lastIssue := clk, promoted := false }

/-- A group whose saved pool contents were altered: its registers and tiles are undefined (R358; log 5). -/
def Group.scramble (g : Group) (stamp : Nat) : Group :=
  { g with
    v := (List.range 32).foldl (fun t i => (List.range g.cx.nv).foldl (fun t r => t.setD 0 (vkey r i) (Config.freeWord stamp (freeKey .vec r) i)) t) []
    u := (List.range g.cx.nu).foldl (fun t r => t.setD 0 r (Config.freeWord stamp (freeKey .uni r) 0)) []
    m := freeElems stamp (List.range g.cx.nt) (List.range 32) (List.range 32) []
    shadow := freeElems (stamp + 1) (List.range g.cx.nt) (List.range 32) (List.range 32) [] }

/-- A value that an altered slot may hold or not (R358). -/
def freeOption {α : Type} (b : Bool) (x : α) : Option α := if b then some x else none

/-- The trap that an altered context holds, as `f` gives its fields. -/
def Trap.scramble (t : Trap) (f : Nat → Word) : Trap :=
  { t with cause := (f 0).setWidth 8, toff := wbits (f 1) 25 0, taddr := f 2, blame := maskLow (f 3), rpl := (f 4).setWidth 3 }

/-- The state of a split of an altered context: what it waits for may be forgotten, and what remains of a SLEEP or RCVW and the fields of a fault or a
trap are undefined. -/
def SplitState.scramble (st : SplitState) (f : Nat → Word) : SplitState :=
  match st with
  | .waiting (.sleep _ mb k) => .waiting (.sleep (wbits (f 0) 31 0) mb k)
  | .waiting (.rcv e m) => .waiting (.rcv (e.map fun _ => wbits (f 0) 31 0) m)
  | .faulted _ es k b h va => .faulted (maskLow (f 0)) es k b (h.map fun t => t.scramble fun n => f (n + 1)) va
  | .trapped t a => .trapped (t.scramble f) a
  | x => if (f 0).getLsbD 0 then .ready else x

/-- A loop stack of an altered context. -/
def freeLoops (f : Nat → Word) : List Loop :=
  (List.range (wbits (f 0) 2 0 % 5)).map fun k => ⟨wbits (f (3 * k + 1)) 25 0, wbits (f (3 * k + 2)) 25 0, (f (3 * k + 3)).setWidth 32⟩

/-- A split of an altered context: what the slot holds for it is undefined (R358; log 14). -/
def Split.scramble (p : Split) (f : Nat → Word) : Split :=
  { p with
    off := wbits (f 0) 25 2 * 4, owned := maskLow (f 1), exec := maskLow (f 2), origin := maskLow (f 3), hlp := maskLow (f 4)
    sc := (f 5).getLsbD 0, rcvf := (f 5).getLsbD 1, rpl := wbits (f 5) 4 2
    retry := freeOption ((f 5).getLsbD 5) (maskLow (f 6)), idxExec := freeOption ((f 5).getLsbD 6) (maskLow (f 7))
    held := freeOption ((f 5).getLsbD 7) ((p.held.getD default).scramble fun k => f (8 + k)), expiry := p.expiry.map fun _ => wbits (f 13) 31 0
    loops := freeLoops fun k => f (16 + k), st := p.st.scramble fun k => f (32 + k) }

/-- A group of an altered context: what the slot holds for it is undefined (R358; log 14). -/
def Group.scrambleContext (g : Group) (stamp : Nat) : Group :=
  let f (k : Nat) : Word := Config.freeWord stamp 8202 k
  let q (k i : Nat) : Word := Config.freeWord stamp (8300 + k) i
  let err (k : Nat) : Option (BitVec 8 × Word) := freeOption ((f k).getLsbD 8) ((f k).setWidth 8, f (k + 1))
  { g with
    splits := (List.range 32).filterMap fun e => freeOption (Config.freeBool stamp 8299 e)
      (e, ((g.splits.find? e).getD (Split.fresh 0 0 0 0 false [] 0)).scramble (q e))
    planes := (List.range 32).foldl (fun t i => t.setD 0 i (BitVec.ofNat 3 ((f i).toNat % g.planeCount))) []
    exited := maskLow (f 47), defHead := (f 48).toNat % max g.cx.defCap 1, defCount := (f 49).toNat % (g.cx.defCap + 1)
    fpm := fpmWrite (f 32), fpst := (f 33).setWidth 5, sbchk := (f 34).getLsbD 0, bseq := (f 35).setWidth 32, calls := (f 36).setWidth 32
    bdone := (f 50).setWidth 32, batches := g.batches.map fun b => (b.1, wbits (q 32 b.1) 31 0)
    closed := g.closed.filter fun b => Config.freeBool stamp 8298 b
    tcause := (g.tcause &&& ~~~tcauseMask) ||| (f 37 &&& tcauseMask), taddr := f 38, toff := lowBits 26 (f 39), tmask := f 40
    handler := freeOption ((f 51).getLsbD 5) (wbits (f 51) 4 0), aside := freeLoops (q 33)
    svpl0 := lowBits 48 (f 41), svpl1 := lowBits 48 (f 42), tf := (f 43).setWidth 16
    tags := (List.range 2).filterMap fun k => freeOption ((f (52 + k)).getLsbD 16) (k, (List.range g.cx.nt).filter fun t => (f (52 + k)).getLsbD t)
    merr := err 54, lerr := (err 56).map fun e => ⟨(f 58).toNat, (f 59).toNat, e.1, e.2⟩
    rerr := (err 60).map fun e => (e.1, (f 62).setWidth 8, e.2), rreason := (f 44).setWidth 8
    dgst := f 45, dgen := (f 63).getLsbD 0, parks := f 46 }

/-- The barriers of a block or cast as the groups named find them after an altered context (R358). -/
def freeBarriers (stamp : Nat) (gs : List Nat) (bars : Tab Barrier) : Tab Barrier :=
  bars.map fun b => (b.1, { b.2 with
    phase := (Config.freeWord stamp (8350 + b.1) 0).toNat
    regs := b.2.regs.map fun r => if gs.contains r.1 then (r.1, (maskLow (Config.freeWord stamp (8350 + b.1) (1 + r.1)), r.2.2)) else r })

/-- A command of an altered ladle area: its record, its batch and its progress are undefined (R358; log 14). -/
def LCmd.scramble (m : LCmd) (stamp n : Nat) : LCmd :=
  { m with words := m.words.zipIdx.map fun w => Config.freeWord stamp 8240 (64 * n + w.2)
           batch := m.batch.map fun _ => wbits (Config.freeWord stamp 8240 (64 * n + 63)) 31 0
           done := (List.range m.pieceCount).filter fun j => Config.freeBool stamp (8241 + n) j }

/-- A block whose saved pool contents were altered: its scratchpad is undefined. -/
def Block.scramble (b : Block) (stamp : Nat) : Block :=
  { b with scr := (List.range b.scrSize).foldl (fun t a => t.setD 0 a (Config.freeByte stamp a)) [] }

/-- A group's operations are discarded because its matrix image has another version (R283): their elements are undefined, and its lowest live
split raises RESTORE_VERSION where it stood. -/
def State.dropImage (s : State) (gid version : Nat) (es : List (Nat × MEntry)) : State :=
  let mine := es.filter fun e => e.2.gid == gid
  if mine.isEmpty then s
  else
    let s := mine.foldl (fun s e => s.freeWritten e.2) s
    let s := s.modGroup gid fun g => { g with mcnt := 0, mops := g.mops.filter fun p => !(mine.any fun e => e.1 == p.1) }
    match (s.group gid).splits with
    | [] => s
    | (e, p) :: _ => s.raiseAt gid e ⟨0x21, p.off, BitVec.ofNat 64 version, p.exec, 0, .none⟩

/-- A saved block is put on a core, with its groups in new slots; its ladle commands and operations follow (R204, R359). What system software
has altered in its slot, by page, is undefined (R358). A command that had taken a codebook version takes it on this core. The
queue of operations may hold more than 64 then (R282; log 134). -/
def State.putBlock (s : State) (v : Saved) (b : Nat) (x : Block) (core : Nat) (altered : List Nat) : State :=
  let pool := altered.any fun k => decide (16 ≤ k)
  let area := altered.any fun k => decide (7 ≤ k) && decide (k < 11)
  let gran := (s.freeGranules core).take x.granules.length
  let x := if pool then x.scramble (v.stamp + 1) else x
  let context := altered.contains 0
  let rank := if context then (Config.freeWord (v.stamp + 1) 8297 0).toNat % max (s.castOf x.cast).size 1 else x.rank
  let x := if context then { x with bars := freeBarriers (v.stamp + 1) x.groups x.bars, rank := rank } else x
  let s := if context then s.modCast x.cast fun c => { c with bars := freeBarriers (v.stamp + 2) x.groups c.bars } else s
  let y := { x with core := core, granules := gran, slot := none, asked := false, stopping := false, placedAt := s.clk, restoredAt := s.clk + 1 }
  let s := { s with blocks := s.blocks.insert b y }
  let pause := s.clk - v.at_
  let s := x.groups.foldl (fun s n => match v.groups.find? n with
    | none => s
    | some g =>
      let s := g.splits.foldl (fun s p => match p.2.st with | .waiting w => s.endWatch p.2 w | _ => s) s
      let g := if pool then g.scramble (v.stamp + 1) else g
      let g := if context then g.scrambleContext (v.stamp + 1) else g
      let g := { g with cx := { g.cx with core := core, slot := s.freeSlot core, rank := rank }
                        defFrom := g.defFrom + pause
                        splits := g.splits.map fun p => (p.1, p.2.restore s.clk pause (s.core core).mbWakes), late := [] }
      { s with groups := s.groups.insert n g }) s
  let mine (g : Nat) : Bool := x.groups.contains g
  let cmds := v.ladle.filter fun m => mine m.2.gid
  let s := (s.wake core 0).modCore core fun k =>
    { k with ladle := cmds.foldl (fun t m =>
               let c := if area then m.2.scramble (v.stamp + 1) m.1 else m.2
               t.insert m.1 { c with blocked := [], book := c.book.bind fun _ => k.bookOf (BitVec.ofNat 8 (Rec.of c.words).cbver) }) k.ladle
             engine := k.engine ++ v.engine.filter fun e => mine e.2.gid }
  let follow (p : Nat × Packet) : Nat × Packet := match p.2.owner with
    | some (_, m) => if cmds.any (fun c => c.1 == m) then (p.1, { p.2 with owner := some (core, m) }) else p
    | none => p
  { s with packets := s.packets.map follow }

/-- The operations of a block whose image is not loaded leave the core's queue. -/
def State.dropOps (s : State) (core : Nat) (gs : List Nat) : State :=
  s.modCore core fun k => { k with engine := k.engine.filter fun e => !gs.contains e.2.gid }

/-- One block of a saved cast is restored on a core (R359): its slot is read, its version checked, and its context loaded. -/
def State.restoreBlock (s : State) (v : Saved) (b : Nat) (x : Block) (core d : Nat) : State :=
  let j := v.slots.getD 0 b
  let va := (s.launch x.launch).slotVa v.home j
  let ops := (v.engine.filter fun e => x.groups.contains e.2.gid).length
  match s.slotPages x.launch v.home j false with
  | (s, none) => (s.putBlock v b x core []).failBlock b d 24
  | (s, some fs) =>
    let version := s.homeN (fs.headD 0) 2
    let image := s.homeN (fs.getD 1 0) 2
    let altered := fs.zipIdx.filterMap fun f => if s.homeN f.1 4096 = ofBytes (slotPageBytes v.stamp ops va f.2) then none else some f.2
    let s := s.putBlock v b x core altered
    if version ≠ 1 then s.failBlock b d 25
    else
      let s := s.acquireAt core .die
      if image = 1 then
        let touched := altered.any fun k => decide (1 ≤ k) && decide (k < 7)
        let mark (e : Nat × MEntry) : Nat × MEntry := if x.groups.contains e.2.gid then (e.1, { e.2 with tainted := true }) else e
        if touched then s.modCore core fun k => { k with engine := k.engine.map mark } else s
      else x.groups.foldl (fun s g => s.dropImage g image v.engine) (s.dropOps core x.groups)

/-- A saved cast is restored on its cores (R293, R359). -/
def State.restoreCast (s : State) (n : Nat) (v : Saved) (d : Nat) (cores : List Nat) : State :=
  let s := (v.blocks.zip cores).foldl (fun s p => s.restoreBlock v p.1.1 p.1.2 p.2 d) { s with saved := s.saved.erase n }
  s.unreserve d (· == (s.savedLaunch v, (s.castOf v.cast).id.toNat))

/-! ### Decisions (R350 to R352, R443) -/

/-- Whether a unit of work is a saved cast with a save slot in memory that is not served yet (R438). -/
def State.workWaits (s : State) (w : Work) : Bool :=
  match w.saved.bind s.saved.find? with
  | some v => v.slots.any fun j => s.slotWaits w.launch v.home j.2
  | none => false

/-- Places a unit of work on its cores; a saved cast once its save slots are served (R438). -/
def State.placeWork (s : State) (w : Work) (d : Nat) (cores : List Nat) : State :=
  match w.saved with
  | none => s.placeFresh w d cores
  | some n => match s.saved.find? n with
    | some v => if s.workWaits w then s else s.restoreCast n v d cores
    | none => s

/-- The cores on which a die may place: all, or those that the host has chosen in host-assisted placement (R443). -/
def State.mayPlace (s : State) (d c : Nat) : Bool := !(s.die d).mode.getLsbD 2 || (s.reg d 0x0C8).getLsbD (c % 64)

/-- Places what a co-resident pour has left on a die, cast by cast; none where one of them cannot be placed. -/
def State.placeRest (s : State) (n d : Nat) : Nat → Option State
  | 0 => some s
  | k + 1 => match s.workOf n d with
    | [] => some s
    | w :: _ =>
      if s.workWaits w then none else (s.dieTakes w d (s.mayPlace d)).bind fun cores => (s.placeWork w d cores).placeRest n d k

/-! ### Choosing what stops (R353 to R356) -/

/-- Whether a cast may be chosen to be pre-empted for priority (R353, R354). -/
def State.mayYield (s : State) (p : Nat) (cast : Nat) : Bool :=
  decide ((s.launch (s.castOf cast).launch).prio < p)
  && (s.together cast).all (fun c => (s.liveBlocks c).all fun b => b.2.restoredAt == 0 || decide (b.2.restoredAt + clkPerMs ≤ s.clk + 1))
  && (s.slotsFor (s.together cast)).isSome

/-- The state without the blocks of casts. -/
def State.without (s : State) (casts : List Nat) : State :=
  let gone := casts.flatMap s.together
  { s with blocks := s.blocks.filter fun b => !gone.contains b.2.cast, groups := s.groups.filter fun g => !gone.contains g.2.cx.cast }

/-- The sublists of a list, in order. -/
def subsets : List Nat → List (List Nat)
  | [] => [[]]
  | x :: xs => (subsets xs).map (fun l => x :: l) ++ subsets xs

/-- The casts of a cluster that may be pre-empted for a priority, by started priority, then the most recently placed first (R354). -/
def State.yielders (s : State) (p : Nat) (ks : List Nat) : List Nat :=
  let cs := (s.casts.filter fun c => (s.liveBlocks c.1).any fun b => ks.contains (clusterOfCore b.2.core)).map (·.1)
  let prio (c : Nat) : Nat := (s.launch (s.castOf c).launch).prio
  let at_ (c : Nat) : Nat := (s.liveBlocks c).foldl (fun m b => max m b.2.placedAt) 0
  sortBy (fun a b => decide (prio a < prio b) || (prio a == prio b && decide (at_ b ≤ at_ a))) (cs.filter (s.mayYield p))

/-- Whether a unit of work fits: on one of the clusters, or, for a co-resident pour, every cast that its die has left. -/
def State.fits (s : State) (w : Work) (d : Nat) (ks : List Nat) : Bool :=
  let l := s.launch w.launch
  if l.coRes then
    (s.placeRest w.launch d (l.ranges.foldl (fun a r => if r.1 = d then a + (r.2.2 - r.2.1) else a) s.saved.length)).isSome
  else ks.any fun k => (s.clusterTakes w k fun _ => true).isSome

/-- The casts that a die pre-empts for priority (R354): the fewest blocks whose removal makes room for its first pending work, and that all get a
save slot (R353). Not in host-assisted pre-emption (R443). -/
def State.victims (s : State) (d : Nat) : List Nat :=
  match s.pending d with
  | [] => []
  | w :: _ =>
    let l := s.launch w.launch
    if (s.die d).mode.getLsbD 3 || s.draining d || s.fits w d (clustersOf d) then []
    else
      let size (cs : List Nat) : Nat := cs.foldl (fun n c => n + (s.liveBlocks c).length) 0
      let choose (ks : List Nat) : Option (List Nat) :=
        ((subsets (s.yielders l.prio ks)).filter fun cs =>
          !cs.isEmpty && (s.slotsFor (cs.flatMap s.together)).isSome && (s.without cs).fits w d ks).foldl (fun a cs => match a with
          | none => some cs
          | some b => if size cs < size b then some cs else some b) none
      if l.coRes then (choose (clustersOf d)).getD []
      else ((clustersOf d).findSome? fun k => choose [k]).getD []

/-- Whether a block is to be pre-empted on its own account (R353): its die drains, its core is retired, or PREEMPT asks for it. -/
def State.stopAsked (s : State) (b : Nat) (x : Block) : Bool :=
  s.draining (dieOfCore x.core) || s.coreRetired x.core || s.dies.any fun y => y.2.preempting.contains b

/-- Whether a block is to be pre-empted (R353): with a block of what is pre-empted with it, or because its cast is chosen for priority. -/
def State.mustStop (s : State) (b : Nat) (x : Block) : Bool :=
  s.stopAsked b x || ((s.together x.cast).any fun c => (s.liveBlocks c).any fun y => s.stopAsked y.1 y.2)
  || (s.victims (dieOfCore x.core)).any fun c => (s.together c).contains x.cast

/-- Pre-emption of casts begins, once each of their blocks has a save slot: no group of theirs issues again (R353, R356). -/
def State.stopCasts (s : State) (casts : List Nat) : State :=
  match s.slotsFor casts with
  | none => s
  | some s => casts.foldl (fun s c => (s.liveBlocks c).foldl (fun s b => s.modBlock b.1 fun x => { x with stopping := true }) s) s

/-- Whether steps 2 to 4 of R356 are done for a cast: for its blocks that have ended, their messages are performed (R293). The memory of its save
slots is served (R438). -/
def State.castQuiesced (s : State) (cast : Nat) : Bool :=
  ((s.blocks.filter fun b => b.2.cast == cast).all fun b => s.quiesced b.1 b.2)
  && (s.liveBlocks cast).all fun b => !s.slotWaits b.2.launch (dieOfCore b.2.core) (b.2.slot.getD 0)

/-- BLOCK_PREEMPT (R356): a block with a reason is asked to stop with its cast, stops once there are save slots, and is saved once the work in
flight is done. A request whose reason has gone is dropped. -/
def State.preemptBlock (s : State) (b : Nat) : State :=
  match s.blocks.find? b with
  | none => s
  | some x =>
    if !s.blockLive x then s
    else
      let cs := s.together x.cast
      if x.stopping then
        if cs.all s.castQuiesced then cs.foldl (fun s c => s.saveCast c) s else s
      else if s.mustStop b x then (if x.asked then s else s.ask fun n _ => n == b).stopCasts cs
      else if x.asked then s.modBlock b fun x => { x with asked := false }
      else s

/-! ### Placing the head of pending work (R350, R352) -/

/-- The first pending work of a die is of a co-resident pour other than a launch (R352). -/
def State.coResHead (s : State) (d n : Nat) : Bool :=
  match s.pending d with
  | w :: _ => w.launch != n && (s.launch w.launch).coRes
  | [] => false

/-- A co-resident pour is placed whole, on every die of its mask that has work for it, or not at all (R352). -/
def State.placeCoRes (s : State) (n : Nat) : Option State :=
  let l := s.launch n
  let ds := l.dies.filter fun d => !(s.workOf n d).isEmpty
  if ds.any fun d => s.draining d || (s.die d).held.contains n || s.coResHead d n then none
  else
    let total := l.ranges.foldl (fun a r => a + (r.2.2 - r.2.1)) s.saved.length
    ds.foldl (fun a d => a.bind fun t => t.placeRest n d total) (some s)

/-- Places the first unit of work that fits (R350). A co-resident pour at the head of a die's work keeps all other work off it (R352). -/
def State.placeFirst (s : State) (d : Nat) (head : Bool) : List Work → State
  | [] => s
  | w :: ws =>
    if (s.launch w.launch).coRes then
      match s.placeCoRes w.launch with
      | some t => t
      | none => if head then s else s.placeFirst d false ws
    else match s.dieTakes w d fun _ => true with
      | some cores => s.placeWork w d cores
      | none => s.placeFirst d false ws

/-- PLACEMENT_DECISION (R350). -/
def State.placeDecision (s : State) (d : Nat) : State :=
  if s.draining d ∨ (s.die d).mode.getLsbD 2 ∨ 24 ≤ d then s else s.placeFirst d true (s.pending d)

/-- The host chooses cores for the head of pending work; a mask that breaks R291 is ignored (R443). -/
def State.hostPlace (s : State) (d : Nat) (mask : Word) : State :=
  let s := s.setReg d 0x0C8 mask
  if !(s.die d).mode.getLsbD 2 ∨ s.draining d then s
  else match s.pending d with
    | [] => s
    | w :: _ =>
      if (s.launch w.launch).coRes then (s.placeCoRes w.launch).getD s
      else
        let chosen := (List.range 64).filter fun c => mask.getLsbD c
        if chosen.length ≠ (s.needs w).length then s
        else match s.dieTakes w d (s.mayPlace d) with
          | some cores => s.placeWork w d cores
          | none => s

/-- DRAIN_RESERVATION (R292): every cast that has waited 100 µs and holds no reservation, in order, reserves the cluster, among those it may use
and that are not reserved, with the most cores that have granules for one of its blocks; one that finds them all reserved reserves the first that is
released. -/
def State.reserve (s : State) (d : Nat) : State :=
  let since (w : Work) : Nat := match w.saved.bind s.saved.find? with | some v => v.at_ | none => (s.launch w.launch).startedAt
  let holds (w : Work) : Bool := (clustersOf d).any fun k => (s.cluster k).reserved == some (w.launch, w.castId)
  let usable (w : Work) (k : Nat) : Bool :=
    (s.launch w.launch).onCluster k && decide ((s.needs w).length ≤ ((coresOf k).filter fun c => !s.coreRetired c).length)
  let count (w : Work) (k : Nat) : Nat :=
    ((coresOf k).filter fun c => !s.coreRetired c && decide ((s.launch w.launch).parts.sum ≤ (s.freeGranules c).length)).length
  let waits (w : Work) : Bool := (s.die d).claims.any fun c => c.1 == (w.launch, w.castId)
  ((s.pending d).filter fun w => decide (since w + 400000 ≤ s.clk) && !holds w && !waits w).foldl (fun s w =>
    let mine := (clustersOf d).filter (usable w)
    match mine.filter fun k => (s.cluster k).reserved.isNone with
    | [] => if mine.isEmpty then s else s.modDie d fun x => { x with claims := x.claims ++ [((w.launch, w.castId), mine)] }
    | k :: rest =>
      let best := rest.foldl (fun b k => if count w b < count w k then k else b) k
      s.modCluster best fun c => { c with reserved := some (w.launch, w.castId) }) s

/-! ### Meanings -/

/-- PLACEMENT_DECISION (R350). -/
def execPlacementDecision (die : Nat) (s : State) : Host.Outcome State Fault Refusal := .next (s.placeDecision die)
/-- DRAIN_RESERVATION (R292). -/
def execDrainReservation (die : Nat) (s : State) : Host.Outcome State Fault Refusal := .next (s.reserve die)
/-- BLOCK_PREEMPT (R356). -/
def execBlockPreempt (b : Nat) (s : State) : Host.Outcome State Fault Refusal := .next (s.preemptBlock b)
/-- PLCORE_WRITE (R443). -/
def execPlcoreWrite (die : Nat) (v : Word) (s : State) : Host.Outcome State Fault Refusal := .next (s.hostEvent die fun s => s.hostPlace die v)

end Sys2Proof.Machine
end

