-- ==== Sys2Proof/Machine/Service.lean ====
section
/-! DEFINITION. Events of cores, caches and the fault service: the end of waits, merges and promotions, completions of loads and messages,
walks, fault verdicts, cache traffic, storage errors and self-tests (spec/02_group_and_lanes.md R62; spec/06_control_planes_and_traps.md R178,
R185, R191; spec/07_core_issue_pool_and_mailboxes.md R198, R215, R221 to R224; spec/08_core_memory_and_ladle.md R228, R242;
spec/09_matrix_engine.md R280; spec/10_cluster_and_casts.md R294, R295, R300 to R302; spec/11_die_memory_model_and_translation.md R309, R324,
R325, R330 to R338; spec/15_package_host_and_service.md R442 to R444). -/

namespace Sys2Proof.Machine

/-! ### The end of a wait -/

/-- Whether RCVW's expiry must let another split that waits there, or has reached its offset in this clk, merge first (R177). -/
def State.mergesFirst (s : State) (gid e : Nat) (w : Wait) : Bool :=
  match w with
  | .rcv (some _) m =>
    let g := s.group gid
    !s.reconverged gid (g.split e) m
    && g.splits.any fun q => g.sameSpot e q.1 && (match q.2.st with
        | .ready => q.2.atStart && decide (q.2.readyAt ≤ s.clk)
        | .waiting (.rcv ..) => true
        | _ => false)
  | _ => false

/-- The wake reason of the end of a wait (R210, R412). -/
def timerReason (w : Wait) : BitVec 8 :=
  match w with
  | .sleep .. | .rcv (some _) _ => whyTimer
  | .line .. => whyArrival
  | _ => 0

/-- A WAITING split whose wait is done becomes READY, and its instruction goes on when it is next selected. The outcome is that of this
evaluation: the expiry of RCVW stays with a wait that its lanes did not end (R177), and a line of the issuing die answers as it now stands
(R412). -/
def State.endWait (s : State) (gid e : Nat) (f : Wait → Bool) : State :=
  let p := (s.group gid).split e
  match p.st with
  | .waiting w =>
    if f w && s.waitOver gid e w && decide (p.readyAt ≤ s.clk) && !s.mergesFirst gid e w then
      let ended := match w with
        | .rcv x m => .rcv (if s.reconverged gid p m then none else x) m
        | _ => w
      let answer := match w with
        | .line a none _ => if s.lineEnds a then some (true, 0, BitVec.ofNat 64 (s.lineFlags a)) else none
        | _ => p.answer
      let s := (s.endWatch p w).modGroup gid fun g =>
        { g.modSplit e fun p => { p.readyFrom s.clk with woke := some ended, answer := answer } with eventAt := s.clk }
      s.wake (s.group gid).cx.core (timerReason ended)
    else s
  | _ => s

/-- A wait whose expiry has come (R177, R412). -/
def State.expired (s : State) (w : Wait) : Bool :=
  match w with
  | .rcv e _ => e.any fun t => decide (t ≤ s.clk)
  | .sleep t _ _ => decide (t ≤ s.clk)
  | .line _ _ e => e.any fun t => decide (t ≤ s.clk)
  | _ => false

/-- SPLIT_PROMOTION (R198): a candidate whose wait count has reached 256. -/
def State.promote (s : State) (gid e : Nat) : State :=
  let g := s.group gid
  let p := g.split e
  if p.st = .ready ∧ g.resident ∧ p.candAt + 256 ≤ s.clk ∧ (g.splits.find? e).isSome then
    s.modGroup gid fun g => g.modSplit e fun p => { p with promoted := true }
  else s

/-- TRAP_ENTRY (R191, R195): the TRAPPED split whose turn it is enters the handler. -/
def State.trapTurn (s : State) (gid e : Nat) : State :=
  if (s.group gid).firstTrapped.any fun t => t.1 == e then s.tryTrap gid else s

/-- FIXED_LATENCY_RESULT (R185): a pending write that is due is no longer pending. -/
def State.landLate (s : State) (gid k : Nat) : State :=
  s.modGroup gid fun g => match g.late[k]? with
    | some l => if l.land ≤ s.clk then { g with late := g.late.eraseIdx k } else g
    | none => g

/-! ### Cast-window messages (R294, R295) -/

/-- Whether a message that one core sent another before a place in the order sent is still on its way: a request, or a reply (R294). -/
def State.messageBefore (s : State) (src dest stamp : Nat) : Bool :=
  let at_ (b : Nat) : Nat := (s.block b).core
  s.groups.any fun h =>
    (h.2.cx.core == src && h.2.accs.any fun a => a.2.pieces.any fun q =>
      q.pending && remotePiece h.2 a.2 q && at_ q.blk == dest && q.msg.any fun t => decide (t < stamp))
    || (h.2.cx.core == dest && h.2.accs.any fun a => a.2.pieces.any fun q => match q.st with
      | .served _ _ t => at_ q.blk == src && decide (t < stamp)
      | _ => false)

/-- Whether a message has not been sent yet, or one that its core sent earlier to the same core is still on its way (R294). -/
def State.behind (s : State) (gid n j : Nat) : Bool :=
  let g := s.group gid
  match (g.accs.find? n).bind fun a => a.pieces[j]? with
  | none => true
  | some p => match p.msg with
    | none => true
    | some t => s.messageBefore g.cx.core (s.block p.blk).core t

/-- The messages that may leave are sent, and take their places in the order sent: those of one issue in ascending lane order (R294, R295). -/
def State.sendMessages (s : State) : State :=
  s.groups.foldl (fun s h => h.2.accs.foldl (fun s a => a.2.pieces.zipIdx.foldl (fun s q =>
    if q.1.msg.isNone && remotePiece h.2 a.2 q.1 && s.pieceReady h.2 a.1 q.2 then
      (s.modGroup h.1 fun g => { g with accs := g.accs.modify a.1 fun a =>
        { a with pieces := a.pieces.modify q.2 fun p => { p with msg := some s.uid } } }).bump
    else s) s) s) s

/-- Whether the owning core still has an access of its own to serve at the bank that a message is for (R211, R295). -/
def State.ownFirst (s : State) (p : Piece) : Bool :=
  let core := (s.block p.blk).core
  s.groups.any fun h => h.2.cx.core == core && h.2.accs.any fun a => (a.2.space = .scratch || a.2.space = .window)
    && a.2.pieces.zipIdx.any fun q => q.1.pending && !remotePiece h.2 a.2 q.1 && q.1.addr / 8 % 64 == p.addr / 8 % 64 && s.pieceReady h.2 a.1 q.2

/-- CAST_WINDOW_MESSAGE: a message is served at the owning bank, in the order in which its core sent to that core, after the accesses of the
owning core, those that it still issues in this clk among them. No look at a phase leaves a block that is being stopped (R293). -/
def State.windowMessage (s : State) (gid n j : Nat) : State :=
  let g := s.group gid
  match g.accs.find? n with
  | none => s
  | some a => match a.pieces[j]? with
    | none => s
    | some p =>
      if !remotePiece g a p ∨ s.behind gid n j ∨ s.ownFirst p ∨ s.issuesLeft (s.block p.blk).core ∨ (a.dst = .phase ∧ (s.block g.cx.blk).stopping) then s
      else s.performAt gid n j true

/-- Whether an earlier message from the core that has served a reply's request to the core that waits for it is still on its way (R294). -/
def State.replyBehind (s : State) (g : Group) (blk stamp : Nat) : Bool := s.messageBefore (s.block blk).core g.cx.core stamp

/-- The answer to a look at a phase of another rank (R239, R294): the split that waits for it goes on where the phase has changed, and looks
again where it has not. -/
def State.phaseSeen (s : State) (gid n : Nat) (word : Word) : State :=
  let g := s.group gid
  let waits (p : Split) : Option Bool := match p.st with | .waiting (.phase _ _ old (some m)) => if m = n then some old else none | _ => none
  match g.splits.first? fun _ p => (waits p).isSome with
  | none => s.modGroup gid fun g => { g with accs := g.accs.erase n }
  | some (e, p) =>
    if waits p = some (word.getLsbD 32) then
      s.modGroup gid fun g => { g with accs := g.accs.modify n fun a => { a with pieces := a.pieces.map fun q => { q with st := .sent, msg := none } } }
    else s.modGroup gid fun g => { g.modSplit e fun p => { p with answer := some (true, word, 0) } with accs := g.accs.erase n }

/-- CAST_WINDOW_REPLY: the reply has reached the issuing core, in the order sent. -/
def State.windowReply (s : State) (gid n j : Nat) : State :=
  let g := s.group gid
  match (g.accs.find? n).bind fun a => (a.pieces[j]?).map fun p => (a, p) with
  | none => s
  | some (a, p) => match p.st with
    | .served v x t =>
      if s.replyBehind g p.blk t then s
      else if a.dst = .phase then s.phaseSeen gid n v
      else s.modGroup gid fun g => { g with accs := g.accs.modify n fun a => { a with pieces := a.pieces.modify j fun q => { q with st := .ready v x } } }
    | _ => s

/-! ### Walks and the fault service (R324, R325, R330 to R335) -/

/-- PAGE_WALK: a walk completes and its leaf is installed. An entry that the core or its cluster holds has been evicted before (R324). -/
def State.walkEvent (s : State) (core asid va : Nat) : State :=
  let a := BitVec.ofNat 16 asid
  if 2 ^ 56 ≤ va ∨ !(s.reg (dieOfCore core) 0x000).getLsbD 0 then s else
  match (s.tlbDrop core a va).walkInstall core a va with
  | (t, .ok _ _) => t
  | _ => s.tlbDrop core a va

/-- STALE_ACCESS_RETRY: an entry of another generation than the home slice's is dropped, and walked again. -/
def State.staleRetry (s : State) (core asid va : Nat) : State :=
  let a := BitVec.ofNat 16 asid
  match s.tlbFind core a va with
  | none => s
  | some t =>
    if t.kind = kFabric ∨ t.gen = s.sliceGen (dieOfPa (t.frame % 2 ^ 44)) a then s
    else match (s.tlbDrop core a va).walkInstall core a va with
      | (u, .ok _ _) => u
      | _ => s.tlbDrop core a va

/-- FAULT_QUEUE_APPEND (R332): a FAULTED split that found the ring full asks again once there is room. -/
def State.appendAgain (s : State) (d k : Nat) : State :=
  let gid := k / 4
  let e := k % 4
  let g := s.group gid
  let ptr := s.reg d 0x020
  let full := (wbits ptr 31 0 + 1) % s.fqSize d == wbits ptr 63 32 % s.fqSize d
  match (g.split e).st with
  | .faulted _ [] .. =>
    if full ∨ dieOfCore g.cx.core ≠ d then s
    else (s.modGroup gid fun g => g.modSplit e fun p => p.resolve s.clk).wake g.cx.core 0
  | _ => s

/-- A served fault is delivered as a trap (R330, R334, R335, R484). An HBIND is refused instead (R375). -/
def State.deliverFault (s : State) (gid e cause : Nat) : State :=
  let p := (s.group gid).split e
  match p.st with
  | .faulted r _ _ fetch held va =>
    match p.woke with
    | some (.answer _) => s.modGroup gid fun g => g.modSplit e fun p => { p.readyFrom s.clk with answer := some (false, 0, 0) }
    | _ =>
      let t : Trap := if fetch then held.getD default else ⟨0, p.off, va, r, 0, .none⟩
      let t : Trap := { t with cause := BitVec.ofNat 8 cause }
      s.raiseAt gid e (if fetch then t else t.lower held)
  | _ => s

/-- The leaf and its level that the host has written to XLFILL (R443), with the size of its page. -/
def State.xlfill (s : State) (d : Nat) : Nat × Option Nat :=
  let w := s.reg d 0x0B8
  ((s.reg d 0x0B0).toNat + (w.toNat / 8 * 8) * 2 ^ 64, (walkLevels.find? fun l => l.1 == wbits w 2 0).map fun l => l.2.1)

/-- The translation that the host has supplied is installed on a core (R443). -/
def State.fillTlb (s : State) (core : Nat) (f : FaultEnt) : State :=
  let d := dieOfCore core
  match s.xlfill d with
  | (e, some sh) =>
    let lv := ((walkLevels.find? fun l => l.2.1 == sh).map (·.1)).getD 0
    if !e.testBit 0 ∨ !e.testBit 1 ∨ s.malformed d lv sh e then s
    else s.tlbInstall core (Tlb.ofLeaf f.asid f.gen f.va noLeaf e sh) e
  | _ => s

/-- The splits of a die that wait on an entry: group and split. -/
def State.waiters (s : State) (d k : Nat) : List (Nat × Nat) :=
  s.groups.flatMap fun g => if dieOfCore g.2.cx.core ≠ d then [] else
    (g.2.splits.filter fun p => match p.2.st with | .faulted _ es .. => es.contains k | _ => false).map fun p => (g.1, p.1)

/-- FLTDONE (R334): the verdict on an entry that is pending. After the migration of a HOST page the retries are an acquire (R328, R430). -/
def State.faultDone (s : State) (d : Nat) (v : Word) : State :=
  let k := wbits v 31 0
  let verdict := wbits v 33 32
  match (s.die d).faults.find? k with
  | none => s
  | some f =>
    if verdict = 3 then s
    else
      let s := s.modDie d fun x => { x with faults := x.faults.erase k }
      let ws := s.waiters d k
      let cores := (List.range 64).map fun c => 64 * d + c
      let waits (c : Nat) : Bool := (ws.any fun w => (s.group w.1).cx.core == c)
        || (s.core c).ladle.any (fun m => m.2.blocked.any fun b => b.2.1 == k)
        || (s.die d).riddle.any (fun r => r.2.core == c && r.2.blocked.any fun b => b.1 == k)
      let s := if verdict = 0 ∧ f.reason = 2 then (cores.filter waits).foldl (fun s c => s.acquireAt c .die) s else s
      let s := if verdict = 0 ∧ f.reason = 3 then (cores.filter waits).foldl (fun s c => s.fillTlb c f) s else s
      let s := ws.foldl (fun s w =>
        let c := (s.group w.1).cx.core
        let s := s.modGroup w.1 fun g => { g with eventAt := s.clk }
        (if verdict = 0 then s.modGroup w.1 fun g => g.modSplit w.2 fun p => p.resolve s.clk
         else s.deliverFault w.1 w.2 (if verdict = 1 then 0x10 else 0x17)).wake c 0) s
      (cores.foldl (fun s c => s.ladleVerdict c k (verdict == 0)) s).riddleVerdict d k (verdict == 0)

/-! ### Cache traffic (R309) -/

/-- A cache fetches a line of memory. -/
def State.cacheFetch (s : State) (c : CacheId) (n : Nat) : State :=
  if s.isMemory (64 * n) 64 && s.memReady (64 * n) then s.fetchLine c n else s

/-! ### Storage errors (R221, R222, R280, R300, R336) -/

/-- Marks a word of a line poisoned. -/
def State.poisonLine (s : State) (c : CacheId) (n w : Nat) : State :=
  let l := s.line c n
  s.setLine c n { l with pois := l.pois ||| (1#8 <<< w) }

/-- The bytes of a word of a line. -/
def wordMask (w : Nat) : BitVec 64 := 0xFF#64 <<< (8 * w)

/-- An uncorrectable error in words of a line of a cache: a clean line is dropped; dirty words go to memory poisoned (R221, R300). -/
def State.cacheError (s : State) (c : CacheId) (n : Nat) (ws : List Nat) : State :=
  (ws.foldl (fun s w =>
    if (s.line c n).wordDirty w then
      let s := (s.poisonLine c n w).writeBack c n (wordMask w)
      match c with | .l1 k => s.writeBack (.cc (clusterOfCore k)) n (wordMask w) | _ => s
    else s) s).dropLine c n

/-- A granule of a kind that a block holds, which the part does not show (R200; log 5). -/
def State.someGranule (s : State) (b : Block) (first count : Nat) : Nat :=
  b.granules.getD (first + (Config.freeWord s.tick 8192 0).toNat % max count 1) 0

/-- Whether the host classifies the errors of a die (R443). -/
def State.hostClasses (s : State) (d : Nat) : Bool := (s.die d).mode.getLsbD 6

/-- Logs a verdict: 0 corrected, 1 transient, 2 lasting and spared, 3 lasting and retired (R442); the die gives none where the host does (R443). -/
def State.verdict (s : State) (d unit v : Nat) : State := if s.hostClasses d then s else s.logErr d ⟨0x442, unit, v, 0, 0, []⟩

/-- The lines that a set of a cluster cache holds (R286). -/
def State.setLines (s : State) (k set : Nat) : List Nat := ((s.cluster k).cc.filter fun p => ccSet p.1 == set).map (·.1)

/-- The dirty lines of a set go to memory, before its test (R301). -/
def State.cleanSet (s : State) (k set : Nat) : State :=
  (s.setLines k set).foldl (fun s n => s.writeBack (.cc k) n (BitVec.allOnes 64)) s

/-- A set of a cluster cache is retired: its dirty lines go to memory and it holds nothing (R301). -/
def State.retireSet (s : State) (k set : Nat) : State :=
  let s := (s.setLines k set).foldl (fun s n => s.dropLine (.cc k) n) (s.cleanSet k set)
  s.modCluster k fun c => { c with setsRet := if c.setsRet.contains set then c.setsRet else c.setsRet ++ [set], suspect := c.suspect.filter (· != set) }

/-- A cluster is retired (R302): its drain reservation is released, and its blocks are to be pre-empted. -/
def State.retireCluster (s : State) (k : Nat) : State :=
  (s.modCluster k fun c => { c with retired := true, reserved := none }).ask fun _ b => clusterOfCore b.core == k

/-- A core is retired (R224): its blocks are to be pre-empted, its mailboxes are emptied; the last core of a cluster retires the cluster. -/
def State.retireCore (s : State) (c : Nat) : State :=
  let s := (s.modCore c fun k => { k with retired := true, mbox := [] }).ask fun _ b => b.core == c
  if (coresOf (clusterOfCore c)).all fun k => (s.core k).retired then s.retireCluster (clusterOfCore c) else s

/-- The name under which a row of the LLC waits for its test: whether it is one of near memory goes with it. -/
def llcName (row : Nat) (near : Bool) : Nat := 2 * row + near.toNat

/-- A port is retired (R468). -/
def State.retirePort (s : State) (p : Nat) : State := s.setReg (portReg p).1 (portReg p).2 (s.reg (portReg p).1 (portReg p).2 ||| 8)

/-- The units of a die that are suspect after an uncorrectable error, and wait for a verdict (R222, R301, R338, R442, R468). -/
def State.suspectUnits (s : State) (d : Nat) : List TestUnit :=
  (s.cores.filter fun c => dieOfCore c.1 == d).flatMap (fun c => c.2.suspect.map (TestUnit.granule c.1) ++ if c.2.doubted then [.core c.1] else [])
  ++ (s.clusters.filter fun k => k.1 / 8 == d).flatMap (fun k => k.2.suspect.map (TestUnit.clusterSet k.1))
  ++ (s.die d).llcSuspect.map (fun n => .llcRow d (n / 2)) ++ (s.die d).memSuspect.map (TestUnit.memoryRow d) ++ (s.die d).portSuspect.map TestUnit.port

/-- The die that logs a unit's verdict, and the unit's number. -/
def testPlace (u : TestUnit) : Nat × Nat :=
  match u with
  | .granule c g => (dieOfCore c, g)
  | .core c => (dieOfCore c, c)
  | .clusterSet k set => (k / 8, set)
  | .clusterFabric k => (k / 8, k)
  | .llcRow d row | .memoryRow d row => (d, row)
  | .port p => ((portReg p).1, p)

/-- A verdict ends the suspicion of a unit, and 3, lasting and retired, takes it out of use: a granule, a core, a set of a cluster cache, of which
more than 2,048 retire the cluster, a cluster, a row of the LLC's cache part, or a port. A row of near memory or LPDDR-5X stays, and the die is marked for
draining (R222, R224, R301, R302, R338, R468). -/
def State.settleUnit (s : State) (u : TestUnit) (v : Nat) : State :=
  match u with
  | .granule c g =>
    s.modCore c fun k => { k with suspect := k.suspect.filter (· != g), poolret := if v = 3 then k.poolret ||| (1#64 <<< g) else k.poolret }
  | .core c =>
    let s := if (s.core c).doubted then s.modCore c fun k => { k with doubted := false } else s
    if v = 3 then s.retireCore c else s
  | .clusterSet k set =>
    let s := (s.cleanSet k set).modCluster k fun c => { c with suspect := c.suspect.filter (· != set) }
    if v ≠ 3 then s
    else
      let s := s.retireSet k set
      if 2048 < (s.cluster k).setsRet.length then s.retireCluster k else s
  | .clusterFabric k => if v = 3 then s.retireCluster k else s
  | .llcRow d row =>
    let near := (s.die d).llcSuspect.contains (llcName row true)
    let s := s.modDie d fun x => { x with llcSuspect := x.llcSuspect.filter (· != llcName row near) }
    if v ≠ 3 then s
    else if near then s.setDrain d true
    else s.modDie d fun x => { x with rowsRet := if x.rowsRet.contains row then x.rowsRet else x.rowsRet ++ [row] }
  | .memoryRow d row =>
    let s := s.modDie d fun x => { x with memSuspect := x.memSuspect.filter (· != row) }
    if v = 3 then s.setDrain d true else s
  | .port p =>
    let s := s.modDie (portReg p).1 fun x => { x with portSuspect := x.portSuspect.filter (· != p) }
    if v = 3 then s.retirePort p else s

/-- The verdict of a test, or of a second error before it: a lasting fault of a row is spared while a spare row is left, which the part does not show
(R338, R442; log 98). -/
def State.testVerdict (s : State) (u : TestUnit) (pass : Bool) : Nat :=
  if pass then 1
  else match u with
    | .llcRow _ row | .memoryRow _ row => if Config.freeBool s.tick 8193 row then 2 else 3
    | _ => 3

/-- A unit has its verdict, which is logged (R442). -/
def State.conclude (s : State) (u : TestUnit) (pass : Bool) : State :=
  let v := s.testVerdict u pass
  (s.settleUnit u v).verdict (testPlace u).1 (testPlace u).2 v

/-- A second uncorrectable error in a unit before its test makes the fault lasting, where the die itself classifies (R222, R301, R338, R443, R468). -/
def State.secondError (s : State) (u : TestUnit) : State := if s.hostClasses (testPlace u).1 then s else s.conclude u false

/-- A granule is suspect after an uncorrectable error in it (R222). -/
def State.suspectGranule (s : State) (core g : Nat) : State :=
  if (s.core core).suspect.contains g then s.secondError (.granule core g)
  else s.modCore core fun k => { k with suspect := k.suspect ++ [g] }

/-- A core is to be tested after an uncorrectable error in its storage outside the pool (R442; log 98). -/
def State.doubtCore (s : State) (core : Nat) : State := s.modCore core fun k => { k with doubted := true }

/-- A set of a cluster cache is suspect after an uncorrectable error (R301). -/
def State.suspectSet (s : State) (k set : Nat) : State :=
  if (s.cluster k).suspect.contains set then s.secondError (.clusterSet k set)
  else s.modCluster k fun c => { c with suspect := c.suspect ++ [set] }

/-- The set of the cluster cache whose lehr line holds a parked group's word that an error strikes: the part does not show it (log 98). -/
def State.lehrSet (s : State) : Nat := (Config.freeWord s.tick 8192 1).toNat % 8192

/-- The storage that holds a word of a group's registers or tiles is suspect: a granule of its kind of its block's, or a set of the lehr for a
group that is parked (R222, R301). -/
def State.suspectFor (s : State) (gid : Nat) (kind : Parts → Nat × Nat) : State :=
  let g := s.group gid
  let b := s.block g.cx.blk
  let (first, count) := kind (s.launch b.launch).parts
  if g.resident then s.suspectGranule g.cx.core (s.someGranule b first count)
  else s.suspectSet (clusterOfCore g.cx.core) s.lehrSet

/-- A row is suspect after an uncorrectable error in it (R338). -/
def State.suspectRow (s : State) (a : Nat) (llc : Bool) : State :=
  let d := dieOfPa a
  if llc then
    let name := llcName (Config.llcRow a) (s.regionOf a == .near)
    if (s.die d).llcSuspect.contains name then s.secondError (.llcRow d (Config.llcRow a))
    else s.modDie d fun x => { x with llcSuspect := x.llcSuspect ++ [name] }
  else
    let row := Config.memRow a
    if (s.die d).memSuspect.contains row then s.secondError (.memoryRow d row)
    else s.modDie d fun x => { x with memSuspect := x.memSuspect ++ [row] }

/-- A port's error: its self-test begins (R468). -/
def State.suspectPort (s : State) (p : Nat) : State :=
  let d := (portReg p).1
  if (s.die d).portSuspect.contains p then s.secondError (.port p)
  else s.modDie d fun x => { x with portSuspect := x.portSuspect ++ [p] }

/-- The effect of an uncorrectable error in a unit (R67, R221, R280, R300, R336, R468). -/
def State.fatalError (s : State) (u : StorageUnit) : State :=
  match u with
  | .vecHalf g lane reg hi =>
    (s.modGroup g fun x => { x with vpois := x.vpois.insert (2 * vkey reg lane + hi.toNat) false }).suspectFor g fun p => (0, p.v)
  | .uniHalf g reg hi => (s.modGroup g fun x => { x with upois := x.upois.insert (2 * reg + hi.toNat) false }).suspectFor g fun p => (p.v, p.s)
  | .tileElem g t r c =>
    (s.modGroup g fun x => { x with mpois := x.mpois.insert (mkey t r c) false }).suspectFor g fun p => (p.v + p.s + p.p, p.a)
  | .scratchWord b a =>
    let x := s.block b
    let p := (s.launch x.launch).parts
    (s.modBlock b fun x => x.poison (a / 8 * 8) 8).suspectGranule x.core (s.someGranule x (p.v + p.s) p.p)
  | .mailboxEntry c m k =>
    let x := (s.core c).box m
    let y : Mbox := { x with items := x.items.modify k fun e => (e.1, true) }
    (if x.items.isEmpty then s else s.modCore c fun q => { q with mbox := q.mbox.insert m y }).doubtCore c
  | .l1Word c a => (s.cacheError (.l1 c) (a / 64) [a / 8 % 8]).doubtCore c
  | .icacheWord c a => (s.dropLine (.ic c) (a / 64)).doubtCore c
  | .shadowWord g t r c =>
    (s.modGroup g fun x => { x with mpois := (x.mpois.insert (poisKey true t r (c / 2 * 2)) true).insert (poisKey true t r (c / 2 * 2 + 1)) true }).suspectFor
      g fun p => (p.v + p.s + p.p + p.a, p.h)
  | .clusterWord k a => (s.cacheError (.cc k) (a / 64) [a / 8 % 8]).suspectSet k (ccSet (a / 64))
  | .clusterTag k a => (s.cacheError (.cc k) (a / 64) (List.range 8)).suspectSet k (ccSet (a / 64))
  | .llcWord a => (s.homePoison a).suspectRow a true
  | .memoryWord a => (s.homePoison a).suspectRow a false
  | .port p => s.suspectPort p

/-- The die that logs an error in a unit. -/
def State.unitDie (s : State) (u : StorageUnit) : Nat :=
  match u with
  | .vecHalf g .. | .uniHalf g .. | .tileElem g .. | .shadowWord g .. => dieOfCore (s.group g).cx.core
  | .scratchWord b _ => dieOfCore (s.block b).core
  | .mailboxEntry c .. | .l1Word c _ | .icacheWord c _ => dieOfCore c
  | .clusterWord k _ | .clusterTag k _ => k / 8
  | .llcWord a | .memoryWord a => dieOfPa a
  | .port p => (portReg p).1

/-- Where an error stands in a unit, as it is logged: the core, the unit and the position (R221); the cluster, the bank, the set and the way
(R300), also of a parked group's lehr, of which the part chooses the way, and the lehr's set; the die, the slice or controller, and the address (R336). -/
def State.unitPlace (s : State) (u : StorageUnit) : List Nat :=
  let way (a : Nat) : Nat := (Config.freeWord s.tick 8194 (a / 64)).toNat % 16
  let held (g : Nat) : List Nat :=
    let c := (s.group g).cx.core
    if (s.group g).resident then [c] else [clusterOfCore c, s.lehrSet % 8, s.lehrSet, way (64 * s.lehrSet)]
  match u with
  | .vecHalf g lane reg hi => held g ++ [0, g, reg, lane, hi.toNat]
  | .uniHalf g reg hi => held g ++ [1, g, reg, hi.toNat]
  | .tileElem g t r c => held g ++ [2, g, t, r, c]
  | .shadowWord g t r c => held g ++ [3, g, t, r, c]
  | .scratchWord b a => [(s.block b).core, 4, b, a]
  | .mailboxEntry c m k => [c, 5, m, k]
  | .l1Word c a => [c, 6, a]
  | .icacheWord c a => [c, 7, a]
  | .clusterWord k a => [k, 8, a / 64 % 8, ccSet (a / 64), way a]
  | .clusterTag k a => [k, 9, a / 64 % 8, ccSet (a / 64), way a]
  | .llcWord a => [dieOfPa a, 10, homeSlice a, a]
  | .memoryWord a => [dieOfPa a, 11, a / 256 % 2, a]
  | .port p => [(portReg p).1, 12, p]

/-- SOFT_ERROR: corrected, with verdict 0, or with the effect of its unit; logged either way (R221, R442). A word of the instruction cache has
parity alone: it is fetched again (R221). -/
def State.storageError (s : State) (u : StorageUnit) (fatal : Bool) : State :=
  let d := s.unitDie u
  let s := s.logErr d ⟨0x221, if fatal then 1 else 0, 0, 0, 0, s.unitPlace u⟩
  if fatal then s.fatalError u
  else match u with
    | .icacheWord c a => (s.dropLine (.ic c) (a / 64)).verdict d 0 0
    | _ => s.verdict d 0 0

/-! ### Self-tests (R222, R224, R301, R302, R338, R442, R468) -/

/-- Whether a unit is to be tested: a suspect granule when it is next free, a suspect set, row or port; a core, or a cluster's crossbar and barrier
unit, at any time (log 98). -/
def State.testable (s : State) (u : TestUnit) : Bool :=
  match u with
  | .granule c g => (s.core c).suspect.contains g && !(s.blocksOn c).any fun b => b.2.granules.contains g
  | .core _ | .clusterFabric _ => true
  | .clusterSet k set => (s.cluster k).suspect.contains set
  | .llcRow d row => (s.die d).llcSuspect.contains (llcName row true) || (s.die d).llcSuspect.contains (llcName row false)
  | .memoryRow d row => (s.die d).memSuspect.contains row
  | .port p => (s.die (portReg p).1).portSuspect.contains p

/-- SELF_TEST: the verdict of a targeted test. No test runs in host-assisted classification (R443). -/
def State.selfTest (s : State) (u : TestUnit) (pass : Bool) : State :=
  if s.hostClasses (testPlace u).1 || !s.testable u then s else s.conclude u pass

/-- THERMAL_STEP (R444): the core clock falls or rises by 0.25 GHz between 2.0 and 4.0 GHz; only time changes. -/
def State.thermal (s : State) (d : Nat) (up : Bool) : State :=
  s.modDie d fun x => { x with clock := if up then min 16 (x.clock + 1) else max 8 (x.clock - 1) }

/-! ### Meanings -/

/-- TRAP_ENTRY (R191). -/
def execTrapEntry (g e : Nat) (s : State) : Host.Outcome State Fault Refusal := .next (s.trapTurn g e)
/-- SPLIT_MERGE (R62). -/
def execSplitMerge (g e f : Nat) (s : State) : Host.Outcome State Fault Refusal := .next (s.mergeSplits g e f)
/-- SPLIT_PROMOTION (R198). -/
def execSplitPromotion (g e : Nat) (s : State) : Host.Outcome State Fault Refusal := .next (s.promote g e)
/-- RCVW_TIMEOUT (R177). -/
def execRcvwTimeout (g e : Nat) (s : State) : Host.Outcome State Fault Refusal :=
  .next (s.endWait g e fun w => match w with | .rcv .. => s.expired w | _ => false)
/-- SLEEP_EXPIRY (R242). -/
def execSleepExpiry (g e : Nat) (s : State) : Host.Outcome State Fault Refusal :=
  .next (s.endWait g e fun w => match w with | .sleep .. => s.expired w | _ => false)
/-- WAITA_TIMEOUT (R412). -/
def execWaitaTimeout (g e : Nat) (s : State) : Host.Outcome State Fault Refusal :=
  .next (s.endWait g e fun w => match w with | .line .. => s.expired w | _ => false)
/-- LOAD_COMPLETION (R228). -/
def execLoadCompletion (g k : Nat) (s : State) : Host.Outcome State Fault Refusal := .next (s.completeLoad g k)
/-- CAST_WINDOW_MESSAGE (R295). -/
def execCastWindowMessage (g k j : Nat) (s : State) : Host.Outcome State Fault Refusal := .next (s.windowMessage g k j)
/-- CAST_WINDOW_REPLY (R294). -/
def execCastWindowReply (g k j : Nat) (s : State) : Host.Outcome State Fault Refusal := .next (s.windowReply g k j)
/-- MAILBOX_OPERATION (R215). -/
def execMailboxOperation (core m : Nat) (s : State) : Host.Outcome State Fault Refusal := .next (s.mailStep core m)
/-- PAGE_WALK (R324). -/
def execPageWalk (core asid va : Nat) (s : State) : Host.Outcome State Fault Refusal := .next (s.walkEvent core asid va)
/-- STALE_ACCESS_RETRY (R325). -/
def execStaleAccessRetry (core asid va : Nat) (s : State) : Host.Outcome State Fault Refusal := .next (s.staleRetry core asid va)
/-- FAULT_QUEUE_APPEND (R332). -/
def execFaultQueueAppend (die k : Nat) (s : State) : Host.Outcome State Fault Refusal := .next (s.appendAgain die k)
/-- FLTDONE_WRITE (R334). -/
def execFltdoneWrite (die : Nat) (v : Word) (s : State) : Host.Outcome State Fault Refusal := .next (if die < 24 then s.faultDone die v else s)
/-- CACHE_LINE_FETCH (R309). -/
def execCacheLineFetch (c : CacheId) (line : Nat) (s : State) : Host.Outcome State Fault Refusal := .next (s.cacheFetch c line)
/-- CACHE_LINE_DROP (R309). -/
def execCacheLineDrop (c : CacheId) (line : Nat) (s : State) : Host.Outcome State Fault Refusal := .next (s.dropLine c line)
/-- CACHE_WRITE_BACK (R309): of one dirty byte, with the bytes that the same store wrote in its word (R315). -/
def execCacheWriteBack (c : CacheId) (byte : Nat) (s : State) : Host.Outcome State Fault Refusal :=
  .next (s.writeBack c (byte / 64) ((s.line c (byte / 64)).unit (byte % 64)))
/-- FIXED_LATENCY_RESULT (R185). -/
def execFixedLatencyResult (g k : Nat) (s : State) : Host.Outcome State Fault Refusal := .next (s.landLate g k)
/-- SOFT_ERROR (R221). -/
def execSoftError (u : StorageUnit) (fatal : Bool) (s : State) : Host.Outcome State Fault Refusal := .next (s.storageError u fatal)
/-- SCRUB (R336): a single-bit error is corrected and logged. -/
def execScrub (addr : Nat) (s : State) : Host.Outcome State Fault Refusal := .next (s.storageError (.memoryWord addr) false)
/-- SELF_TEST (R442). -/
def execSelfTest (u : TestUnit) (pass : Bool) (s : State) : Host.Outcome State Fault Refusal := .next (s.selfTest u pass)
/-- THERMAL_STEP (R444). -/
def execThermalStep (die : Nat) (up : Bool) (s : State) : Host.Outcome State Fault Refusal := .next (s.thermal die up)

end Sys2Proof.Machine
end

