-- ==== Sys2Proof/Machine/Storage.lean ====
section
/-! DEFINITION. Direct storage: SLOAD and SSTORE, the submission rings, and completions (spec/15_package_host_and_service.md R434 to R437). The
layouts of submission and completion entries are those of NVMe Base Specification 2.0, which R434 names (log 31). -/

namespace Sys2Proof.Machine

/-! ### Queue pairs (R434, R437) -/

/-- The die that serves a pair, and the pair's number there. -/
def pairDie (q : Nat) : Nat × Nat := if q < 64 then (0, q) else (23, q % 64)
/-- The PCIe endpoint of a die. -/
def endpointOf (d : Nat) : Nat := if d = 23 then 1 else 0
/-- SQCFG of a pair. -/
def State.sqcfg (s : State) (q : Nat) : Word := s.reg (pairDie q).1 (0x600 + 16 * (pairDie q).2)
/-- The bus address of a pair's submission doorbell. -/
def State.sqdb (s : State) (q : Nat) : Nat := (s.reg (pairDie q).1 (0x608 + 16 * (pairDie q).2)).toNat
/-- A pair. -/
def State.nvPair (s : State) (q : Nat) : NvPair := ((s.die (pairDie q).1).nvme.find? (pairDie q).2).getD NvPair.reset
/-- Changes a pair. -/
def State.setPair (s : State) (q : Nat) (p : NvPair) : State := s.modDie (pairDie q).1 fun d => { d with nvme := d.nvme.insert (pairDie q).2 p }
/-- The entries of a pair's rings. -/
def sqDepth (c : Word) : Nat := 2 ^ (wbits c 7 4 + 4)
/-- The submission ring. -/
def sqBase (c : Word) : Nat := wbits c 43 12 * 4096
/-- The bytes of a logical block. -/
def lbaBytes (c : Word) : Nat := 512 * 2 ^ wbits c 9 8
/-- The address of the completion entry at the head. -/
def State.cqHead (s : State) (q : Nat) : Nat := sqBase (s.sqcfg q) + 64 * sqDepth (s.sqcfg q) + 16 * (s.nvPair q).chead

/-- A command identifier that no outstanding command has; which of them, the spec leaves open (log 5). -/
def State.commandId (s : State) (p : NvPair) : Nat :=
  let f := (Config.freeWord s.tick 8194 0).toNat
  (((List.range 65536).map fun k => (f + k) % 65536).find? fun i => (p.cmds.find? i).isNone).getD 0

/-- The package physical address at which the aperture of an endpoint begins (R428). -/
def State.apertureBase (s : State) (e : Nat) : Nat := wbits (s.reg (if e = 0 then 0 else 23) 0x0E0) 43 30 * 2 ^ 30

/-- The bus address through which an endpoint's BAR2 reaches a package physical address (R428, R434). -/
def State.busAddr (s : State) (e pa : Nat) : Word := Config.bar2 e + BitVec.ofNat 64 pa - BitVec.ofNat 64 (s.apertureBase e)

/-- The PRP entries of a buffer: the bus addresses of its pages (R436). -/
def State.prpOf (s : State) (e : Nat) (pages : List Nat) : List Word := pages.map fun pa => s.busAddr e (paOf pa)

/-- The address of the PRP list of a command of a pair (log 31). -/
def prpListAt (q id : Nat) : Nat := Config.prpPage q id * 4096

/-- The two data pointers of a submission entry (log 31): the first page, and the second, or, where there are more, the PRP list's address. -/
def State.dataPointers (s : State) (q id : Nat) (prps : List Word) : Word × Word :=
  (prps.headD 0, if prps.length ≤ 2 then prps.getD 1 0 else s.busAddr (endpointOf (pairDie q).1) (prpListAt q id))

/-- The PRP list that holds a word of device memory, as an SSD reads it through BAR2 while its command is outstanding (R434, R436): the pages of the
buffer from the second on. -/
def State.prpWord (s : State) (pa : Nat) : Option Word :=
  (List.range 128).findSome? fun q => (s.nvPair q).cmds.findSome? fun c =>
    let list := prpListAt q c.1
    if c.2.pages.length ≤ 2 ∨ pa < list then none
    else ((s.prpOf (endpointOf (pairDie q).1) c.2.pages)[1 + (pa - list) / 8]?)

/-- A submission entry: opcode, identifier, namespace, data pointers, start and count. -/
def State.submission (s : State) (q : Nat) (write : Bool) (id nsid : Nat) (prps : List Word) (lba : Word) (nlb : Nat) : List Byte :=
  let (p1, p2) := s.dataPointers q id prps
  bytesOf 4 ((if write then 1 else 2) + id * 65536) ++ bytesOf 4 nsid ++ bytesOf 16 0
  ++ bytesOf 8 p1.toNat ++ bytesOf 8 p2.toNat ++ bytesOf 8 lba.toNat ++ bytesOf 4 nlb ++ bytesOf 12 0

/-- The pair's answer to a command (R436): refused, or submitted with its PRP list, whose pages the command keeps, and its doorbell rung. While the
ring's memory is not served it waits (R438). -/
def State.submit (s : State) (d : UReg) (q : Nat) (cmd : NvCmd) (nsid : Nat) (lba : Word) (nlb : Nat) : State :=
  let c := s.sqcfg q
  let p := s.nvPair q
  if !c.getLsbD 0 ∨ sqDepth c ≤ p.cmds.length + 1 then s.writeSc false
  else if !s.memReady (sqBase c) then s.holdReady
  else
    let id := s.commandId p
    let tail := (p.tail + 1) % sqDepth c
    let s := s.homeWrite (sqBase c + 64 * p.tail) (s.submission q cmd.write id nsid (s.prpOf (endpointOf (pairDie q).1) cmd.pages) lba nlb)
    let s := s.setPair q { p with tail := tail, cmds := p.cmds.insert id cmd }
    let s := { s with hostMsgs := s.hostMsgs ++ [HostMsg.write (endpointOf (pairDie q).1) (s.sqdb q) (BitVec.ofNat 64 tail)] }
    (s.writeU d.toNat (BitVec.ofNat 64 id) 0).writeSc true

/-! ### SLOAD and SSTORE (R435, R436) -/

/-- The pages that SLOAD and SSTORE admit. -/
def bufferKind (write : Bool) (t : Tlb) : Bool := t.kind = kPrivate || t.kind = kShared || (write && t.kind = kImmutable)

/-- Translates every page of a buffer; their global addresses go on. -/
def State.bufferPages (s : State) (write : Bool) (k : State → List Nat → State) : List Nat → List Nat → State
  | [], acc => k s acc
  | va :: rest, acc => s.uniformVa (BitVec.ofNat 64 va) 4096 (if write then .load else .store) (bufferKind write) fun s pa _ _ =>
      State.bufferPages s write k rest (acc ++ [pa])

/-- SLOAD, or SSTORE where `write`: its checks, then the answer of the pair's die. SSTORE first releases the group's accesses. -/
def State.storageOp (s : State) (o : Storage) (write : Bool) : State :=
  s.guarded s.cur.mask ([rdU o.a, rdU (o.a + 1), rdU (o.a + 2), wrU o.d, wrSc] ++ bindUses o.b) fun s =>
    let q := o.q.toNat
    let va := s.readU o.a.toNat
    let lba := s.readU (o.a + 1).toNat
    let w := s.readU (o.a + 2).toNat
    let nlb := wbits w 15 0
    let len := (nlb + 1) * lbaBytes (s.sqcfg q)
    let b := s.binding o.b
    if wbits va 63 56 ≠ 0 ∨ wbits w 31 16 ≠ 0 ∨ 2 ^ 21 < len then s.trapExec 0x1B 0x8000000000000040
    else if va.toNat % 4096 ≠ 0 then s.trapExec 0x13 va
    else if !b.wf then s.trapExec 0x13 b.lineVa
    else
      let pages := (List.range ((len + 4095) / 4096)).map fun k => va.toNat + 4096 * k
      State.bufferPages s write (fun s bufs =>
        s.uniformVa b.lineVa 64 .store sharedOrFabric fun s line _ _ =>
          if write && !s.grp.performedBefore s.uid true then s.holdReady
          else
            let s := if write then s.releaseAt s.curCore .die else s
            let g := s.grp
            s.submit o.d q ⟨write, s.cur.gid, g.cx.pourid.toNat, g.cx.grpid.toNat, bufs.headD 0, b.lineVa.toNat, line, b.base, b.sig, g.cx.asid, bufs⟩
              (wbits w 63 32) lba nlb) pages []

/-! ### Completions (R437) -/

/-- The entry at a pair's completion head is evaluated; one with the expected phase tag is taken, and its command's arrival is contributed. -/
def State.evalCompletion (s : State) (q : Nat) : State :=
  let c := s.sqcfg q
  let p := s.nvPair q
  let e := s.homeN (s.cqHead q) 16
  if !c.getLsbD 0 ∨ e.testBit 112 ≠ p.phase then s
  else
    let head := (p.chead + 1) % sqDepth c
    let id := bits e 111 96
    let s := s.setPair q { p with chead := head, phase := if head = 0 then !p.phase else p.phase, cmds := p.cmds.erase id }
    let d := (pairDie q).1
    let s := { s with hostMsgs := s.hostMsgs ++ [HostMsg.write (endpointOf d) (s.sqdb q + 4) (BitVec.ofNat 64 head)] }
    match p.cmds.find? id with
    | none => s
    | some m =>
      let op := if m.write then 0xC6 else 0xC5
      let bad := bits e 127 113 != 0
      let k := { blankPacket op 0 (some d) none m.asid (astGen (s.astEntry d m.asid.toNat)) (some m.lineVa) m.line [] with
        pour := m.pour, grp := m.grp, lineVa := some m.lineVa, line := some m.line, idx := m.idx, sig := m.sig, tag := tagOf op 0 m.buf []
        aux := if bad then [1] else [] }
      let s := if bad then s.recordRemote { k with gid := some m.gid, target := m.buf } 0x19 6 else s
      (s.send k).1

/-- The entries of a pair that a write of a range of memory holds from the head on are evaluated in turn, until one is not taken: at most so many. -/
def State.evalPair (q pa n : Nat) : Nat → State → State
  | 0, s => s
  | k + 1, s =>
    if s.cqHead q + 16 ≤ pa ∨ pa + n ≤ s.cqHead q then s
    else
      let t := s.evalCompletion q
      if (t.nvPair q).chead = (s.nvPair q).chead then t else State.evalPair q pa n k t

/-- The pairs whose completion head lies in a range of memory are evaluated after a write of it. -/
def State.evalPairs (s : State) (pa n : Nat) : State := (List.range 128).foldl (fun s q => State.evalPair q pa n (n / 16 + 2) s) s

/-- NVME_COMPLETION: the SSD writes the entry at the head of a pair's completion ring, through the link of the pair's endpoint (R426). -/
def State.completionWrite (s : State) (q : Nat) (e : BitVec 128) : State :=
  let a := s.cqHead q
  if 128 ≤ q ∨ !s.links.contains (endpointOf (pairDie q).1) ∨ !s.isMemory a 16 ∨ !s.memReady a then s else (s.homeWrite a (bytesOf 16 e.toNat)).evalCompletion q

/-! ### Meanings -/

/-- SLOAD (R436). -/
def execSload (o : Storage) (s : State) : Host.Outcome State Fault Refusal := .next (s.storageOp o false)
/-- SSTORE (R436). -/
def execSstore (o : Storage) (s : State) : Host.Outcome State Fault Refusal := .next (s.storageOp o true)
/-- NVME_COMPLETION (R437). -/
def execNvmeCompletion (pair : Nat) (entry : BitVec 128) (s : State) : Host.Outcome State Fault Refusal := .next (s.completionWrite pair entry)

end Sys2Proof.Machine
end

