-- ==== Sys2Proof/Machine/Mmio.lean ====
section
/-! DEFINITION. The MMIO region of a die and its registers, DEVICE accesses, and what the host does through them
(spec/11_die_memory_model_and_translation.md R306, R307, R316, R317, R326, R332, R334; spec/07_core_issue_pool_and_mailboxes.md R217, R223;
spec/10_cluster_and_casts.md R287, R288; spec/12_die_launch_and_preemption.md R344, R355; spec/13_retrieval_tables.md R362;
spec/14_package_remote_operations.md R416; spec/15_package_host_and_service.md R426 to R443; spec/16_fabric_collectives_and_checkpoint.md R447,
R452). -/

namespace Sys2Proof.Machine

/-! ### Reading (R307) -/

/-- Whether a die holds the registers of the endpoints and of the dispatcher. -/
def hostDie (d : Nat) : Bool := d == 0 || d == 23

/-- Whether a die has fabric ports (R445). -/
def portDie (d : Nat) : Bool := (List.range 16).any fun k => (portReg (2 * k)).1 == d

/-- Whether a block is placed on a die and has not ended. -/
def State.placedOn (s : State) (d : Nat) : Bool := s.blocks.any fun b => dieOfCore b.2.core == d && s.blockLive b.2

/-- Whether a pre-emption requested at a die is in progress (R355). -/
def State.preemptBusy (s : State) (d : Nat) : Bool := (s.die d).preempting.any fun b => (s.blocks.find? b).any s.blockLive

/-- DRAINED of a die (R439): its draining has left no block placed on it. It is 0 at reset, when nothing drains (log 116). -/
def State.drained (s : State) (d : Nat) : Bool := s.draining d && !s.placedOn d

/-- Whether the port of a die whose register stands at an offset is under self-test: WD is held at 1 (R468). -/
def State.portTested (s : State) (d o : Nat) : Bool := (s.die d).portSuspect.any fun p => portReg p == (d, o)

/-- The watch register at an offset: at die 0, and mirrored at die 23 while die 0 is drained (R432). -/
def State.watchReg (s : State) (d off : Nat) : Option Nat := if d = s.watchDie ∨ d = 0 then some off else none

/-- One bit of a word. -/
def bit64 (b : Bool) (k : Nat) : Word := if b then 1#64 <<< k else 0

/-- A register of the controller block as it reads. -/
def State.readCtl (s : State) (d o : Nat) : Word :=
  if o = 0x008 then bit64 (s.die d).genset.isSome 32
  else if o = 0x030 then s.reg d o ||| bit64 (s.preemptBusy d) 33
  else if o = 0x038 then bit64 (s.die d).hflush.isSome 32
  else if 0x040 ≤ o ∧ o < 0x080 then s.hslot d ((o - 0x040) / 8)
  else if o = 0x088 then BitVec.ofNat 64 s.level
  else if o = 0x090 then s.reg d o ||| bit64 (s.drained d) 4
  else if o = 0x0A0 then s.reg d o ||| ((s.die d).pend.setWidth 64 <<< 16)
  else if o = 0x0C0 then (match s.pending d with | w :: _ => (s.launch w.launch).pourid.setWidth 64 | [] => 0)
  else if 0x1000 ≤ o ∧ o < 0x3000 then (match s.watchReg d o with | some k => s.reg s.watchDie k | none => 0)
  else if o = 0x3000 ∨ o = 0x3008 then s.reg d o ||| bit64 (s.portTested d o) 1
  else s.reg d o

/-- CLSTAT of a cluster (R288). -/
def State.clstat (s : State) (k : Nat) : Word :=
  let c := s.cluster k
  let cores := (List.range 8).foldl (fun m i => if (s.core (8 * k + i)).retired then m + 2 ^ i else m) 0
  BitVec.ofNat 64 (c.setsRet.length * 2 ^ 32 + cores * 2 ^ 24 + s.lehrUsed k * 2 ^ 8 + (if c.retired then 1 else 0))

/-- A register of a cluster's block as it reads. -/
def State.readCluster (s : State) (k o : Nat) : Word :=
  if o = 0 then bit64 (s.cluster k).lock 8 ||| (s.cluster k).lehrWays.setWidth 64
  else if o = 8 then s.clstat k
  else 0

/-- A mailbox's control register as it reads (R217). -/
def Mbox.control (b : Mbox) : Word := BitVec.ofNat 64 (b.top * 2 ^ 14 + ((b.top + b.items.length) % 64) * 2 ^ 8 + b.items.length)

/-- A register of a core's block as it reads. -/
def State.readCore (s : State) (c o : Nat) : Word :=
  if o = 0 then (s.core c).poolret
  else if 0x100 ≤ o ∧ o < 0x180 then ((s.core c).box ((o - 0x100) / 8)).control
  else 0

/-- The blocks of the MMIO region (R307): controller, cluster, core, LLC slice, reserved; with the offset in the block. -/
inductive MmioAt where
  | ctl (o : Nat)
  | cluster (k o : Nat)
  | core (c o : Nat)
  | slice
  | reserved
deriving DecidableEq, Repr, Inhabited

/-- The block at an offset of a die's MMIO region. -/
def mmioAt (d o : Nat) : MmioAt :=
  if o < 0x10000 then .ctl o
  else if o < 0x18000 then .cluster (8 * d + (o - 0x10000) / 0x1000) (o % 0x1000)
  else if 0x100000 ≤ o ∧ o < 0x140000 then .core (64 * d + (o - 0x100000) / 0x1000) (o % 0x1000)
  else if 0x200000 ≤ o ∧ o < 0x210000 then .slice
  else .reserved

/-- An 8-byte load from the MMIO region of a die (R307); none at an LLC slice's registers, which the spec does not describe. -/
def State.mmioRead (s : State) (d o : Nat) : Option Word :=
  match mmioAt d o with
  | .ctl o => some (s.readCtl d o)
  | .cluster k o => some (s.readCluster k o)
  | .core c o => some (s.readCore c o)
  | .slice => none
  | .reserved => some 0

/-! ### Writes with an effect -/

/-- The bits of a register between two, as a mask. -/
def bitRange (h l : Nat) : Word := BitVec.ofNat 64 ((2 ^ (h + 1 - l) - 1) * 2 ^ l)

/-- Whether 2^sh bytes from an address on meet the near memory of a die (R304, R306). -/
def State.meetsNear (s : State) (d pa sh : Nat) : Bool :=
  dieOfPa pa == d && decide (2 ^ 38 < winOff pa + 2 ^ sh) && decide (winOff pa < 2 ^ 38 + s.nearSz d * 2 ^ 24)

/-- The entries of a table of 16-byte entries that are not zero. -/
def State.entriesAt (s : State) (table count : Nat) : List (Nat × Nat) :=
  (((s.mem.filter fun c => decide (table ≤ c.1) && decide (c.1 < table + 16 * count)).map fun c => (c.1 - table) / 16).eraseDups).map fun i =>
    (i, s.homeN (table + 16 * i) 16)

/-- Whether a leaf under a table that die k walks maps near memory of die d. -/
def State.tableMaps (s : State) (k d : Nat) : List (Nat × Nat × Nat) → Nat → Bool
  | [], _ => false
  | (lv, sh, n) :: rest, table => (s.entriesAt table (2 ^ n)).any fun x =>
    x.2.testBit 0 && !s.malformed k lv sh x.2
      && (if x.2.testBit 1 then bits x.2 7 5 != 5 && s.meetsNear d (bits x.2 43 12 * 4096) sh
          else State.tableMaps s k d rest (bits x.2 43 12 * 4096))

/-- Whether a page maps the near memory of a die (R306): in the tables of some address space, or in a translation that is held. -/
def State.nearMapped (s : State) (d : Nat) : Bool :=
  ((List.range 24).any fun k => (s.reg k 0x000).getLsbD 0 && (s.entriesAt (wbits (s.reg k 0x000) 43 20 * 2 ^ 20) 65536).any fun x =>
    astValid x.2 && s.tableMaps k d walkLevels (bits x.2 43 17 * 2 ^ 17))
  || (s.cores.any fun c => c.2.tlb.any fun t => t.kind != kFabric && s.meetsNear d (t.frame % 2 ^ 44) 12)
  || s.clusters.any fun c => c.2.tlb.any fun t => t.kind != kFabric && s.meetsNear d (t.frame % 2 ^ 44) 12

/-- NEARCFG (R306). -/
def State.writeNear (s : State) (d : Nat) (v : Word) : State :=
  let old := s.reg d 0x010
  let lock := old &&& 0x100 ||| v &&& 0x100
  let ok := !old.getLsbD 8 && decide (wbits v 4 0 ≤ 28) && !s.placedOn d && !s.nearMapped d
  s.setReg d 0x010 (lock ||| (if ok then v else old) &&& 0x1F)

/-- NODECFG (R447). -/
def State.writeNode (s : State) (d : Nat) (v : Word) : State :=
  let old := s.reg d 0x3010
  let keep := bitRange 47 32 ||| bitRange 19 0
  s.setReg d 0x3010 ((old ||| v) &&& 0x100000 ||| (if old.getLsbD 20 then old else v) &&& keep)

/-- GENSET (R326): a publication starts. Every slice takes the generation, and the AST entry too, once its memory is served (R438). -/
def State.writeGenset (s : State) (d : Nat) (v : Word) : State :=
  if (s.die d).genset.isSome then s
  else
    let asid := wbits v 15 0
    let gen := BitVec.ofNat 16 (wbits v 31 16)
    let a := wbits (s.reg d 0x000) 43 20 * 2 ^ 20 + 16 * asid + 8
    let s := if !s.isMemory a 8 then s
      else if s.memReady a then s.homeWrite a (bytesOf 2 gen.toNat)
      else { s with hostWaits := s.hostWaits ++ [⟨0, a, bytesOf 2 gen.toNat⟩] }
    let s := (List.range 24).foldl (fun (s : State) k => s.modDie k fun x => { x with gens := x.gens.setD 0 asid gen }) s
    (s.modDie d fun x => { x with genset := some (BitVec.ofNat 16 asid, gen, s.uid) }).bump

/-- GENSET_COMPLETE (R326): once the AST entry is written and every access of the address space made before it has been performed, the stale
translations are dropped, and with them the instruction caches' copies. -/
def State.gensetDone (s : State) (d : Nat) : State :=
  match (s.die d).genset with
  | none => s
  | some (asid, gen, stamp) =>
    if (!s.memReady (wbits (s.reg d 0x000) 43 20 * 2 ^ 20 + 16 * asid.toNat))
        || s.groups.any fun g => g.2.cx.asid == asid && g.2.accs.any fun a => decide (a.1 < stamp) && a.2.pending then s
    else
      let keep (t : Tlb) : Bool := t.asid != asid || t.gen == gen
      let purge (c : Nat × Core) : Nat × Core := (c.1, { c.2 with tlb := c.2.tlb.filter keep, ic := [] })
      let purge2 (k : Nat × Cluster) : Nat × Cluster := (k.1, { k.2 with tlb := k.2.tlb.filter keep })
      { s with cores := s.cores.map purge, clusters := s.clusters.map purge2 }.modDie d fun x => { x with genset := none }

/-- Every dirty byte that an L1 or a cluster cache holds is written back to its home, as each may be at any time (R309). -/
def State.flushAll (s : State) : State :=
  let s := s.cores.foldl (fun s c => s.flushL1 c.1) s
  s.clusters.foldl (fun s k => s.flushCc k.1) s

/-- Every dirty byte of an address space reaches its home, those too that groups which have ended left in a cache (log 86); the cores that run a
group of it drop their clean copies (R431). -/
def State.flushAsid (s : State) (asid : BitVec 16) : State :=
  let cores := ((s.groups.filter fun g => g.2.cx.asid == asid && !g.2.ended).map fun g => g.2.cx.core).eraseDups
  cores.foldl (fun s c => s.acquireAt c .die) s.flushAll

/-- HFLUSH (R431): a write-back starts. -/
def State.writeHflush (s : State) (d : Nat) (v : Word) : State :=
  if (s.die d).hflush.isSome then s
  else
    let asid := BitVec.ofNat 16 (wbits v 15 0)
    (s.flushAsid asid).modDie d fun x => { x with hflush := some asid }

/-- HFLUSH_COMPLETE (R431): every dirty byte has reached its home. -/
def State.hflushDone (s : State) (d : Nat) : State :=
  match (s.die d).hflush with
  | none => s
  | some asid => (s.flushAsid asid).modDie d fun x => { x with hflush := none }

/-- The blocks of a launch that PREEMPT stops at a die: those placed there, and for a co-resident pour those of every die (R355). -/
def State.preemptSet (s : State) (d n : Nat) : List Nat :=
  (s.blocks.filter fun b => b.2.launch == n && s.blockLive b.2 && ((s.launch n).coRes || dieOfCore b.2.core == d)).map (·.1)

/-- PREEMPT (R355): a request is a wake reason at once (R356), and releases the drain reservations that the launch holds (R292). -/
def State.writePreempt (s : State) (d : Nat) (v : Word) : State :=
  let go := v.getLsbD 32
  if go && s.preemptBusy d then s
  else
    let s := s.setReg d 0x030 (v &&& bitRange 31 0)
    match s.launchOf (wbits v 31 0) with
    | none => s
    | some (n, _) =>
      let s := if v.getLsbD 35 then s.modDie d fun x => { x with held := x.held.filter (· != n) } else s
      let bs := s.preemptSet d n
      if go then
        ((s.unreserve d (·.1 == n)).modDie d fun x =>
          { x with preempting := bs, held := if v.getLsbD 34 && !x.held.contains n then x.held ++ [n] else x.held }).ask fun b _ => bs.contains b
      else s

/-- A die switches to its staged firmware if its check passes; the image and its place are not described (log 19). -/
def State.switchFirmware (s : State) (d : Nat) : State :=
  if !s.drained d then s
  else if Config.freeBool s.tick 8195 d then s.modDie d fun x => { x with firmware := x.firmware + 1 }
  else s.logErr d ⟨0x441, 0, 0, 0, 0, []⟩

/-- LINKWD (R439, R441): which links carry new packets; programs see only time. -/
def State.withdrawLinks (s : State) (d : Nat) (links : BitVec 4) : State :=
  s.setReg d 0x090 (s.reg d 0x090 &&& ~~~bitRange 35 32 ||| links.setWidth 64 <<< 32)

/-- DIECTL (R439). -/
def State.writeDiectl (s : State) (d : Nat) (v : Word) : State :=
  let s := (s.withdrawLinks d (BitVec.ofNat 4 (wbits v 35 32))).setDrain d (v.getLsbD 0)
  if v.getLsbD 8 then s.switchFirmware d else s

/-- Whether a function has no work in flight on a die (R443): walks, fault service, placement, pre-emption, pacing, checkpoint streaming, error
classification. -/
def State.functionIdle (s : State) (d n : Nat) : Bool :=
  match n with
  | 0 => !((s.die d).faults.any fun f => f.2.reason == 3)
  | 1 => (s.die d).faults.isEmpty
  | 3 => !(s.blocks.any fun b => dieOfCore b.2.core == d && b.2.stopping && s.blockLive b.2)
  | 5 => (s.die d).streams.isEmpty
  | 6 => (s.suspectUnits d).isEmpty
  | _ => true

/-- MODE_CHANGE_EFFECT (R443): a waiting mode bit takes effect once its function is idle. -/
def State.modeEffect (s : State) (d n : Nat) : State :=
  if (s.die d).pend.getLsbD n && s.functionIdle d n then
    s.modDie d fun x => { x with mode := x.mode ^^^ (1#7 <<< n), pend := x.pend &&& ~~~(1#7 <<< n) }
  else s

/-- The waiting mode bits whose functions are idle take effect (R443). -/
def State.settleModes (s : State) : State :=
  s.dies.foldl (fun s d => if d.2.pend = 0 then s else (List.range 7).foldl (fun s n => s.modeEffect d.1 n) s) s

/-- SPLIT (R443): a written mode bit takes effect at once where its function is idle, and waits otherwise. -/
def State.writeSplit (s : State) (d : Nat) (v : Word) : State :=
  (List.range 7).foldl (fun s n => s.modeEffect d n)
    ((s.setReg d 0x0A0 (v &&& (bitRange 63 48 ||| bitRange 42 32 ||| bitRange 6 0))).modDie d fun x => { x with pend := v.setWidth 7 ^^^ x.mode })

/-- ERRVERD (R443): the host's verdict, logged in host-assisted error classification, ends the suspicion of a unit of the die. Its layout is not given:
the low two bits are taken as the verdict's code, and which of the suspect units it is for is free (log 20). -/
def State.writeVerdict (s : State) (d : Nat) (v : Word) : State :=
  let s := s.setReg d 0x0D0 v
  if (s.die d).mode.getLsbD 6 then
    let s := s.logErr d ⟨0x443, v.toNat, 0, 0, 0, []⟩
    let us := s.suspectUnits d
    match us[(Config.freeWord s.tick 8235 d).toNat % max us.length 1]? with
    | some u => s.settleUnit u (wbits v 1 0)
    | none => s
  else s

/-- A register of a watch slot (R432): arming is checked, and an armed slot is evaluated at once. -/
def State.writeWatch (s : State) (off : Nat) (v : Word) : State :=
  let d := s.watchDie
  let base := off / 32 * 32
  match off % 32 with
  | 0 =>
    let v := v &&& (bitRange 63 62 ||| bitRange 43 3)
    let line := v.getLsbD 62
    let a := wbits v 43 3 * 8
    let bad := (wbits (s.reg d (base + 8)) 2 0 == 7) != line || (line && a % 64 != 0) || !s.isMemory a (if line then 64 else 8)
    let s := s.setReg d base (if bad then v &&& ~~~(1#64 <<< 63) else v)
    s.evalWatch ((base - 0x1000) / 32)
  | 8 =>
    let fired := s.reg d off &&& ~~~v &&& 0x100
    s.setReg d off (fired ||| v &&& 7)
  | 16 => s.setReg d off v
  | _ => s.setReg d off (v &&& (bitRange 63 3 ||| 1))

/-- The bits of a controller register without behaviour of its own that a write stores; none where there is no such register. -/
def plainMask (d o : Nat) : Option Word :=
  if o = 0x000 then some (bitRange 43 20 ||| 1)
  else if o = 0x018 then some (bitRange 43 12 ||| bitRange 3 0)
  else if o = 0x0B0 ∨ o = 0x0B8 then some (bitRange 63 0)
  else if o = 0x0E0 ∧ hostDie d then some (bitRange 43 30)
  else if 0x100 ≤ o ∧ o < 0x300 ∧ o % 16 = 0 ∧ hostDie d then some (bitRange 43 12 ||| bitRange 8 4 ||| 1)
  else if 0x600 ≤ o ∧ o < 0xA00 ∧ hostDie d then some (if o % 16 = 0 then bitRange 43 12 ||| bitRange 9 4 ||| 1 else bitRange 63 2)
  else if 0x3020 ≤ o ∧ o < 0x3040 ∧ portDie d then some (bitRange 47 0)
  else if 0x3100 ≤ o ∧ o < 0x3500 then some (if o % 16 = 0 then bitRange 63 61 ||| bitRange 47 0 else bitRange 43 16)
  else none

/-- A write to a register of the controller block. -/
def State.writeCtl (s : State) (d o : Nat) (v : Word) : State :=
  if o % 8 ≠ 0 then s
  else if o = 0x008 then s.writeGenset d v
  else if o = 0x010 then s.writeNear d v
  else if o = 0x020 then s.setReg d o ((v &&& bitRange 63 32) ||| (s.reg d o &&& bitRange 31 0))
  else if o = 0x028 then s.faultDone d v
  else if o = 0x030 then s.writePreempt d v
  else if o = 0x038 then s.writeHflush d v
  else if 0x040 ≤ o ∧ o < 0x080 then (if v.getLsbD 48 then s.bindSlot d ((o - 0x040) / 8) 0 [] else s)
  else if o = 0x080 then
    let l := wbits v 20 16
    s.setReg d o (BitVec.ofNat 64 ((if l = 0 ∨ 16 < l then 16 else l) * 2 ^ 16 + max 1 (wbits v 15 0)))
  else if o = 0x090 then s.writeDiectl d v
  else if o = 0x0A0 then s.writeSplit d v
  else if o = 0x0C8 then s.hostPlace d v
  else if o = 0x0D0 then s.writeVerdict d v
  else if 0x100 ≤ o ∧ o < 0x300 ∧ o % 16 = 8 ∧ hostDie d then s.readTail ((o - 0x108) / 16)
  else if 0x1000 ≤ o ∧ o < 0x3000 then (if (s.watchReg d o).isSome then s.writeWatch o v else s)
  else if (o = 0x3000 ∨ o = 0x3008) ∧ portDie d then s.setReg d o ((v &&& (bitRange 13 8 ||| 3)) ||| (s.reg d o &&& ~~~(bitRange 13 8 ||| 3)))
  else if o = 0x3010 then s.writeNode d v
  else if o = 0x3018 then (if (s.reg d 0x3010).getLsbD 20 then s else s.setReg d o v)
  else match plainMask d o with
    | some m => s.setReg d o (v &&& m)
    | none => s

/-- CCCFG of a cluster (R287). -/
def State.writeCccfg (s : State) (k : Nat) (v : Word) : State :=
  let c := s.cluster k
  let w := wbits v 3 0
  let used := s.groups.any fun g => clusterOfCore g.2.cx.core == k && !g.2.ended
  let ok := !c.lock && decide (1 ≤ w) && decide (w ≤ 12) && !used
  s.modCluster k fun c => { c with lock := c.lock || v.getLsbD 8, lehrWays := if ok then BitVec.ofNat 4 w else c.lehrWays }

/-- CLR of a mailbox (R217). -/
def State.clearBox (s : State) (c m : Nat) : State := s.modCore c fun k => { k with mbox := k.mbox.insert m Mbox.reset }

/-- A write to a register of a core's block. -/
def State.writeCore (s : State) (c o : Nat) (v : Word) : State :=
  if o = 8 then s.wake c whyDoorbell
  else if 0x100 ≤ o ∧ o < 0x180 ∧ o % 8 = 0 ∧ v.getLsbD 7 then s.clearBox c ((o - 0x100) / 8)
  else s

/-- An 8-byte store to the MMIO region of a die (R307); none at an LLC slice's registers. -/
def State.mmioWrite (s : State) (d o : Nat) (v : Word) : Option State :=
  match mmioAt d o with
  | .ctl o => some (s.writeCtl d o v)
  | .cluster k o => some (if o = 0 then s.writeCccfg k v else s)
  | .core c o => some (s.writeCore c o v)
  | .slice => none
  | .reserved => some s

/-! ### DEVICE accesses of groups (R316) -/

/-- Piece j of an access to a DEVICE page is performed at its register, in issue order (R316); none at an LLC slice's registers. -/
def State.performDevice (s : State) (gid n j : Nat) : Option State :=
  let g := s.group gid
  if !s.pieceReady g n j then some s
  else match (g.accs.find? n).bind fun a => (a.pieces[j]?).map fun p => (a, p) with
    | none => some s
    | some (a, p) =>
      let c := g.cx.core
      let d := dieOfPa p.addr
      let o := winOff p.addr - mmioBase
      let s := if ordRel a.order then s.releaseAt c a.scope else s
      let done (s : State) (v : Word) : State :=
        let s := s.modGroup gid fun g => { g with accs := g.accs.modify n fun b =>
          { b with pieces := b.pieces.modify j fun q => { q with st := .ready v false } } }
        (if ordAcq a.order then s.acquireAt c a.scope else s).modGroup gid fun g => g.dropDone n
      match a.kind with
      | .load => (s.mmioRead d o).map (done s)
      | _ => (s.mmioWrite d o p.data).map fun s => done s 0

/-! ### The host's requests (R426, R428) -/

/-- A request through BAR2 is performed at home (R428): a read of an 8-byte word where there are no bytes to write, of a PRP list too (R434). -/
def State.hostAccess (s : State) (a : HostAcc) : State :=
  if a.data.isEmpty then
    let bs := match s.prpWord a.pa with
      | some w => bytesOf 8 w.toNat
      | none => (List.range 8).map fun k => s.homeByte (a.pa + k)
    { s with hostMsgs := s.hostMsgs ++ [.read a.endpoint bs] }
  else (s.homeWrite a.pa a.data).evalPairs a.pa a.data.length

/-- A host or peer request through BAR2 (R428): to memory it is performed at home, once the memory is served (R438). Elsewhere a read completes
with zeros and a write is dropped. Nothing comes through a link that is down (R426). A request without data reads the aligned 8-byte word; a longer
or a shorter read is made of such reads. -/
def State.aperture (s : State) (e off : Nat) (data : List Byte) : State :=
  let pa := s.apertureBase e + if data.isEmpty then off / 8 * 8 else off
  let len := if data.isEmpty then 8 else data.length
  if 1 < e ∨ !s.links.contains e then s
  else if !s.isMemory pa len then
    if data.isEmpty then { s with hostMsgs := s.hostMsgs ++ [.read e (List.replicate 8 0)] } else s
  else if s.memReady pa then s.hostAccess ⟨e, pa, data⟩
  else { s with hostWaits := s.hostWaits ++ [⟨e, pa, data⟩] }

/-- A host read of a register through BAR0 (R426): zero from the offsets above the dies on; none at an LLC slice's registers. -/
def State.hostRegister (s : State) (off : Nat) : Option Word :=
  if off / 2 ^ 22 < 24 then s.mmioRead (off / 2 ^ 22) (off % 2 ^ 22) else some 0

/-- A host write of a register through BAR0 (R426): ignored above the dies, and lost while no link is up; none at an LLC slice's registers. -/
def State.hostWrite (s : State) (d off : Nat) (v : Word) : Option State :=
  if 24 ≤ d ∨ s.links.isEmpty then some s else s.mmioWrite d off v

/-- The armed watches of memory that one level serves and another did not are evaluated (R433, R438). -/
def State.wakeWatches (s : State) (old : State) : State :=
  (s.die s.watchDie).regs.foldl (fun s p =>
    if 0x1000 ≤ p.1 ∧ p.1 < 0x3000 ∧ p.1 % 32 = 0 ∧ !old.memReady (wbits p.2 43 3 * 8) then s.evalWatch ((p.1 - 0x1000) / 32) else s) s

/-- The service level rises (R438): what waited for memory that is now served is performed, in order: accesses, then reads of TAIL, then watches. -/
def State.raiseLevel (s : State) : State :=
  let t := { s with level := min 3 (s.level + 1), doorWaits := [], hostWaits := [] }
  let t := { t with hostWaits := s.hostWaits.filter fun a => !t.memReady a.pa }
  let t := (s.hostWaits.filter fun a => t.memReady a.pa).foldl (fun t a => t.hostAccess a) t
  (s.doorWaits.foldl (fun t q => t.readTail q) t).wakeWatches s

/-! ### Links, levels and resets -/

/-- A fabric port's link trains or goes down (R447). -/
def State.portLink (s : State) (port : Nat) (up : Bool) : State :=
  let (d, o) := portReg port
  if 32 ≤ port then s else s.setReg d o (if up then s.reg d o ||| 4 else s.reg d o &&& ~~~4)

/-- A PCIe link trains at x16 or goes down (R426). -/
def State.hostLink (s : State) (e : Nat) (up : Bool) : State :=
  if 1 < e then s
  else { s with links := if up then (if s.links.contains e then s.links else s.links ++ [e]) else s.links.filter (· != e) }

/-- The reset of a die (R223): its groups end, and its registers, slots, cores and clusters return to their reset state. What die firmware has on
record stays: the retired cores, granules, sets, rows and ports, and those that wait for their test (R222, R301, R338, R447). The generations that its slices hold change
at package reset alone (R326). -/
def State.resetDie (s : State) (d : Nat) : State :=
  let gone := (s.groups.filter fun g => dieOfCore g.2.cx.core == d && !g.2.ended).map (·.1)
  let s := gone.foldl (fun s g => s.endGroup g) s
  let old := s.die d
  let retiredPorts := if portDie d then [0x3000, 0x3008].filter fun o => (old.reg o).getLsbD 3 else []
  let core (c : Nat × Core) : Option (Nat × Core) :=
    let k := if dieOfCore c.1 = d then { Core.reset with poolret := c.2.poolret, suspect := c.2.suspect, retired := c.2.retired, doubted := c.2.doubted } else c.2
    if k = Core.reset then none else some (c.1, k)
  let cluster (k : Nat × Cluster) : Option (Nat × Cluster) :=
    let x := if k.1 / 8 = d then { Cluster.reset with setsRet := k.2.setsRet, suspect := k.2.suspect, retired := k.2.retired } else k.2
    if x = Cluster.reset then none else some (k.1, x)
  { s with
    cores := s.cores.filterMap core
    clusters := s.clusters.filterMap cluster
    mbreqs := s.mbreqs.filter fun m => dieOfCore m.2.core != d
    dies := s.dies.insert d { Die.reset with
      regs := (retiredPorts.foldl (fun (x : Die) o => x.setReg o 8) Die.reset).regs
      gens := old.gens, resetClk := s.clk, rowsRet := old.rowsRet, llcSuspect := old.llcSuspect, memSuspect := old.memSuspect
      portSuspect := old.portSuspect } }

/-- The reset of the package (R326, R345): everything but the model's own fields returns to its reset state. -/
def State.resetAll (s : State) : State := { State.reset with agenda := s.agenda, tick := s.tick, uid := s.uid }

/-! ### Meanings -/

/-- DBELL_WRITE (R427): it wakes the core and changes nothing else. -/
def execDbellWrite (core : Nat) (s : State) : Host.Outcome State Fault Refusal := .next (s.hostEvent (dieOfCore core) fun s => s.wake core whyDoorbell)
/-- MAILBOX_CLR (R217). -/
def execMailboxClr (core m : Nat) (s : State) : Host.Outcome State Fault Refusal := .next (s.hostEvent (dieOfCore core) fun s => s.clearBox core m)
/-- GENSET_WRITE (R326). -/
def execGensetWrite (die : Nat) (v : Word) (s : State) : Host.Outcome State Fault Refusal := .next (s.hostEvent die fun s => s.writeGenset die v)
/-- GENSET_COMPLETE (R326). -/
def execGensetComplete (die : Nat) (s : State) : Host.Outcome State Fault Refusal := .next (s.gensetDone die)
/-- HSLOT_UNBIND (R362). -/
def execHslotUnbind (die n : Nat) (s : State) : Host.Outcome State Fault Refusal := .next (s.hostEvent die fun s => if n < 8 then s.bindSlot die n 0 [] else s)
/-- PREEMPT_GO (R355). -/
def execPreemptGo (die : Nat) (pour : BitVec 32) (s : State) : Host.Outcome State Fault Refusal :=
  .next (s.hostEvent die fun s => s.writePreempt die (pour.setWidth 64 ||| bit64 true 32))
/-- PREEMPT_HOLD (R355): GO with HOLD. -/
def execPreemptHold (die : Nat) (pour : BitVec 32) (s : State) : Host.Outcome State Fault Refusal :=
  .next (s.hostEvent die fun s => s.writePreempt die (pour.setWidth 64 ||| bit64 true 32 ||| bit64 true 34))
/-- PREEMPT_RELEASE (R355). -/
def execPreemptRelease (die : Nat) (pour : BitVec 32) (s : State) : Host.Outcome State Fault Refusal :=
  .next (s.hostEvent die fun s => s.writePreempt die (pour.setWidth 64 ||| bit64 true 35))
/-- HFLUSH_WRITE (R431). -/
def execHflushWrite (die : Nat) (v : Word) (s : State) : Host.Outcome State Fault Refusal := .next (s.hostEvent die fun s => s.writeHflush die v)
/-- HFLUSH_COMPLETE (R431). -/
def execHflushComplete (die : Nat) (s : State) : Host.Outcome State Fault Refusal := .next (s.hflushDone die)
/-- WATCH_ARM (R432, R433): WADDR of a slot is written. -/
def execWatchArm (w : Nat) (v : Word) (s : State) : Host.Outcome State Fault Refusal :=
  .next (s.hostEvent s.watchDie fun s => if w < 256 then s.writeWatch (0x1000 + 32 * w) v else s)
/-- DIE_DRAIN (R440). -/
def execDieDrain (die : Nat) (s : State) : Host.Outcome State Fault Refusal := .next (s.hostEvent die fun s => s.setDrain die true)
/-- DIE_UNDRAIN (R440). -/
def execDieUndrain (die : Nat) (s : State) : Host.Outcome State Fault Refusal := .next (s.hostEvent die fun s => s.setDrain die false)
/-- FIRMWARE_SWITCH (R441). -/
def execFirmwareSwitch (die : Nat) (s : State) : Host.Outcome State Fault Refusal := .next (s.hostEvent die fun s => s.switchFirmware die)
/-- LINK_WITHDRAW (R441). -/
def execLinkWithdraw (die : Nat) (links : BitVec 4) (s : State) : Host.Outcome State Fault Refusal := .next (s.hostEvent die fun s => s.withdrawLinks die links)
/-- SPLIT_MODE_WRITE (R443). -/
def execSplitModeWrite (die : Nat) (v : Word) (s : State) : Host.Outcome State Fault Refusal := .next (s.hostEvent die fun s => s.writeSplit die v)
/-- MODE_CHANGE_EFFECT (R443). -/
def execModeChangeEffect (die n : Nat) (s : State) : Host.Outcome State Fault Refusal := .next (s.modeEffect die n)
/-- ERRVERD_WRITE (R443). -/
def execErrverdWrite (die : Nat) (v : Word) (s : State) : Host.Outcome State Fault Refusal := .next (s.hostEvent die fun s => s.writeVerdict die v)
/-- REGISTER_WRITE (R307): a host write to a register of a die. -/
def execRegisterWrite (die off : Nat) (v : Word) (s : State) : Host.Outcome State Fault Refusal :=
  match s.hostWrite die off v with
  | some t => .next t
  | none => .fault .llcSliceRegister
/-- HOST_APERTURE_ACCESS (R428). -/
def execHostApertureAccess (endpoint off : Nat) (data : List Byte) (s : State) : Host.Outcome State Fault Refusal :=
  .next (s.aperture endpoint off data)
/-- LINK_STATE_CHANGE (R447). -/
def execLinkStateChange (port : Nat) (up : Bool) (s : State) : Host.Outcome State Fault Refusal := .next (s.portLink port up)
/-- SERVICE_LEVEL_RISE (R438). -/
def execServiceLevelRise (s : State) : Host.Outcome State Fault Refusal := .next s.raiseLevel
/-- DIE_RESET (R223). -/
def execDieReset (die : Nat) (s : State) : Host.Outcome State Fault Refusal := .next (if die < 24 then s.resetDie die else s)
/-- PACKAGE_RESET (R326). -/
def execPackageReset (s : State) : Host.Outcome State Fault Refusal := .next s.resetAll
/-- PCIE_LINK_STATE_CHANGE (R426). -/
def execPcieLinkStateChange (endpoint : Nat) (up : Bool) (s : State) : Host.Outcome State Fault Refusal := .next (s.hostLink endpoint up)

end Sys2Proof.Machine
end

