-- ==== Sys2Proof/Machine/Fabric.lean ====
section
/-! DEFINITION. The fabric at a node: frames received, their requests and responses (spec/16_fabric_collectives_and_checkpoint.md R447 to R453),
and the checkpoint engine (R463 to R466). -/

namespace Sys2Proof.Machine

/-! ### Requests on the wire (R450, R451) -/

/-- The types with which a lane operation of block 0x120 may be sent, by opcode. -/
def laneKindOk (op : Nat) (e : Elem) : Bool :=
  let o : Remote := { d := 0, a := 0, c := 0, disp := 0, e := e, bind := some 0 }
  match op with
  | 0x20 => (Instr.radd o).wf
  | 0x21 => (Instr.rmin o).wf
  | 0x22 => (Instr.rmax o).wf
  | 0x23 => (Instr.ror o).wf
  | 0x24 => (Instr.rwo o).wf
  | 0x27 => (Instr.cradd o).wf
  | _ => false

/-- Whether a request's opcode admits its kind byte and its payload of n bytes (R451). -/
def requestOk (op kind n : Nat) : Bool :=
  match op with
  | 0x20 | 0x21 | 0x22 | 0x23 | 0x24 | 0x27 =>
    (match Elem.ofCode (BitVec.ofNat 2 (kind / 8)) (BitVec.ofNat 3 kind) with
      | some e => laneKindOk op e && n == max 4 (e.w / 8)
      | none => false)
  | 0x25 | 0x30 | 0x31 | 0x40 | 0x49 => kind == 0 && n == 0
  | 0x26 => kind == 0 && decide (8 ≤ n) && decide (n ≤ 64) && n % 8 == 0
  | 0x66 => kind == 0 && n == 8
  | 0x41 => (kind == 0x0A && n == 8) || ((kind == 0x01 || kind == 0x02 || kind == 0x03) && n == 4)
  | 0x42 | 0x43 | 0x44 => kind == 0x0B && decide (4 ≤ n) && decide (n ≤ 64)
  | 0x45 => (kind == 0x0B || kind == 0x00) && decide (4 ≤ n) && decide (n ≤ 64)
  | 0x46 => mayBeCfmt kind && decide (4 ≤ n) && decide (n ≤ 64)
  | 0x48 => kind == 0 && n == 4096
  | _ => false

/-- The payload bytes that LEN names, if it is not reserved. -/
def lenBytes (l : Nat) : Option Nat := if l ≤ 16 then some (4 * l) else if l = 31 then some 4096 else none

/-- The data bytes that an operation takes of its payload: a 16-bit crucible addend travels in 4 bytes. -/
def wireData (op kind : Nat) (l : List Byte) : List Byte :=
  if (op = 0x27 ∧ kind / 8 = 1) ∨ (op = 0x41 ∧ (kind = 0x02 ∨ kind = 0x03)) then l.take 2 else l

/-- The node, the die and the attempt that sent a frame (R450). -/
def frameSender (f : Frame) : Nat × Nat × Nat := (wbits f.w0 43 24, wbits f.w0 23 19, wbits f.w0 5 2)

/-- A request from another node, as a packet at its home; none where it is malformed. The line of an RGET request lies at the requester, beside
its mould (R405). -/
def requestOf (f : Frame) : Option Packet :=
  let op := wbits f.w0 13 6
  let kind := wbits f.w1 21 17
  let node := wbits f.w0 63 44
  let target := wbits f.w1 63 22 * 4
  let laddr := wbits f.w2 63 31
  let n := f.payload.length
  if lenBytes (wbits f.w0 18 14) ≠ some n ∨ !requestOk op kind n then none
  else
    let x := ofBytes f.payload
    let aux := if op = 0x66 then [bits x 63 56, wbits f.w0 43 24 * 2 ^ 44 + bits x 43 0] else []
    if op = 0x66 ∧ (bits x 63 56 < 8 ∨ 64 < bits x 63 56 ∨ bits x 63 56 % 8 ≠ 0) then none
    else some { blankPacket op kind none none (BitVec.ofNat 16 (wbits f.w3 31 16)) (BitVec.ofNat 16 (wbits f.w3 15 0)) none (node * 2 ^ 44 + target)
        (wireData op kind f.payload) with
      line := if laddr = 2 ^ 33 - 1 then none
        else if op = 0x66 then some (wbits f.w0 43 24 * 2 ^ 44 + dieOfPa (bits x 43 0) * 2 ^ 39 + laddr * 64)
        else some (node * 2 ^ 44 + dieOfPa target * 2 ^ 39 + laddr * 64)
      origin := some (frameSender f)
      idx := wbits f.w3 63 32, sig := wbits f.w2 30 3, tag := 0x8000#16 ||| BitVec.ofNat 16 (wbits f.w1 16 2), aux := aux, copies := 1 }

/-! ### Responses (R451) -/

/-- The first unacknowledged packet of a die that a response matches. -/
def State.matchResp (s : State) (f : Frame) : Option (Nat × Packet) :=
  let words := (wbits f.w1 63 2 * 4, wbits f.w2 63 3 * 8, f.w3.toNat)
  s.packets.first? fun _ p => p.status.isNone && p.sdie == some (wbits f.w0 23 19) && nodeOf p.target != s.nodeId (wbits f.w0 23 19)
    && p.wireOp == wbits f.w0 13 6 && p.wire == words

/-- The code of a response, where it is not reserved. -/
def respCode (f : Frame) : Option Nat :=
  let c := wbits f.w0 18 14
  if c ≤ 2 ∧ f.payload.isEmpty then some c
  else if c = 3 ∧ f.payload.length = 16 then some 3
  else if 16 ≤ c ∧ f.payload.isEmpty then some c
  else none

/-! ### FRAME_RECEIVE (R453) -/

/-- Whether a port drops a frame. -/
def State.frameBad (s : State) (port : Nat) (f : Frame) : Bool :=
  let d := (portReg port).1
  let cfg := s.reg d 0x3010
  let own : BitVec 128 := BitVec.ofNat 128 ((s.reg d 0x3018).toNat * 2 ^ 64 + wbits cfg 19 0 * 32 + port)
  !f.fcsOk || !f.fecOk || f.dstAddr != own || f.udpDst.toNat != wbits cfg 47 32
  || crc32c (bytesOf 8 f.w0.toNat ++ bytesOf 8 f.w1.toNat ++ bytesOf 8 f.w2.toNat ++ bytesOf 8 f.w3.toNat ++ f.payload) != f.check
  || wbits f.w0 63 44 != wbits cfg 19 0

/-- A port in use with its link up receives a frame: it is dropped and counted, or carried to the home die of its target or to the sender of the
packet that it answers. A malformed request is answered with REMOTE_REJECT, reason 7 (R451). -/
def State.receiveFrame (s : State) (port : Nat) (f : Frame) : State :=
  let (d, o) := portReg port
  let c := s.reg d o
  if 32 ≤ port ∨ !c.getLsbD 0 ∨ !c.getLsbD 2 ∨ c.getLsbD 3 then s
  else if s.frameBad port f then s.setReg d o (BitVec.ofNat 64 ((wbits c 63 32 + 1) % 2 ^ 32 * 2 ^ 32 + wbits c 31 0))
  else if f.w0.getLsbD 1 then
    match respCode f, s.matchResp f with
    | some code, some (n, p) => { s with packets := s.packets.insert n { p with resps := p.resps ++ [⟨code, BitVec.ofNat 128 (ofBytes f.payload)⟩] } }
    | _, _ => s
  else match requestOf f with
    | some p => { s with packets := s.packets.insert s.uid p }.bump
    | none => (s.answerFrame s.uid (frameSender f) (wbits f.w0 63 44) (wbits f.w0 13 6) 23 [f.w1.toNat, f.w2.toNat, f.w3.toNat] []).bump

/-! ### The checkpoint engine (R463 to R466) -/

/-- The frames of a die (R463). -/
def State.frameCount (s : State) (d : Nat) : Nat := 16777216 + 4096 * s.nearSz d

/-- CKPT's record is at fault (R464). A line lies at a multiple of 64 (R398). -/
def ckptFault (a b c d : Word) : Bool :=
  wbits a 63 56 != 0 || a.toNat % 4096 != 0 || wbits b 63 56 != 0 || b.toNat % 4096 != 0 || decide (b.toNat < 4096 * 16891904)
  || wbits c 63 56 != 0 || c.toNat % 64 != 0 || wbits d 23 0 == 0 || wbits d 31 24 != 0 || wbits d 63 60 != 0

/-- CKPT: starts a stream on every die named, but those in host-assisted checkpoint streaming, and waits for their cuts. -/
def State.checkpoint (s : State) (o : Ckpt) : State :=
  match s.spl.woke, s.spl.answer with
  | some (.answer _), some (_, v, _) => s.writeU o.d.toNat v 0
  | _, _ => s.guarded s.cur.mask [rdU o.a, rdU (o.a + 1), rdU (o.a + 2), rdU (o.a + 3), wrU o.d] fun s =>
    let a := s.readU o.a.toNat
    let b := s.readU (o.a + 1).toNat
    let c := s.readU (o.a + 2).toNat
    let w := s.readU (o.a + 3).toNat
    if ckptFault a b c w then s.trapExec 0x1B 0x8000000000000050
    else
      let ds := (List.range 24).filter fun d => w.getLsbD d && !(s.die d).mode.getLsbD 5
      if ds.isEmpty then s.writeU o.d.toNat 0 0
      else
        let (s, n) := s.joinBatch
        let req := s.uid
        let g := s.grp
        let st (d : Nat) : Stream :=
          { gid := s.cur.gid, batch := n, issuer := s.blk.launch, data := a.toNat + d * b.toNat, line := wbits c 55 0 + 64 * d, sig := wbits w 59 32,
            asid := g.cx.asid, dirty := o.dirty, cut := false, frames := [], total := 0, snap := [], next := 0, req := req, outstanding := [] }
        let s := ds.foldl (fun (s : State) d => s.modDie d fun x => { x with streams := x.streams.insert req (st d) }) s
        (s.waitFor (.answer req)).bump

/-- The dies on which a checkpoint streams. -/
def State.streamsOf (s : State) (req : Nat) : List (Nat × Stream) := s.dies.filterMap fun d => (d.2.streams.find? req).map fun x => (d.1, x)

/-- CHECKPOINT_CUT (R465): every dirty byte of the die's caches goes home, and the die's dirty bits are read and cleared. -/
def State.takeCut (s : State) (d : Nat) : State :=
  match (s.die d).streams.first? fun _ x => !x.cut with
  | none => s
  | some (req, x) =>
    if s.blocks.any fun b => dieOfCore b.2.core == d && b.2.launch != x.issuer && s.blockLive b.2 then s
    else
      let s := (List.range 64).foldl (fun (s : State) c => s.flushL1 (64 * d + c)) s
      let s := (List.range 8).foldl (fun (s : State) k => s.flushCc (8 * d + k)) s
      let mine (k : Nat) : Bool := dieOfPa (4096 * k) == d
      let frameOf (k : Nat) : Nat := let w := winOff (4096 * k); if w < 2 ^ 38 then w / 4096 else 16777216 + (w - 2 ^ 38) / 4096
      let fs := (s.mdirty.filter fun p => mine p.1).map fun p => frameOf p.1
      let snap := s.mem.filter fun p => dieOfPa p.1 == d
      let s := { s with mdirty := s.mdirty.filter fun p => !mine p.1 }
      let total := s.frameCount d
      let s := s.modDie d fun y => { y with streams := y.streams.insert req { x with cut := true, frames := fs, total := total, snap := snap } }
      let all := s.streamsOf req
      if all.all fun p => p.2.cut then
        s.giveAnswer x.gid req (true, BitVec.ofNat 64 (all.foldl (fun n p => n + if p.2.dirty then p.2.frames.length else p.2.total) 0), 0)
      else s

/-- The 8 bytes of a word of a streamed frame: as at the cut, or as they stand, where they differ (R466; log 4). -/
def State.frameWord (s : State) (x : Stream) (pa : Nat) : List Byte :=
  let old := (List.range 8).map fun k => Memory.read x.snap (pa + k)
  let new := (List.range 8).map fun k => s.homeByte (pa + k)
  if Config.freeBool s.tick 8196 pa then old else new

/-- CHECKPOINT_STREAM (R465): a die's engine sends its next frame or mark, where its addresses translate; a frame that cannot be sent counts as
rejected (log 21). -/
def State.streamFrame (s : State) (d : Nat) : State :=
  match (s.die d).streams.first? fun _ x => x.cut && decide (x.next < x.total) with
  | none => s
  | some (req, x) =>
    let f := x.next
    let pa := frameAddr d f
    if !s.memReady pa || s.walkWaits d x.asid (x.data + 4096 * f) || s.walkWaits d x.asid x.line then s
    else
      let s := s.modDie d fun y => { y with streams := y.streams.modify req fun x => { x with next := f + 1 } }
      let full := !x.dirty || x.frames.contains f
      let op := if full then 0x48 else 0x49
      let words := (List.range 512).map fun k => pa + 8 * k
      let data := if full then words.flatMap (s.frameWord x) else []
      let pois := words.zipIdx.foldl (fun a k => if s.homePois k.1 8 then a + 2 ^ k.2 else a) 0
      let va := x.data + 4096 * f
      let g := s.groupAny x.gid
      let p0 (target : Nat) : Packet := { blankPacket op 0 (some d) (some x.gid) x.asid (astGen (s.astEntry d x.asid.toNat)) (some va) target data with
        pour := g.cx.pourid.toNat, grp := g.cx.grpid.toNat, lineVa := some x.line, idx := f, sig := x.sig, tag := tagOf op 0 target []
        aux := if full then [pois] else [], stream := some (d, req) }
      let lost (s : State) : State :=
        { s.recordRemote (p0 va) 0x19 2 with mdirty := s.mdirty.insert (pa / 4096) true }
      match s.plainWalk d x.asid va true fun t => t.kind = kMould || t.kind = kFabric with
      | (s, none) => lost s
      | (s, some target) => match s.plainWalk d x.asid x.line true sharedOrFabric with
        | (s, none) => lost s
        | (s, some line) =>
          let (s, n) := s.send { p0 target with line := some line }
          s.modDie d fun y => { y with streams := y.streams.modify req fun x => { x with outstanding := x.outstanding ++ [n] } }

/-- A checkpoint completes for its group's batch when every packet of every die has been acknowledged or has failed. -/
def State.settleStreams (s : State) (d : Nat) : State :=
  (s.die d).streams.foldl (fun (s : State) p =>
    let all := s.streamsOf p.1
    if !all.isEmpty && all.all fun q => q.2.cut && decide (q.2.total ≤ q.2.next) && q.2.outstanding.isEmpty then
      (all.foldl (fun (s : State) q => s.modDie q.1 fun y => { y with streams := y.streams.erase p.1 }) s).batchStep p.2.gid p.2.batch
    else s) s

/-! ### Meanings -/

/-- CKPT (R465). -/
def execCkpt (o : Ckpt) (s : State) : Host.Outcome State Fault Refusal := .next (s.checkpoint o)
/-- FRAME_RECEIVE (R453). -/
def execFrameReceive (port : Nat) (f : Frame) (s : State) : Host.Outcome State Fault Refusal := .next (s.receiveFrame port f)
/-- CHECKPOINT_CUT (R465). -/
def execCheckpointCut (die : Nat) (s : State) : Host.Outcome State Fault Refusal := .next (s.takeCut die)
/-- CHECKPOINT_STREAM (R465). -/
def execCheckpointStream (die : Nat) (s : State) : Host.Outcome State Fault Refusal := .next (s.streamFrame die)

end Sys2Proof.Machine
end

