-- ==== Sys2Proof/Machine/Special.lean ====
section
/-! DEFINITION. The special functions (spec/01_number_formats.md R38, R39; spec/05_float_crosslane_and_search_instructions.md R152, R153).
Rational results are computed exactly; the others from bounds in fixed point of 1,024 fraction bits, which settle the truncation unless
they straddle a boundary, and then the value is free (log 7). -/

namespace Sys2Proof.Machine

/-! ### Delivery of a result (R38) -/

/-- A magnitude truncated to 16 significant bits: significand, power of two, and whether bits were dropped. -/
structure Cut where
  (q : Nat) (e : Int) (lost : Bool)
deriving DecidableEq, Repr, Inhabited

/-- Truncation to 16 significant bits of n * 2^e, where `sticky` says that the exact magnitude is larger by less than one unit. -/
def cut16 (n : Nat) (e : Int) (sticky : Bool) : Cut :=
  let k := bitLen n - 16
  ⟨n >>> k, e + k, sticky || n % 2 ^ k != 0⟩

/-- The F32 code and flags of a truncated magnitude (R38). -/
def Cut.deliver (c : FpCtx) (neg : Bool) (x : Cut) : Nat × FpFlags :=
  let sg (v : Nat) : Nat := Fmt.f32.signed neg v
  let lead := x.e + (bitLen x.q : Int) - 1
  if x.q = 0 then (sg 0, flagIf x.lost (fUF ||| fNX))
  else if 128 ≤ lead then
    match c.sat with
    | .off => (sg 0x7F800000, fOF ||| fNX)
    | .quiet => (sg 0x7F7FFF00, fNX)
    | .flagged => (sg 0x7F7FFF00, fOF ||| fNX)
  else if lead < -126 then
    if c.ftz then (sg 0, fUF ||| fNX)
    else
      let k := (-149 - x.e).toNat
      let m := if -149 ≤ x.e then x.q <<< (x.e + 149).toNat else x.q >>> k
      let drop := decide (x.e < -149) && x.q % 2 ^ k != 0
      (sg m, flagIf (x.lost || drop) (fUF ||| fNX))
  else (Fmt.f32.encode ⟨neg, x.q, x.e⟩, flagIf x.lost fNX)

/-! ### Fixed point -/

/-- One, in fixed point of 1,024 fraction bits. -/
def fxOne : Int := 2 ^ 1024
/-- The largest error of the fixed-point results below, with room to spare. -/
def fxErr : Nat := 2 ^ 64
/-- A product. -/
def fxMul (a b : Int) : Int := a * b / fxOne

/-- The sum of terms, each made from the one before it by a rule that knows its number. -/
def fxSeries (n : Nat) (first : Int) (next : Nat → Int → Int) : Int :=
  ((List.range n).foldl (fun (a : Int × Int) k => let t := next (k + 1) a.2; (a.1 + t, t)) (first, first)).1

/-- The sum of z^(2k+1) / (2k+1), with the sign of the terms alternating or not. -/
def fxAtan (alt : Bool) (n : Nat) (z : Int) : Int :=
  let z2 := fxMul z z
  ((List.range n).foldl (fun (a : Int × Int) k =>
    let p := fxMul a.2 z2
    let t := p / ((2 * (k + 1) + 1 : Nat) : Int)
    (if alt && k % 2 == 0 then a.1 - t else a.1 + t, p)) (z, z)).1

/-- ln 2 = 2 atanh(1/3). -/
def fxLn2 : Int := 2 * fxAtan false 340 (fxOne / 3)
/-- pi = 16 atan(1/5) - 4 atan(1/239). -/
def fxPi : Int := 16 * fxAtan true 240 (fxOne / 5) - 4 * fxAtan true 80 (fxOne / 239)

/-- e^t. -/
def fxExp (t : Int) : Int := fxSeries 220 fxOne fun k a => fxMul a t / (k : Int)
/-- sin t. -/
def fxSin (t : Int) : Int :=
  let t2 := fxMul t t
  fxSeries 110 t fun k a => -(fxMul a t2) / ((2 * k * (2 * k + 1) : Nat) : Int)
/-- sinh t. -/
def fxSinh (t : Int) : Int :=
  let t2 := fxMul t t
  fxSeries 160 t fun k a => fxMul a t2 / ((2 * k * (2 * k + 1) : Nat) : Int)
/-- cosh t. -/
def fxCosh (t : Int) : Int :=
  let t2 := fxMul t t
  fxSeries 160 fxOne fun k a => fxMul a t2 / (((2 * k - 1) * (2 * k) : Nat) : Int)

/-- The truncation of an irrational magnitude v * 2^e known within the error of fixed point, if the bounds settle it. -/
def fxCut (v : Int) (e : Int) : Option Cut :=
  let lo := cut16 (v.toNat - fxErr) (e - 1024) true
  let hi := cut16 (v.toNat + fxErr) (e - 1024) true
  if fxErr < v.toNat ∧ lo = hi then some lo else none

/-! ### The functions on a non-zero finite value; none where the bounds do not settle it -/

/-- The integer square root of a number below 2^128. -/
def isqrt (n : Nat) : Nat :=
  (List.range 64).foldl (fun r k => let x := r + 2 ^ (63 - k); if x * x ≤ n then x else r) 0

/-- A result: its sign and its magnitude. -/
abbrev SpecVal := Option (Bool × Cut)

/-- 1 / x (R39). -/
def rcpCut (d : Dy) : SpecVal :=
  let k := bitLen d.m + 40
  some (d.neg, cut16 (2 ^ k / d.m) (-d.e - k) (2 ^ k % d.m != 0))

/-- 1 / sqrt x, for x above 0. -/
def rsqCut (d : Dy) : SpecVal :=
  let odd := d.e % 2 != 0
  let m := if odd then 2 * d.m else d.m
  let e := if odd then d.e - 1 else d.e
  let q := isqrt (2 ^ 120 / m)
  some (false, cut16 q (-(e / 2) - 60) (q * q * m != 2 ^ 120))

/-- 2^x. -/
def exp2Cut (d : Dy) : SpecVal :=
  if 12 ≤ d.lead then some (false, if d.neg then ⟨1, -4000, true⟩ else ⟨1, 4000, true⟩)
  else
    let v := (if 0 ≤ d.e then d.intAt 0 * fxOne else (if d.neg then -1 else 1) * ((d.m * 2 ^ (1024 - (-d.e).toNat) : Nat) : Int))
    let i := v / fxOne
    let f := v % fxOne
    if f = 0 then some (false, ⟨1, i, false⟩)
    else (fxCut (fxExp (fxMul f fxLn2)) i).map fun c => (false, c)

/-- log2 x, for x above 0 and not 1. -/
def log2Cut (d : Dy) : SpecVal :=
  let l := bitLen d.m - 1
  let e := d.e + l
  let one : Int := ((2 ^ l : Nat) : Int)
  let m : Int := d.m
  if m = one then some (e < 0, cut16 e.natAbs 0 false)
  else
    let v := e * fxOne + 2 * fxAtan false 340 ((m - one) * fxOne / (m + one)) * fxOne / fxLn2
    (fxCut v.natAbs 0).map fun c => (decide (v < 0), c)

/-- |sin(pi t)| for t in (0, 1/2], a fixed-point number. -/
def sinPiCut (t : Int) : Option Cut :=
  if 2 * t = fxOne then some ⟨1, 0, false⟩ else fxCut (fxSin (fxMul fxPi t)) 0

/-- The magnitude of a value below 2^24 modulo 2, in fixed point, and whether it is an integer. -/
def mod2 (d : Dy) : Int × Bool :=
  if 0 ≤ d.e then (if (d.m <<< d.e.toNat) % 2 = 1 then fxOne else 0, true)
  else
    let k := (-d.e).toNat
    let r := d.m % 2 ^ (k + 1)
    ((r : Int) * ((2 ^ (1024 - k) : Nat) : Int), r % 2 ^ k == 0)

/-- sin(pi x). -/
def sinCut (d : Dy) : SpecVal :=
  if 24 ≤ d.lead then some (false, ⟨0, 0, false⟩)
  else
    let (r, whole) := mod2 d
    if whole then some (false, ⟨0, 0, false⟩)
    else
      let f := r % fxOne
      (sinPiCut (min f (fxOne - f))).map fun c => (d.neg != decide (fxOne < r), c)

/-- cos(pi x). -/
def cosCut (d : Dy) : SpecVal :=
  if 24 ≤ d.lead then some (false, ⟨1, 0, false⟩)
  else
    let (r, whole) := mod2 d
    let f := r % fxOne
    if whole then some (decide (r = fxOne), ⟨1, 0, false⟩)
    else if 2 * f = fxOne then some (false, ⟨0, 0, false⟩)
    else (sinPiCut (((fxOne - 2 * f).natAbs : Int) / 2)).map fun c => (decide (fxOne ≤ r) != decide (fxOne < 2 * f), c)

/-- tanh x. -/
def tanhCut (d : Dy) : SpecVal :=
  if 3 ≤ d.lead then some (d.neg, ⟨0xFFFF, -16, true⟩)
  else
    let t : Int := if 0 ≤ d.e then ((d.m <<< d.e.toNat : Nat) : Int) * fxOne else ((d.m * 2 ^ (1024 - (-d.e).toNat) : Nat) : Int)
    (fxCut (fxSinh t * fxOne / fxCosh t) 0).map fun c => (d.neg, c)

/-- The special functions. -/
inductive SpecFn where
  | rcp | rsq | exp2 | log2 | sin | cos | tanh
deriving DecidableEq, Repr, Inhabited

/-- The value at ±0 (R38, R39). -/
def SpecFn.atZero (neg : Bool) : SpecFn → Nat × FpFlags
  | .rcp => (Fmt.f32.signed neg 0x7F800000, fDZ)
  | .rsq => (Fmt.f32.signed neg 0x7F800000, fDZ)
  | .exp2 | .cos => (0x3F800000, 0)
  | .log2 => (0xFF800000, fDZ)
  | .sin | .tanh => (Fmt.f32.signed neg 0, 0)

/-- The value at ±infinity (R38, R39). -/
def SpecFn.atInf (neg : Bool) : SpecFn → Nat × FpFlags
  | .rcp => (Fmt.f32.signed neg 0, 0)
  | .rsq => if neg then (0x7FC00000, fNV) else (0, 0)
  | .exp2 => if neg then (0, 0) else (0x7F800000, 0)
  | .log2 => if neg then (0x7FC00000, fNV) else (0x7F800000, 0)
  | .sin | .cos => (0x7FC00000, fNV)
  | .tanh => (Fmt.f32.signed neg 0x3F800000, 0)

/-- The value at a non-zero finite number. -/
def SpecFn.atFin (d : Dy) : SpecFn → SpecVal
  | .rcp => rcpCut d | .rsq => rsqCut d | .exp2 => exp2Cut d | .log2 => log2Cut d | .sin => sinCut d | .cos => cosCut d | .tanh => tanhCut d

/-- A special function on an F32 code (R38): none where the fixed-point bounds do not settle the result. -/
def SpecFn.eval (fn : SpecFn) (c : FpCtx) (x : Nat) : Option (Nat × FpFlags) :=
  match Fmt.f32.read c.daz x with
  | .nan s => some (0x7FC00000, flagIf s fNV)
  | .inf n => some (fn.atInf n)
  | .fin d =>
    if d.m = 0 then some (fn.atZero d.neg)
    else if d.neg ∧ (fn = .rsq ∨ fn = .log2) then some (0x7FC00000, fNV)
    else (fn.atFin d).map fun r => if r.2.q = 0 ∧ !r.2.lost then (0, 0) else r.2.deliver c r.1

/-- A special-function issue (R140, R152, R153): the unit serves 8 lanes per clk, and the result is written 12 clk after its last batch. An
issue that finds the unit busy waits in its split: the first plane issue is not selected until the unit is free (R197), and a later one holds
its pipe meanwhile (R199). -/
def State.special (s : State) (o : LaneUn) (fn : SpecFn) : State :=
  let key := s.grp.cx.grpid.toNat % 4
  let busy := (s.core s.curCore).sfu.getD 0 key
  if s.now < busy ∧ !s.cur.lower then (s.modSpl fun p => { p with readyAt := busy }).setFlow .stall
  else
    let s := s.modCur fun c => { c with cycles := c.cycles + (busy - s.now) }
    let batches := max 1 ((popMask s.lanes + 7) / 8)
    let t := s.laneFlagOp o.d [rdV o.a, wrV o.d] (batches - 1 + 12) fun s i =>
      packFlags 32 fun j => (fn.eval s.fpCtx (elemAt 32 j (s.readV o.a.toNat i))).getD
        (((Config.freeWord s.tick (4096 + j) i).toNat % 2 ^ 32), 0)
    if t.cur.flow = .run then t.modCore s.curCore fun k => { k with sfu := k.sfu.insert key (s.now + batches) } else t

/-- FRCP. -/
def execFrcp (o : LaneUn) (s : State) : Host.Outcome State Fault Refusal := .next (s.special o .rcp)
/-- FRSQ. -/
def execFrsq (o : LaneUn) (s : State) : Host.Outcome State Fault Refusal := .next (s.special o .rsq)
/-- FEXP2. -/
def execFexp2 (o : LaneUn) (s : State) : Host.Outcome State Fault Refusal := .next (s.special o .exp2)
/-- FLOG2. -/
def execFlog2 (o : LaneUn) (s : State) : Host.Outcome State Fault Refusal := .next (s.special o .log2)
/-- FSIN. -/
def execFsin (o : LaneUn) (s : State) : Host.Outcome State Fault Refusal := .next (s.special o .sin)
/-- FCOS. -/
def execFcos (o : LaneUn) (s : State) : Host.Outcome State Fault Refusal := .next (s.special o .cos)
/-- FTANH. -/
def execFtanh (o : LaneUn) (s : State) : Host.Outcome State Fault Refusal := .next (s.special o .tanh)

end Sys2Proof.Machine
end

