-- ==== Sys2Proof/Machine/Uniform.lean ====
section
/-! DEFINITION. The uniform scalar block, its short forms and the short mask forms (spec/04_integer_and_uniform_instructions.md R125 to
R136). -/

namespace Sys2Proof.Machine

/-! ### Shapes -/

/-- A uniform operand at a width, as a pattern. -/
def uniPat (w : Nat) (x : Word) : Nat := x.toNat % 2 ^ w
/-- A uniform operand at a type, as a value (R128). -/
def uniVal (e : Elem) (x : Word) : Int := readInt e.isSigned e.w x.toNat

/-- Two sources and an exact result that SAT may clamp (R128). -/
def State.uniFit (s : State) (d a : UReg) (b : USrc) (e : Elem) (lat : Nat) (f : Int → Int → Int) : State :=
  s.guarded s.cur.mask ([rdUw e.w a] ++ usesS e.w b ++ [wrU d]) fun s =>
    let r := elemFit e s.cur.sat (f (uniVal e (s.readU a.toNat)) (uniVal e (s.readS b)))
    s.withUniFlags r.2 fun t => t.writeU d.toNat (extU e.w e.isSigned r.1) lat

/-- Two sources and a result at the type's width, extended by the type (R126). -/
def State.uniBin (s : State) (d a : UReg) (b : USrc) (e : Elem) (lat : Nat) (f : Int → Int → Nat) : State :=
  s.uniOp d ([rdUw e.w a] ++ usesS e.w b ++ [wrU d]) lat fun s =>
    extU e.w e.isSigned (f (uniVal e (s.readU a.toNat)) (uniVal e (s.readS b)))

/-- Two sources on all 64 bits (R126). -/
def State.uniBlind (s : State) (d a : UReg) (b : USrc) (f : Word → Word → Word) : State :=
  s.uniOp d ([rdU a] ++ usesS 64 b ++ [wrU d]) 2 fun s => f (s.readU a.toNat) (s.readS b)

/-- A uniform shift (R126, R128): the result is extended as `signed` says. -/
def State.uniShift (s : State) (d a : UReg) (b : USrc) (w : Nat) (signed : Bool) (f : Nat → Nat → Nat) : State :=
  s.uniOp d ([rdUw w a] ++ usesS w b ++ [wrU d]) 2 fun s =>
    extU w signed (f (uniPat w (s.readU a.toNat)) (uniPat w (s.readS b)))

/-- One source and a count that is zero-extended (R126). -/
def State.uniCount (s : State) (o : UniUn) (f : Nat → Nat) : State :=
  s.uniOp o.d [rdUw o.e.w o.a, wrU o.d] 2 fun s => extU o.e.w false (f (uniPat o.e.w (s.readU o.a.toNat)))

/-- The quotient and the remainder (R128). -/
def divide (e : Elem) (a b : Int) : Nat × Nat :=
  if b = 0 then (2 ^ e.w - 1, wrapNat e.w a)
  else (wrapNat e.w (a.tdiv b), wrapNat e.w (a.tmod b))

/-- The divider of the issuing group's quarter (R135). -/
def State.divKey (s : State) : Nat := s.grp.cx.grpid.toNat % 4

/-- SDIV and SREM (R128, R135): an instruction that finds the divider busy waits in its split. -/
def State.uniDivide (s : State) (o : UniBin) (f : Nat × Nat → Nat) : State :=
  let busy := (s.core s.curCore).divider.getD 0 s.divKey
  if s.now < busy then (s.modSpl fun p => { p with readyAt := busy }).setFlow .stall
  else
    let t := s.uniBin o.d o.a o.b o.e 24 fun a b => f (divide o.e a b)
    if t.cur.flow = .run then t.modCore s.curCore fun k => { k with divider := k.divider.insert s.divKey (s.now + 24) } else t

/-- A uniform comparison writes SC (R129). -/
def State.uniCmp (s : State) (a : UReg) (b : USrc) (e : Elem) (c : ICond) : State :=
  s.guarded s.cur.mask ([rdUw e.w a] ++ usesS e.w b ++ [wrSc]) fun s =>
    s.writeSc (icondHolds c (uniVal e (s.readU a.toNat)) (uniVal e (s.readS b)))

/-! ### The long forms (R127) -/

/-- SADD. -/
def execSadd (o : UniBin) (s : State) : Host.Outcome State Fault Refusal := .next (s.uniFit o.d o.a o.b o.e 2 (· + ·))
/-- SSUB. -/
def execSsub (o : UniBin) (s : State) : Host.Outcome State Fault Refusal := .next (s.uniFit o.d o.a o.b o.e 2 (· - ·))
/-- SMUL. -/
def execSmul (o : UniBin) (s : State) : Host.Outcome State Fault Refusal := .next (s.uniFit o.d o.a o.b o.e 4 (· * ·))
/-- SMULH. -/
def execSmulh (o : UniBin) (s : State) : Host.Outcome State Fault Refusal := .next (s.uniBin o.d o.a o.b o.e 4 (mulHigh o.e.w))
/-- SDIV. -/
def execSdiv (o : UniBin) (s : State) : Host.Outcome State Fault Refusal := .next (s.uniDivide o (·.1))
/-- SREM. -/
def execSrem (o : UniBin) (s : State) : Host.Outcome State Fault Refusal := .next (s.uniDivide o (·.2))
/-- SAND. -/
def execSand (o : UniBin) (s : State) : Host.Outcome State Fault Refusal := .next (s.uniBlind o.d o.a o.b (· &&& ·))
/-- SOR. -/
def execSor (o : UniBin) (s : State) : Host.Outcome State Fault Refusal := .next (s.uniBlind o.d o.a o.b (· ||| ·))
/-- SXOR. -/
def execSxor (o : UniBin) (s : State) : Host.Outcome State Fault Refusal := .next (s.uniBlind o.d o.a o.b (· ^^^ ·))
/-- SNOT. -/
def execSnot (o : UniUn) (s : State) : Host.Outcome State Fault Refusal :=
  .next (s.uniOp o.d [rdU o.a, wrU o.d] 2 fun s => ~~~(s.readU o.a.toNat))
/-- SSHL. -/
def execSshl (o : UniBin) (s : State) : Host.Outcome State Fault Refusal := .next (s.uniShift o.d o.a o.b o.e.w false (shlElem o.e.w))
/-- SSHR. -/
def execSshr (o : UniBin) (s : State) : Host.Outcome State Fault Refusal := .next (s.uniShift o.d o.a o.b o.e.w false (shrElem o.e.w))
/-- SSRA. -/
def execSsra (o : UniBin) (s : State) : Host.Outcome State Fault Refusal := .next (s.uniShift o.d o.a o.b o.e.w true (sraElem o.e.w))
/-- SMIN. -/
def execSmin (o : UniBin) (s : State) : Host.Outcome State Fault Refusal := .next (s.uniBin o.d o.a o.b o.e 2 (minMaxElem o.e false))
/-- SMAX. -/
def execSmax (o : UniBin) (s : State) : Host.Outcome State Fault Refusal := .next (s.uniBin o.d o.a o.b o.e 2 (minMaxElem o.e true))
/-- SCLZ. -/
def execSclz (o : UniUn) (s : State) : Host.Outcome State Fault Refusal := .next (s.uniCount o (clz o.e.w))
/-- SCTZ. -/
def execSctz (o : UniUn) (s : State) : Host.Outcome State Fault Refusal := .next (s.uniCount o (ctz o.e.w))
/-- SPOPC. -/
def execSpopc (o : UniUn) (s : State) : Host.Outcome State Fault Refusal := .next (s.uniCount o (popcountNat o.e.w))
/-- SBFX: the control is all of sb (R118). -/
def execSbfx (o : UniTri) (s : State) : Host.Outcome State Fault Refusal :=
  .next (s.uniOp o.d [rdUw o.e.w o.a, rdU o.b, wrU o.d] 2 fun s =>
    extU o.e.w o.e.isSigned (bfxElem o.e.isSigned o.e.w (uniPat o.e.w (s.readU o.a.toNat)) (s.readU o.b.toNat)))
/-- SBFI: sd is the value inserted into, and the 32-bit result is zero-extended (R126, R128). -/
def execSbfi (o : UniTri) (s : State) : Host.Outcome State Fault Refusal :=
  .next (s.uniOp o.d [rdUw o.e.w o.a, rdU o.b, rdUw o.e.w o.d, wrU o.d] 2 fun s =>
    extU o.e.w false (bfiElem o.e.w (uniPat o.e.w (s.readU o.d.toNat)) (uniPat o.e.w (s.readU o.a.toNat)) (s.readU o.b.toNat)))
/-- SSEL (R129). -/
def execSsel (o : UniBin) (s : State) : Host.Outcome State Fault Refusal :=
  .next (s.uniOp o.d ([rdU o.a] ++ usesS 64 o.b ++ [rdSc, wrU o.d]) 2 fun s => if s.readSc then s.readU o.a.toNat else s.readS o.b)
/-- Long SCMP (R129). -/
def execScmp (o : UniCmp) (s : State) : Host.Outcome State Fault Refusal := .next (s.uniCmp o.a (.reg o.b) o.e o.cond)
/-- SMOV (R130). -/
def execSmov (o : UniMov) (s : State) : Host.Outcome State Fault Refusal :=
  .next (s.uniOp o.d (usesS 64 o.b ++ [wrU o.d]) 2 fun s => s.readS o.b)
/-- SMOVI (R130). -/
def execSmovi (o : UniMovI) (s : State) : Host.Outcome State Fault Refusal :=
  .next (s.uniOp o.d [wrU o.d] 2 fun _ => if o.signed then o.k.signExtend 64 else o.k.setWidth 64)
/-- SINSI (R130): sd is a source as well as the destination. -/
def execSinsi (o : UniIns) (s : State) : Host.Outcome State Fault Refusal :=
  .next (s.uniOp o.d [rwU o.d] 2 fun s => setElem 8 o.p.toNat (s.readU o.d.toNat) o.k.toNat)

/-! ### The short forms (R132): T = 00, type I32, SD the first source -/

/-- Short SMOV: all 64 bits. -/
def execSmovShort (o : ShU) (s : State) : Host.Outcome State Fault Refusal :=
  .next (s.uniOp o.d (usesS 64 o.b ++ [wrU o.d]) 2 fun s => s.readS o.b)
/-- Short SADD. -/
def execSaddShort (o : ShU) (s : State) : Host.Outcome State Fault Refusal := .next (s.uniFit o.d o.d o.b .i32 2 (· + ·))
/-- Short SSUB. -/
def execSsubShort (o : ShU) (s : State) : Host.Outcome State Fault Refusal := .next (s.uniFit o.d o.d o.b .i32 2 (· - ·))
/-- Short SMUL. -/
def execSmulShort (o : ShU) (s : State) : Host.Outcome State Fault Refusal := .next (s.uniFit o.d o.d o.b .i32 4 (· * ·))
/-- Short SAND: all 64 bits. -/
def execSandShort (o : ShU) (s : State) : Host.Outcome State Fault Refusal := .next (s.uniBlind o.d o.d o.b (· &&& ·))
/-- Short SOR: all 64 bits. -/
def execSorShort (o : ShU) (s : State) : Host.Outcome State Fault Refusal := .next (s.uniBlind o.d o.d o.b (· ||| ·))
/-- Short SXOR: all 64 bits. -/
def execSxorShort (o : ShU) (s : State) : Host.Outcome State Fault Refusal := .next (s.uniBlind o.d o.d o.b (· ^^^ ·))
/-- Short SSHL. -/
def execSshlShort (o : ShU) (s : State) : Host.Outcome State Fault Refusal := .next (s.uniShift o.d o.d o.b 32 false (shlElem 32))
/-- Short SSHR. -/
def execSshrShort (o : ShU) (s : State) : Host.Outcome State Fault Refusal := .next (s.uniShift o.d o.d o.b 32 false (shrElem 32))
/-- Short SSRA. -/
def execSsraShort (o : ShU) (s : State) : Host.Outcome State Fault Refusal := .next (s.uniShift o.d o.d o.b 32 true (sraElem 32))
/-- Short SMIN. -/
def execSminShort (o : ShU) (s : State) : Host.Outcome State Fault Refusal := .next (s.uniBin o.d o.d o.b .i32 2 (minMaxElem .i32 false))
/-- Short SMAX. -/
def execSmaxShort (o : ShU) (s : State) : Host.Outcome State Fault Refusal := .next (s.uniBin o.d o.d o.b .i32 2 (minMaxElem .i32 true))
/-- SMINN: type N32. -/
def execSminn (o : ShU) (s : State) : Host.Outcome State Fault Refusal := .next (s.uniBin o.d o.d o.b .n32 2 (minMaxElem .n32 false))
/-- SMAXN: type N32. -/
def execSmaxn (o : ShU) (s : State) : Host.Outcome State Fault Refusal := .next (s.uniBin o.d o.d o.b .n32 2 (minMaxElem .n32 true))

/-- The type and condition that a short SCMP's code names (R132). -/
def scondOf : SCond → Elem × ICond
  | .eq => (.i32, .eq) | .ne => (.i32, .ne) | .lt => (.i32, .lt) | .le => (.i32, .le) | .gt => (.i32, .gt) | .ge => (.i32, .ge)
  | .ltn => (.n32, .lt) | .len => (.n32, .le) | .gtn => (.n32, .gt) | .gen => (.n32, .ge)

/-- Short SCMP. -/
def execScmpShort (o : ShCmp) (s : State) : Host.Outcome State Fault Refusal :=
  .next (s.uniCmp o.a o.b (scondOf o.cond).1 (scondOf o.cond).2)

/-! ### The mask forms (R133) -/

/-- EXEC becomes a combination of it and sd[31:0]. -/
def State.maskOp (s : State) (r : UReg) (f : Mask → Mask → Mask) : State :=
  s.guarded s.cur.mask [rdUlo r] fun s => s.setExec (f s.spl.exec (maskLow (s.readU r.toNat)))

/-- MSAVE. -/
def execMsave (o : ShReg) (s : State) : Host.Outcome State Fault Refusal :=
  .next (s.uniOp o.d [wrU o.d] 2 fun s => s.spl.exec.setWidth 64)
/-- MLOAD. -/
def execMload (o : ShReg) (s : State) : Host.Outcome State Fault Refusal := .next (s.maskOp o.d fun _ x => x)
/-- MAND. -/
def execMand (o : ShReg) (s : State) : Host.Outcome State Fault Refusal := .next (s.maskOp o.d fun e x => e &&& x)
/-- MANDN. -/
def execMandn (o : ShReg) (s : State) : Host.Outcome State Fault Refusal := .next (s.maskOp o.d fun e x => e &&& ~~~x)
/-- MOR. -/
def execMor (o : ShReg) (s : State) : Host.Outcome State Fault Refusal := .next (s.maskOp o.d fun e x => e ||| x)
/-- MXOR. -/
def execMxor (o : ShReg) (s : State) : Host.Outcome State Fault Refusal := .next (s.maskOp o.d fun e x => e ^^^ x)
/-- NOP (R91). -/
def execNop (s : State) : Host.Outcome State Fault Refusal := .next s

end Sys2Proof.Machine
end

