-- ==== Sys2Proof/Machine/Dispatch.lean ====
section
/-! DEFINITION. One arm for each instruction and each event of the opcode table: the call of its meaning. -/

namespace Sys2Proof.Machine

/-- The meaning of an instruction or event. -/
def exec (i : Instr) (s : State) : Host.Outcome State Fault Refusal :=
  match i with
  | .vaddShort o => Sys2Proof.Machine.execVaddShort o s
  | .vsubShort o => Sys2Proof.Machine.execVsubShort o s
  | .vaddi o => Sys2Proof.Machine.execVaddi o s
  | .vmulShort o => Sys2Proof.Machine.execVmulShort o s
  | .vandShort o => Sys2Proof.Machine.execVandShort o s
  | .vorShort o => Sys2Proof.Machine.execVorShort o s
  | .vxorShort o => Sys2Proof.Machine.execVxorShort o s
  | .vshli o => Sys2Proof.Machine.execVshli o s
  | .vshri o => Sys2Proof.Machine.execVshri o s
  | .vsrai o => Sys2Proof.Machine.execVsrai o s
  | .vminShort o => Sys2Proof.Machine.execVminShort o s
  | .vmaxShort o => Sys2Proof.Machine.execVmaxShort o s
  | .vadds o => Sys2Proof.Machine.execVadds o s
  | .vmuls o => Sys2Proof.Machine.execVmuls o s
  | .faddShort o => Sys2Proof.Machine.execFaddShort o s
  | .fsubShort o => Sys2Proof.Machine.execFsubShort o s
  | .fmulShort o => Sys2Proof.Machine.execFmulShort o s
  | .fadds o => Sys2Proof.Machine.execFadds o s
  | .fmuls o => Sys2Proof.Machine.execFmuls o s
  | .fminShort o => Sys2Proof.Machine.execFminShort o s
  | .fmaxShort o => Sys2Proof.Machine.execFmaxShort o s
  | .ffmaShort o => Sys2Proof.Machine.execFfmaShort o s
  | .ldsShort o => Sys2Proof.Machine.execLdsShort o s
  | .stsShort o => Sys2Proof.Machine.execStsShort o s
  | .vmovsShort o => Sys2Proof.Machine.execVmovsShort o s
  | .smovShort o => Sys2Proof.Machine.execSmovShort o s
  | .saddShort o => Sys2Proof.Machine.execSaddShort o s
  | .ssubShort o => Sys2Proof.Machine.execSsubShort o s
  | .smulShort o => Sys2Proof.Machine.execSmulShort o s
  | .sandShort o => Sys2Proof.Machine.execSandShort o s
  | .sorShort o => Sys2Proof.Machine.execSorShort o s
  | .sxorShort o => Sys2Proof.Machine.execSxorShort o s
  | .sshlShort o => Sys2Proof.Machine.execSshlShort o s
  | .sshrShort o => Sys2Proof.Machine.execSshrShort o s
  | .ssraShort o => Sys2Proof.Machine.execSsraShort o s
  | .sminShort o => Sys2Proof.Machine.execSminShort o s
  | .smaxShort o => Sys2Proof.Machine.execSmaxShort o s
  | .sminn o => Sys2Proof.Machine.execSminn o s
  | .smaxn o => Sys2Proof.Machine.execSmaxn o s
  | .scmpShort o => Sys2Proof.Machine.execScmpShort o s
  | .brs o => Sys2Proof.Machine.execBrs o s
  | .msave o => Sys2Proof.Machine.execMsave o s
  | .mload o => Sys2Proof.Machine.execMload o s
  | .mand o => Sys2Proof.Machine.execMand o s
  | .mandn o => Sys2Proof.Machine.execMandn o s
  | .mor o => Sys2Proof.Machine.execMor o s
  | .mxor o => Sys2Proof.Machine.execMxor o s
  | .waitcntShort o => Sys2Proof.Machine.execWaitcntShort o s
  | .bwaitShort o => Sys2Proof.Machine.execBwaitShort o s
  | .bcloseShort o => Sys2Proof.Machine.execBcloseShort o s
  | .mwaitShort o => Sys2Proof.Machine.execMwaitShort o s
  | .nop => Sys2Proof.Machine.execNop s
  | .vadd o => Sys2Proof.Machine.execVadd o s
  | .vsub o => Sys2Proof.Machine.execVsub o s
  | .vmul o => Sys2Proof.Machine.execVmul o s
  | .vmulh o => Sys2Proof.Machine.execVmulh o s
  | .vmad o => Sys2Proof.Machine.execVmad o s
  | .vand o => Sys2Proof.Machine.execVand o s
  | .vor o => Sys2Proof.Machine.execVor o s
  | .vxor o => Sys2Proof.Machine.execVxor o s
  | .vnot o => Sys2Proof.Machine.execVnot o s
  | .vshl o => Sys2Proof.Machine.execVshl o s
  | .vshr o => Sys2Proof.Machine.execVshr o s
  | .vsra o => Sys2Proof.Machine.execVsra o s
  | .vrot o => Sys2Proof.Machine.execVrot o s
  | .vmin o => Sys2Proof.Machine.execVmin o s
  | .vmax o => Sys2Proof.Machine.execVmax o s
  | .vabs o => Sys2Proof.Machine.execVabs o s
  | .vneg o => Sys2Proof.Machine.execVneg o s
  | .vclz o => Sys2Proof.Machine.execVclz o s
  | .vpopc o => Sys2Proof.Machine.execVpopc o s
  | .vbrev o => Sys2Proof.Machine.execVbrev o s
  | .vbfx o => Sys2Proof.Machine.execVbfx o s
  | .vbfi o => Sys2Proof.Machine.execVbfi o s
  | .vsel o => Sys2Proof.Machine.execVsel o s
  | .vcmp o => Sys2Proof.Machine.execVcmp o s
  | .vcmpv o => Sys2Proof.Machine.execVcmpv o s
  | .vmov o => Sys2Proof.Machine.execVmov o s
  | .vmovs o => Sys2Proof.Machine.execVmovs o s
  | .vidx o => Sys2Proof.Machine.execVidx o s
  | .vpack o => Sys2Proof.Machine.execVpack o s
  | .vunpk o => Sys2Proof.Machine.execVunpk o s
  | .fadd o => Sys2Proof.Machine.execFadd o s
  | .fsub o => Sys2Proof.Machine.execFsub o s
  | .fmul o => Sys2Proof.Machine.execFmul o s
  | .ffma o => Sys2Proof.Machine.execFfma o s
  | .fmin o => Sys2Proof.Machine.execFmin o s
  | .fmax o => Sys2Proof.Machine.execFmax o s
  | .fabs o => Sys2Proof.Machine.execFabs o s
  | .fneg o => Sys2Proof.Machine.execFneg o s
  | .fcmp o => Sys2Proof.Machine.execFcmp o s
  | .fcmpv o => Sys2Proof.Machine.execFcmpv o s
  | .fclass o => Sys2Proof.Machine.execFclass o s
  | .fscale o => Sys2Proof.Machine.execFscale o s
  | .frnd o => Sys2Proof.Machine.execFrnd o s
  | .fcvt o => Sys2Proof.Machine.execFcvt o s
  | .icvt o => Sys2Proof.Machine.execIcvt o s
  | .ftoi o => Sys2Proof.Machine.execFtoi o s
  | .fdot o => Sys2Proof.Machine.execFdot o s
  | .frcp o => Sys2Proof.Machine.execFrcp o s
  | .frsq o => Sys2Proof.Machine.execFrsq o s
  | .fexp2 o => Sys2Proof.Machine.execFexp2 o s
  | .flog2 o => Sys2Proof.Machine.execFlog2 o s
  | .fsin o => Sys2Proof.Machine.execFsin o s
  | .fcos o => Sys2Proof.Machine.execFcos o s
  | .ftanh o => Sys2Proof.Machine.execFtanh o s
  | .vshf o => Sys2Proof.Machine.execVshf o s
  | .vshfi o => Sys2Proof.Machine.execVshfi o s
  | .qswp o => Sys2Proof.Machine.execQswp o s
  | .qbc o => Sys2Proof.Machine.execQbc o s
  | .vbal o => Sys2Proof.Machine.execVbal o s
  | .vvote o => Sys2Proof.Machine.execVvote o s
  | .vred o => Sys2Proof.Machine.execVred o s
  | .vscan o => Sys2Proof.Machine.execVscan o s
  | .vconf o => Sys2Proof.Machine.execVconf o s
  | .visect o => Sys2Proof.Machine.execVisect o s
  | .vtopk o => Sys2Proof.Machine.execVtopk o s
  | .vmrank o => Sys2Proof.Machine.execVmrank o s
  | .ld o => Sys2Proof.Machine.execLd o s
  | .st o => Sys2Proof.Machine.execSt o s
  | .lds o => Sys2Proof.Machine.execLds o s
  | .sts o => Sys2Proof.Machine.execSts o s
  | .ldc o => Sys2Proof.Machine.execLdc o s
  | .stc o => Sys2Proof.Machine.execStc o s
  | .atom o => Sys2Proof.Machine.execAtom o s
  | .atoms o => Sys2Proof.Machine.execAtoms o s
  | .atomc o => Sys2Proof.Machine.execAtomc o s
  | .ldf o => Sys2Proof.Machine.execLdf o s
  | .radd o => Sys2Proof.Machine.execRadd o s
  | .rmin o => Sys2Proof.Machine.execRmin o s
  | .rmax o => Sys2Proof.Machine.execRmax o s
  | .ror o => Sys2Proof.Machine.execRor o s
  | .rwo o => Sys2Proof.Machine.execRwo o s
  | .rarr o => Sys2Proof.Machine.execRarr o s
  | .rget o => Sys2Proof.Machine.execRget o s
  | .cradd o => Sys2Proof.Machine.execCradd o s
  | .crrd o => Sys2Proof.Machine.execCrrd o s
  | .mma o => Sys2Proof.Machine.execMma o s
  | .oadd o => Sys2Proof.Machine.execOadd o s
  | .mld o => Sys2Proof.Machine.execMld o s
  | .mst o => Sys2Proof.Machine.execMst o s
  | .mzero o => Sys2Proof.Machine.execMzero o s
  | .hpack o => Sys2Proof.Machine.execHpack o s
  | .msts o => Sys2Proof.Machine.execMsts o s
  | .plsetv o => Sys2Proof.Machine.execPlsetv o s
  | .plget o => Sys2Proof.Machine.execPlget o s
  | .sadd o => Sys2Proof.Machine.execSadd o s
  | .ssub o => Sys2Proof.Machine.execSsub o s
  | .smul o => Sys2Proof.Machine.execSmul o s
  | .smulh o => Sys2Proof.Machine.execSmulh o s
  | .sdiv o => Sys2Proof.Machine.execSdiv o s
  | .srem o => Sys2Proof.Machine.execSrem o s
  | .sand o => Sys2Proof.Machine.execSand o s
  | .sor o => Sys2Proof.Machine.execSor o s
  | .sxor o => Sys2Proof.Machine.execSxor o s
  | .snot o => Sys2Proof.Machine.execSnot o s
  | .sshl o => Sys2Proof.Machine.execSshl o s
  | .sshr o => Sys2Proof.Machine.execSshr o s
  | .ssra o => Sys2Proof.Machine.execSsra o s
  | .smin o => Sys2Proof.Machine.execSmin o s
  | .smax o => Sys2Proof.Machine.execSmax o s
  | .sclz o => Sys2Proof.Machine.execSclz o s
  | .sctz o => Sys2Proof.Machine.execSctz o s
  | .spopc o => Sys2Proof.Machine.execSpopc o s
  | .sbfx o => Sys2Proof.Machine.execSbfx o s
  | .sbfi o => Sys2Proof.Machine.execSbfi o s
  | .ssel o => Sys2Proof.Machine.execSsel o s
  | .scmp o => Sys2Proof.Machine.execScmp o s
  | .smov o => Sys2Proof.Machine.execSmov o s
  | .smovi o => Sys2Proof.Machine.execSmovi o s
  | .sinsi o => Sys2Proof.Machine.execSinsi o s
  | .sld o => Sys2Proof.Machine.execSld o s
  | .sst o => Sys2Proof.Machine.execSst o s
  | .satom o => Sys2Proof.Machine.execSatom o s
  | .br o => Sys2Proof.Machine.execBr o s
  | .brd o => Sys2Proof.Machine.execBrd o s
  | .jmp o => Sys2Proof.Machine.execJmp o s
  | .jmpr o => Sys2Proof.Machine.execJmpr o s
  | .call o => Sys2Proof.Machine.execCall o s
  | .callr o => Sys2Proof.Machine.execCallr o s
  | .ret o => Sys2Proof.Machine.execRet o s
  | .loop o => Sys2Proof.Machine.execLoop o s
  | .lbreak o => Sys2Proof.Machine.execLbreak o s
  | .rcv o => Sys2Proof.Machine.execRcv o s
  | .rcvw o => Sys2Proof.Machine.execRcvw o s
  | .exit => Sys2Proof.Machine.execExit s
  | .trap o => Sys2Proof.Machine.execTrap o s
  | .tret => Sys2Proof.Machine.execTret s
  | .plset o => Sys2Proof.Machine.execPlset o s
  | .plmask o => Sys2Proof.Machine.execPlmask o s
  | .mskop o => Sys2Proof.Machine.execMskop o s
  | .qhlp => Sys2Proof.Machine.execQhlp s
  | .waitcnt o => Sys2Proof.Machine.execWaitcnt o s
  | .bclose o => Sys2Proof.Machine.execBclose o s
  | .bwait o => Sys2Proof.Machine.execBwait o s
  | .mwait o => Sys2Proof.Machine.execMwait o s
  | .bar o => Sys2Proof.Machine.execBar o s
  | .cbar o => Sys2Proof.Machine.execCbar o s
  | .barv o => Sys2Proof.Machine.execBarv o s
  | .bwaitp o => Sys2Proof.Machine.execBwaitp o s
  | .fence o => Sys2Proof.Machine.execFence o s
  | .fencee => Sys2Proof.Machine.execFencee s
  | .waita o => Sys2Proof.Machine.execWaita o s
  | .arrst o => Sys2Proof.Machine.execArrst o s
  | .rflush => Sys2Proof.Machine.execRflush s
  | .mbsend o => Sys2Proof.Machine.execMbsend o s
  | .mbrecv o => Sys2Proof.Machine.execMbrecv o s
  | .mbpush o => Sys2Proof.Machine.execMbpush o s
  | .mbpop o => Sys2Proof.Machine.execMbpop o s
  | .mbsteal o => Sys2Proof.Machine.execMbsteal o s
  | .sleep o => Sys2Proof.Machine.execSleep o s
  | .ltile o => Sys2Proof.Machine.execLtile o s
  | .lgath o => Sys2Proof.Machine.execLgath o s
  | .lscat o => Sys2Proof.Machine.execLscat o s
  | .lcbld o => Sys2Proof.Machine.execLcbld o s
  | .tsend o => Sys2Proof.Machine.execTsend o s
  | .sload o => Sys2Proof.Machine.execSload o s
  | .sstore o => Sys2Proof.Machine.execSstore o s
  | .ckpt o => Sys2Proof.Machine.execCkpt o s
  | .spec o => Sys2Proof.Machine.execSpec o s
  | .spcommit o => Sys2Proof.Machine.execSpcommit o s
  | .spdrop o => Sys2Proof.Machine.execSpdrop o s
  | .tfset o => Sys2Proof.Machine.execTfset o s
  | .arrinit o => Sys2Proof.Machine.execArrinit o s
  | .crclr o => Sys2Proof.Machine.execCrclr o s
  | .mclr o => Sys2Proof.Machine.execMclr o s
  | .hprobe o => Sys2Proof.Machine.execHprobe o s
  | .hins o => Sys2Proof.Machine.execHins o s
  | .hdel o => Sys2Proof.Machine.execHdel o s
  | .hadv o => Sys2Proof.Machine.execHadv o s
  | .hswap o => Sys2Proof.Machine.execHswap o s
  | .hfence o => Sys2Proof.Machine.execHfence o s
  | .hstat o => Sys2Proof.Machine.execHstat o s
  | .hbind o => Sys2Proof.Machine.execHbind o s
  | .getsr o => Sys2Proof.Machine.execGetsr o s
  | .setsr o => Sys2Proof.Machine.execSetsr o s
  | .pour o => Sys2Proof.Machine.execPour o s
  | .dgon o => Sys2Proof.Machine.execDgon o s
  | .dgoff => Sys2Proof.Machine.execDgoff s
  | .dgfold o => Sys2Proof.Machine.execDgfold o s
  | .dgchk o => Sys2Proof.Machine.execDgchk o s
  | .yield => Sys2Proof.Machine.execYield s
  | .trapEntry g e => Sys2Proof.Machine.execTrapEntry g e s
  | .splitMerge g e f => Sys2Proof.Machine.execSplitMerge g e f s
  | .splitPromotion g e => Sys2Proof.Machine.execSplitPromotion g e s
  | .rcvwTimeout g e => Sys2Proof.Machine.execRcvwTimeout g e s
  | .sleepExpiry g e => Sys2Proof.Machine.execSleepExpiry g e s
  | .waitaTimeout g e => Sys2Proof.Machine.execWaitaTimeout g e s
  | .loadCompletion g k => Sys2Proof.Machine.execLoadCompletion g k s
  | .ladlePiece core k j => Sys2Proof.Machine.execLadlePiece core k j s
  | .matrixOpStart core => Sys2Proof.Machine.execMatrixOpStart core s
  | .matrixOpCompletion core => Sys2Proof.Machine.execMatrixOpCompletion core s
  | .castWindowMessage g k j => Sys2Proof.Machine.execCastWindowMessage g k j s
  | .castWindowReply g k j => Sys2Proof.Machine.execCastWindowReply g k j s
  | .mailboxOperation core m => Sys2Proof.Machine.execMailboxOperation core m s
  | .coreClockGate core => Sys2Proof.Machine.execCoreClockGate core s
  | .coreWake core why => Sys2Proof.Machine.execCoreWake core why s
  | .groupUnpark g => Sys2Proof.Machine.execGroupUnpark g s
  | .forcedPark g => Sys2Proof.Machine.execForcedPark g s
  | .placementDecision die => Sys2Proof.Machine.execPlacementDecision die s
  | .drainReservation die => Sys2Proof.Machine.execDrainReservation die s
  | .launchTake q => Sys2Proof.Machine.execLaunchTake q s
  | .launchStart => Sys2Proof.Machine.execLaunchStart s
  | .priorityAging l => Sys2Proof.Machine.execPriorityAging l s
  | .blockPreempt b => Sys2Proof.Machine.execBlockPreempt b s
  | .dieEndReport die l => Sys2Proof.Machine.execDieEndReport die l s
  | .completionArrival die l => Sys2Proof.Machine.execCompletionArrival die l s
  | .pageWalk core asid va => Sys2Proof.Machine.execPageWalk core asid va s
  | .staleAccessRetry core asid va => Sys2Proof.Machine.execStaleAccessRetry core asid va s
  | .faultQueueAppend die k => Sys2Proof.Machine.execFaultQueueAppend die k s
  | .cacheLineFetch c line => Sys2Proof.Machine.execCacheLineFetch c line s
  | .cacheLineDrop c line => Sys2Proof.Machine.execCacheLineDrop c line s
  | .cacheWriteBack c byte => Sys2Proof.Machine.execCacheWriteBack c byte s
  | .bucketInsert die k => Sys2Proof.Machine.execBucketInsert die k s
  | .bucketDelete die k => Sys2Proof.Machine.execBucketDelete die k s
  | .bucketSnapshot die k => Sys2Proof.Machine.execBucketSnapshot die k s
  | .riddleCommandCompletion die k => Sys2Proof.Machine.execRiddleCommandCompletion die k s
  | .raddPacket p => Sys2Proof.Machine.execRaddPacket p s
  | .rminPacket p => Sys2Proof.Machine.execRminPacket p s
  | .rmaxPacket p => Sys2Proof.Machine.execRmaxPacket p s
  | .rorPacket p => Sys2Proof.Machine.execRorPacket p s
  | .rwoPacket p => Sys2Proof.Machine.execRwoPacket p s
  | .rarrPacket p => Sys2Proof.Machine.execRarrPacket p s
  | .craddPacket p => Sys2Proof.Machine.execCraddPacket p s
  | .rgetRequest p => Sys2Proof.Machine.execRgetRequest p s
  | .rgetReply p => Sys2Proof.Machine.execRgetReply p s
  | .ladlePiecePacket p => Sys2Proof.Machine.execLadlePiecePacket p s
  | .tsendSignal p => Sys2Proof.Machine.execTsendSignal p s
  | .checkpointFrame p => Sys2Proof.Machine.execCheckpointFrame p s
  | .checkpointMark p => Sys2Proof.Machine.execCheckpointMark p s
  | .arrinitPacket p => Sys2Proof.Machine.execArrinitPacket p s
  | .crclrPacket p => Sys2Proof.Machine.execCrclrPacket p s
  | .mclrPacket p => Sys2Proof.Machine.execMclrPacket p s
  | .waitaWatch p => Sys2Proof.Machine.execWaitaWatch p s
  | .arrstRead p => Sys2Proof.Machine.execArrstRead p s
  | .responseAcknowledged p => Sys2Proof.Machine.execResponseAcknowledged p s
  | .responseRetryLater p => Sys2Proof.Machine.execResponseRetryLater p s
  | .responseStale p => Sys2Proof.Machine.execResponseStale p s
  | .responseReject p => Sys2Proof.Machine.execResponseReject p s
  | .responseLineAnswer p => Sys2Proof.Machine.execResponseLineAnswer p s
  | .retransmitTimeout p => Sys2Proof.Machine.execRetransmitTimeout p s
  | .frameReceive port f => Sys2Proof.Machine.execFrameReceive port f s
  | .nvmeCompletion pair entry => Sys2Proof.Machine.execNvmeCompletion pair entry s
  | .checkpointCut die => Sys2Proof.Machine.execCheckpointCut die s
  | .checkpointStream die => Sys2Proof.Machine.execCheckpointStream die s
  | .dbellWrite core => Sys2Proof.Machine.execDbellWrite core s
  | .qdoorWrite q => Sys2Proof.Machine.execQdoorWrite q s
  | .mailboxClr core m => Sys2Proof.Machine.execMailboxClr core m s
  | .gensetWrite die v => Sys2Proof.Machine.execGensetWrite die v s
  | .gensetComplete die => Sys2Proof.Machine.execGensetComplete die s
  | .fltdoneWrite die v => Sys2Proof.Machine.execFltdoneWrite die v s
  | .hslotUnbind die n => Sys2Proof.Machine.execHslotUnbind die n s
  | .preemptGo die pour => Sys2Proof.Machine.execPreemptGo die pour s
  | .preemptHold die pour => Sys2Proof.Machine.execPreemptHold die pour s
  | .preemptRelease die pour => Sys2Proof.Machine.execPreemptRelease die pour s
  | .hflushWrite die v => Sys2Proof.Machine.execHflushWrite die v s
  | .hflushComplete die => Sys2Proof.Machine.execHflushComplete die s
  | .watchArm w v => Sys2Proof.Machine.execWatchArm w v s
  | .dieDrain die => Sys2Proof.Machine.execDieDrain die s
  | .dieUndrain die => Sys2Proof.Machine.execDieUndrain die s
  | .firmwareSwitch die => Sys2Proof.Machine.execFirmwareSwitch die s
  | .linkWithdraw die links => Sys2Proof.Machine.execLinkWithdraw die links s
  | .splitModeWrite die v => Sys2Proof.Machine.execSplitModeWrite die v s
  | .modeChangeEffect die n => Sys2Proof.Machine.execModeChangeEffect die n s
  | .plcoreWrite die v => Sys2Proof.Machine.execPlcoreWrite die v s
  | .errverdWrite die v => Sys2Proof.Machine.execErrverdWrite die v s
  | .registerWrite die off v => Sys2Proof.Machine.execRegisterWrite die off v s
  | .hostApertureAccess endpoint off data => Sys2Proof.Machine.execHostApertureAccess endpoint off data s
  | .softError u fatal => Sys2Proof.Machine.execSoftError u fatal s
  | .scrub addr => Sys2Proof.Machine.execScrub addr s
  | .selfTest u pass => Sys2Proof.Machine.execSelfTest u pass s
  | .linkStateChange port up => Sys2Proof.Machine.execLinkStateChange port up s
  | .serviceLevelRise => Sys2Proof.Machine.execServiceLevelRise s
  | .thermalStep die up => Sys2Proof.Machine.execThermalStep die up s
  | .fixedLatencyResult g k => Sys2Proof.Machine.execFixedLatencyResult g k s
  | .meshPacketDrop p resp => Sys2Proof.Machine.execMeshPacketDrop p resp s
  | .dieReset die => Sys2Proof.Machine.execDieReset die s
  | .packageReset => Sys2Proof.Machine.execPackageReset s
  | .pcieLinkStateChange endpoint up => Sys2Proof.Machine.execPcieLinkStateChange endpoint up s

end Sys2Proof.Machine
end

