-- ==== Sys2Proof/Machine/Sched.lean ====
section
/-! DEFINITION. Who acts next. The agenda names turns ahead of the default order (log 2); in the default order one event of the part has its turn
in each clk, then come the issue decisions: splits that reach RCV or RCVW wait there, splits merge, waits at RCV and RCVW complete
(spec/02_group_and_lanes.md R62; spec/06_control_planes_and_traps.md R177), each quarter selects instructions
(spec/07_core_issue_pool_and_mailboxes.md R196 to R199); then the clk passes. -/

namespace Sys2Proof.Machine

/-- What the default order can choose: an event of the part, the performance of a piece, or an issue decision. A packet's arrival is named with
its opcode and a response with its code. -/
inductive Auto where
  | issue (gid ent : Nat)
  | receive (gid ent : Nat)
  | cacheWriteBack (c : CacheId) (word : Nat)
  | perform (gid acc piece : Nat)
  | trapEntry (gid ent : Nat)
  | splitMerge (gid ent other : Nat)
  | splitPromotion (gid ent : Nat)
  | loadCompletion (gid acc : Nat)
  | castWindowMessage (gid acc piece : Nat)
  | castWindowReply (gid acc piece : Nat)
  | fixedLatencyResult (gid k : Nat)
  | faultQueueAppend (die k : Nat)
  | groupUnpark (gid : Nat)
  | forcedPark (gid : Nat)
  | mailboxOperation (core box : Nat)
  | ladlePiece (core k j : Nat)
  | matrixOpStart (core : Nat)
  | matrixOpCompletion (core : Nat)
  | coreClockGate (core : Nat)
  | bucketInsert (die k : Nat)
  | bucketDelete (die k : Nat)
  | bucketSnapshot (die k : Nat)
  | riddleCommandCompletion (die k : Nat)
  | gensetComplete (die : Nat)
  | hflushComplete (die : Nat)
  | modeChangeEffect (die n : Nat)
  | checkpointCut (die : Nat)
  | checkpointStream (die : Nat)
  | arrival (op n : Nat)
  | response (code n : Nat)
  | retransmitTimeout (n : Nat)
  | launchTake (q : Nat)
  | launchStart
  | dieEndReport (die l : Nat)
  | completionArrival (die l : Nat)
  | placementDecision (die : Nat)
  | drainReservation (die : Nat)
  | blockPreempt (b : Nat)
deriving DecidableEq, Repr, Inhabited

/-- What comes next: a turn that the agenda names, or one of the default order's. -/
inductive Act where
  | named (t : Turn)
  | auto (a : Auto)
  | tick
deriving DecidableEq, Repr, Inhabited

/-! ### Selection (R196 to R199) -/

/-- Whether candidate a is selected before candidate b of the same pipe (R198); the remaining plane issues of an instruction need no selection (R199). -/
def Cand.before (a b : Cand) : Bool :=
  if a.mid != b.mid then a.mid
  else if a.promoted != b.promoted then a.promoted
  else if a.promoted && a.since != b.since then decide (a.since < b.since)
  else if a.prio != b.prio then decide (b.prio < a.prio)
  else if a.last != b.last then decide (a.last < b.last)
  else if a.slot != b.slot then decide (a.slot < b.slot)
  else decide (a.ent < b.ent)

/-- Whether two candidates are of one quarter. -/
def Cand.sameQuarter (a b : Cand) : Bool := a.core == b.core && a.quarter == b.quarter

/-- The selection in the first quarter that has a candidate: the first by R198 of all its candidates, which is also the first of its pipe. Its
pipe is then taken, its group has issued in this clk, and the other pipe selects from the candidates that are left. -/
def State.issueTurn (s : State) : Option Auto :=
  match s.groups.flatMap fun p => s.candsOf p.1 p.2 with
  | [] => none
  | c :: cs =>
    let best := (cs.filter c.sameQuarter).foldl (fun b x => if x.before b then x else b) c
    some (Auto.issue best.gid best.ent)

/-- Whether a READY split has reached an RCV or RCVW, which is evaluated at each issue decision, whatever the pipes do (R177). -/
def State.reaches (s : State) (g : Group) (p : Split) : Bool :=
  p.st == .ready && decide (p.readyAt ≤ s.clk) && p.atStart && s.decides g && s.atReceive g p

/-- A split that comes to an RCV or RCVW in this clk. -/
def State.reachTurn (s : State) : Option Auto :=
  s.groups.findSome? fun g => g.2.splits.findSome? fun p => if s.reaches g.2 p.2 then some (Auto.issue g.1 p.1) else none

/-- Whether the wait of a split at RCV or RCVW completes at this issue decision: its lanes are there, or its expiry has come, and the uniform pipe
is free, and no split is to merge with it first (R177, R178). -/
def State.receives (s : State) (gid : Nat) (g : Group) (e : Nat) (p : Split) : Bool :=
  match p.st with
  | .waiting (.rcv x m) => s.decides g && s.waitOver gid e (.rcv x m) && !s.mergesFirst gid e (.rcv x m) && s.pipeFree gid true && decide (p.readyAt ≤ s.clk)
  | _ => false

/-- A split whose wait at RCV or RCVW completes in this clk. -/
def State.receiveTurn (s : State) : Option Auto :=
  s.groups.findSome? fun g => g.2.splits.findSome? fun p => if s.receives g.1 g.2 p.1 p.2 then some (Auto.receive g.1 p.1) else none

/-- Whether two candidates are of one pipe. -/
def Cand.samePipe (a b : Cand) : Bool := a.sameQuarter b && a.uni == b.uni

/-- The candidate of a split, if the quarter can select it in this clk. -/
def State.candOf (s : State) (gid e : Nat) : Option Cand :=
  match s.groups.find? gid with
  | none => none
  | some g => (s.candsOf gid g).find? fun c => c.ent == e

/-- Whether no candidate of its pipe comes before one (R198). -/
def State.isFirst (s : State) (c : Cand) : Bool :=
  !((s.groups.flatMap fun g => s.candsOf g.1 g.2).any fun x => x.samePipe c && x.before c)

/-- Whether an issue decision may choose a split: it is the first candidate of its pipe (R198), or it has reached an RCV or RCVW (R177). -/
def State.mayIssue (s : State) (gid e : Nat) : Bool :=
  (s.candOf gid e).any s.isFirst
  || (match s.groups.find? gid with
    | none => false
    | some g => (g.splits.find? e).any (s.reaches g))

/-- Two splits that merge at this issue decision (R62). -/
def State.mergeTurn (s : State) : Option Auto :=
  s.groups.findSome? fun g => g.2.splits.findSome? fun p => g.2.splits.findSome? fun q =>
    if p.1 < q.1 ∧ (s.mayMerge g.1 p.1 q.1).isSome then some ((Auto.splitMerge g.1 p.1 q.1)) else none

/-! ### What the part has to do -/

/-- The turns of a group's accesses. -/
def State.accessTurns (s : State) (gid : Nat) (g : Group) : List Auto :=
  g.accs.flatMap fun a =>
    let pieces := a.2.pieces.zipIdx.flatMap fun p => match p.1.st with
      | .sent => if remotePiece g a.2 p.1 then
            if p.1.msg.isNone ∨ a.2.dst = .phase ∧ (s.block g.cx.blk).stopping then [] else [(Auto.castWindowMessage gid a.1 p.2)]
          else if s.pieceReady g a.1 p.2 then [(Auto.perform gid a.1 p.2)] else []
      | .served _ _ _ => [(Auto.castWindowReply gid a.1 p.2)]
      | .ready .. => []
    let ready (p : Piece) : Bool := match p.st with | .ready .. => true | _ => false
    pieces ++ if a.2.counts ∧ a.2.pieces.all ready then [(Auto.loadCompletion gid a.1)] else []

/-- The turns of a group's splits and of the group itself. -/
def State.groupTurns (s : State) (gid : Nat) (g : Group) : List Auto :=
  let d := dieOfCore g.cx.core
  (match g.handler, g.firstTrapped with
    | none, some (e, _) => if g.latePending s.clk (g.split e).owned then [] else [(Auto.trapEntry gid e)]
    | _, _ => [])
  ++ (g.late.zipIdx.filterMap fun l => if l.1.land ≤ s.clk then some ((Auto.fixedLatencyResult gid l.2)) else none)
  ++ (g.splits.filterMap fun p => match p.2.st with
    | .faulted _ [] .. => some ((Auto.faultQueueAppend d (4 * gid + p.1)))
    | .ready => if p.2.candAt + 256 ≤ s.clk ∧ !p.2.promoted ∧ g.resident then some ((Auto.splitPromotion gid p.1)) else none
    | _ => none)
  ++ (if !g.resident ∧ !g.ended ∧ g.firedAt.isSome then [(Auto.groupUnpark gid), (Auto.forcedPark gid)] else [])

/-- The turns of a core's ladle, engine and clock. -/
def State.coreTurns (s : State) (c : Nat) (k : Core) : List Auto :=
  (k.ladle.filterMap fun m => ((List.range m.2.pieceCount).find? fun j => !m.2.done.contains j && (m.2.blocked.find? j).isNone).map fun j =>
    (Auto.ladlePiece c m.1 j))
  ++ (if k.running.isSome then [(Auto.matrixOpCompletion c)] else if k.engine.isEmpty then [] else [(Auto.matrixOpStart c)])
  ++ (if !k.gated ∧ k.idleFrom + 16 ≤ s.clk ∧ s.coreIdle c then [(Auto.coreClockGate c)] else [])

/-- The turns of a die's riddle, and of what its controller has begun. -/
def dieTurns (d : Nat) (x : Die) : List Auto :=
  (x.riddle.filterMap fun c =>
    if c.2.blocked.isSome then none
    else if c.2.total ≤ c.2.step then some ((Auto.riddleCommandCompletion d c.1))
    else match c.2.op with
      | .probe => some ((Auto.bucketSnapshot d c.1))
      | .insert _ => some ((Auto.bucketInsert d c.1))
      | .delete _ => some ((Auto.bucketDelete d c.1))
      | .advance _ => some ((Auto.riddleCommandCompletion d c.1)))
  ++ (if x.genset.isSome then [(Auto.gensetComplete d)] else [])
  ++ (if x.hflush.isSome then [(Auto.hflushComplete d)] else [])
  ++ ((List.range 7).filterMap fun n => if x.pend.getLsbD n then some ((Auto.modeChangeEffect d n)) else none)
  ++ (if x.streams.any fun p => !p.2.cut then [(Auto.checkpointCut d)] else [])
  ++ (if x.streams.any fun p => p.2.cut && decide (p.2.next < p.2.total) then [(Auto.checkpointStream d)] else [])

/-- The turns of a packet. -/
def State.packetTurns (s : State) (n : Nat) (p : Packet) : List Auto :=
  let here := p.sdie.isNone || nodeOf p.target == s.nodeId (p.sdie.getD 0)
  let waits := p.op == 0x30 && !s.lineEnds (paOf p.target) && (s.turnedAway p).isNone
  (if p.copies ≠ 0 ∧ here ∧ !waits ∧ s.memReady (paOf p.target) then [(Auto.arrival p.op n)] else [])
  ++ match p.status, p.sdie with
    | none, some d => match p.resps with
      | r :: _ => [(Auto.response r.code n)]
      | [] => if (p.attempts = 0 ∧ s.mayLeave p) ∨ (p.attempts ≠ 0 ∧ p.sentAt + p.mult * s.rtTimeout d ≤ s.clk) then [(Auto.retransmitTimeout n)] else []
    | _, _ => []

/-- The turns of the dispatcher and of the dies' placement. -/
def State.launchTurns (s : State) : List Auto :=
  (s.tails.filterMap fun q =>
    let head := s.homeN (queueBase (s.qcfg q.1)) 8
    if q.1 < 32 ∧ head < s.tailOf q.1 head then some ((Auto.launchTake q.1)) else none)
  ++ (if s.candidates.isEmpty then [] else [Auto.launchStart])
  ++ (s.launches.flatMap fun l => l.2.dies.filterMap fun d =>
    if l.2.started ∧ !l.2.ended ∧ !l.2.reported.contains d ∧ !s.workLeft l.1 d then some ((Auto.dieEndReport d l.1))
    else if l.2.ended ∧ !l.2.arrived.contains d then some ((Auto.completionArrival d l.1))
    else none)
  ++ (((s.launches.flatMap fun l => l.2.ranges.map (·.1)) ++ s.saved.map (·.2.die)).eraseDups.flatMap fun d =>
    [(Auto.placementDecision d), (Auto.drainReservation d)])
  ++ s.blocks.filterMap fun b => if s.blockLive b.2 && (b.2.stopping || b.2.asked || s.mustStop b.1 b.2) then some ((Auto.blockPreempt b.1)) else none

/-- The write-backs that a cache has to make: of the first dirty byte of each line (R309). -/
def lineTurns (c : CacheId) (lines : Tab Line) : List Auto :=
  lines.filterMap fun l => if l.2.dirty = 0 then none
    else ((List.range 64).find? fun k => l.2.dirty.getLsbD k).map fun k => Auto.cacheWriteBack c (64 * l.1 + k)

/-- Everything that the part itself has to do. -/
def State.background (s : State) : List Auto :=
  (s.groups.flatMap fun g => s.accessTurns g.1 g.2 ++ s.groupTurns g.1 g.2)
  ++ (s.mbreqs.map fun r => (Auto.mailboxOperation r.2.core r.2.box))
  ++ (s.cores.flatMap fun c => s.coreTurns c.1 c.2)
  ++ (s.dies.flatMap fun d => dieTurns d.1 d.2)
  ++ (s.packets.flatMap fun p => s.packetTurns p.1 p.2)
  ++ s.launchTurns
  ++ (s.cores.flatMap fun c => lineTurns (.l1 c.1) c.2.l1)
  ++ (s.clusters.flatMap fun c => lineTurns (.cc c.1) c.2.cc)

/-- The event of the part that has its turn in this clk: each in turn as the clk pass. -/
def State.backgroundTurn (s : State) : Option Auto :=
  let l := s.background
  l[s.clk % max l.length 1]?

/-- The next choice of the issue decisions of this clk: splits that reach RCV or RCVW wait there, splits merge, waits at RCV and RCVW complete, and
the pipes select (R62, R177, R198). -/
def State.decision (s : State) : Option Auto :=
  (((s.reachTurn).orElse fun _ => s.mergeTurn).orElse fun _ => s.receiveTurn).orElse fun _ => s.issueTurn

/-- Whether an event comes after the issue decisions of its clk: a message, which is served after what the owning core issues in that clk (R295). -/
def Auto.afterIssue : Auto → Bool
  | .castWindowMessage .. => true
  | _ => false

/-- The next turn: the head of the agenda, or the default order's. -/
def State.nextTurn (s : State) : State × Act :=
  match s.agenda with
  | t :: ts => ({ s with agenda := ts }, .named t)
  | [] =>
    let b := if s.served then none else s.backgroundTurn
    match (if b.any Auto.afterIssue then s.decision else none).orElse fun _ => b with
    | some a => ({ s with served := s.served || some a == b }, .auto a)
    | none => match s.decision with
      | some a => (s, .auto a)
      | none => (s, .tick)

/-! ### The turns -/

/-- Whether a row of the opcode table is an event and not an instruction. -/
def isEvent (i : Instr) : Bool := i.toRaw.isNone

/-- The turn of an event: its meaning, outside any issue. -/
def State.eventTurn (ex : Meaning) (s : State) (i : Instr) : Host.Outcome State Fault Refusal :=
  if isEvent i then
    match ex i s with
    | .next t => .next t.tickOn
    | r => r
  else .next s.tickOn

/-- Whether a piece of an access names a DEVICE register, or travels as a message. -/
def State.pieceAt (s : State) (gid n j : Nat) : Option (Acc × Piece) :=
  ((s.group gid).accs.find? n).bind fun a => (a.pieces[j]?).map fun p => (a, p)

/-- The turn of a piece of an access: it is performed at its own core, cluster, home or register. -/
def State.performTurn (s : State) (gid n j : Nat) : Host.Outcome State Fault Refusal :=
  match s.pieceAt gid n j with
  | none => .next s.tickOn
  | some (a, p) =>
    if remotePiece (s.group gid) a p then .next s.tickOn
    else if p.dev then match s.performDevice gid n j with
      | some t => .next t.tickOn
      | none => .fault .llcSliceRegister
    else .next (s.performAt gid n j false).tickOn

/-- Whether a wait is that of RCV or RCVW, which ends at an issue decision (R177). -/
def Wait.receives : Wait → Bool
  | .rcv .. => true
  | _ => false

/-- Waits that are over end (R57), but for those of RCV and RCVW. -/
def State.endWaits (s : State) : State :=
  s.groups.foldl (fun s g => g.2.splits.foldl (fun s p => s.endWait g.1 p.1 fun w => !w.receives) s) s

/-- The expiry of an RCVW wakes its core (R178). -/
def State.wakeExpired (s : State) : State :=
  s.groups.foldl (fun s g => g.2.splits.foldl (fun s p => match p.2.st with
    | .waiting (.rcv (some t) _) => if t ≤ s.clk ∧ g.2.resident ∧ !(s.block g.2.cx.blk).stopping ∧ (s.core g.2.cx.core).gated then
        s.wake g.2.cx.core whyTimer else s
    | _ => s) s) s

/-- The wait of a split at RCV or RCVW ends and its instruction completes, with the uniform pipe of this clk (R177). -/
def State.receiveEnd (ex : Meaning) (s : State) (gid e : Nat) : Host.Outcome State Fault Refusal :=
  (s.endWait gid e Wait.receives).issueWith ex gid e

/-- A packet arrives at its home: the event of its opcode. -/
def State.arrivalTurn (s : State) (op n : Nat) : Host.Outcome State Fault Refusal :=
  match op with
  | 0x20 => execRaddPacket n s
  | 0x21 => execRminPacket n s
  | 0x22 => execRmaxPacket n s
  | 0x23 => execRorPacket n s
  | 0x24 => execRwoPacket n s
  | 0x26 => execRgetReply n s
  | 0x27 => execCraddPacket n s
  | 0x30 => execWaitaWatch n s
  | 0x31 => execArrstRead n s
  | 0x40 => execTsendSignal n s
  | 0x41 | 0x42 | 0x43 | 0x44 | 0x45 | 0x46 => execLadlePiecePacket n s
  | 0x48 => execCheckpointFrame n s
  | 0x49 => execCheckpointMark n s
  | 0x66 => execRgetRequest n s
  | 0xCC => execArrinitPacket n s
  | 0xCD => execCrclrPacket n s
  | 0xCE => execMclrPacket n s
  | _ => execRarrPacket n s

/-- A response reaches its sender: the event of its code. -/
def State.responseTurn (s : State) (code n : Nat) : Host.Outcome State Fault Refusal :=
  match code with
  | 0 => execResponseAcknowledged n s
  | 1 => execResponseRetryLater n s
  | 2 => execResponseStale n s
  | 3 => execResponseLineAnswer n s
  | _ => execResponseReject n s

/-- The effect of a choice of the default order: the meaning of the event that it names. -/
def State.autoEffect (ex : Meaning) (s : State) : Auto → Host.Outcome State Fault Refusal
  | .issue g e => s.issueWith ex g e
  | .receive g e => s.receiveEnd ex g e
  | .cacheWriteBack c w => execCacheWriteBack c w s
  | .perform g n j => s.performTurn g n j
  | .trapEntry g e => execTrapEntry g e s
  | .splitMerge g e f => execSplitMerge g e f s
  | .splitPromotion g e => execSplitPromotion g e s
  | .loadCompletion g n => execLoadCompletion g n s
  | .castWindowMessage g n j => execCastWindowMessage g n j s
  | .castWindowReply g n j => execCastWindowReply g n j s
  | .fixedLatencyResult g k => execFixedLatencyResult g k s
  | .faultQueueAppend d k => execFaultQueueAppend d k s
  | .groupUnpark g => execGroupUnpark g s
  | .forcedPark g => execForcedPark g s
  | .mailboxOperation c m => execMailboxOperation c m s
  | .ladlePiece c k j => execLadlePiece c k j s
  | .matrixOpStart c => execMatrixOpStart c s
  | .matrixOpCompletion c => execMatrixOpCompletion c s
  | .coreClockGate c => execCoreClockGate c s
  | .bucketInsert d k => execBucketInsert d k s
  | .bucketDelete d k => execBucketDelete d k s
  | .bucketSnapshot d k => execBucketSnapshot d k s
  | .riddleCommandCompletion d k => execRiddleCommandCompletion d k s
  | .gensetComplete d => execGensetComplete d s
  | .hflushComplete d => execHflushComplete d s
  | .modeChangeEffect d n => execModeChangeEffect d n s
  | .checkpointCut d => execCheckpointCut d s
  | .checkpointStream d => execCheckpointStream d s
  | .arrival op n => s.arrivalTurn op n
  | .response code n => s.responseTurn code n
  | .retransmitTimeout n => execRetransmitTimeout n s
  | .launchTake q => execLaunchTake q s
  | .launchStart => execLaunchStart s
  | .dieEndReport d l => execDieEndReport d l s
  | .completionArrival d l => execCompletionArrival d l s
  | .placementDecision d => execPlacementDecision d s
  | .drainReservation d => execDrainReservation d s
  | .blockPreempt b => execBlockPreempt b s

/-- A choice of the default order, taken whole. -/
def State.autoTurn (ex : Meaning) (s : State) (a : Auto) : Host.Outcome State Fault Refusal :=
  match s.autoEffect ex a with
  | .next t => .next t.tickOn
  | r => r

/-- What settles as a clk passes: traps that may enter their handlers, barriers, ladle commands and checkpoints that are complete, mode bits whose functions
are idle, launches that become eligible, events for parked groups, waits that are over, messages that may leave, and the idle time of cores. -/
def State.settle (s : State) : State :=
  let s := s.groups.foldl (fun s g => s.tryTrap g.1) s
  let s := s.blocks.foldl (fun s b => s.settleBlockBars b.1) s
  let s := s.casts.foldl (fun s c => if s.saved.any fun v => v.2.cast == c.1 then s else s.settleCastBars c.1) s
  let s := s.cores.foldl (fun s c => s.settleLadle c.1) s
  let s := (s.dies.foldl (fun s d => s.settleStreams d.1) s).settleModes
  let s := s.settleEligible.settleFired.endWaits.wakeExpired
  s.cores.foldl (fun s c => s.noteIdle c.1) s.sendMessages

/-- One clk passes. -/
def State.passClk (s : State) : State := ({ s with clk := s.clk + 1, served := false }.settle).tickOn

end Sys2Proof.Machine
end

