-- ==== Sys2Proof/Machine/Step.lean ====
section
/-! DEFINITION. One step of the package, and the placing of one instruction where the next step fetches. -/

namespace Sys2Proof.Machine

/-- A turn that the agenda names, taken whole. -/
def State.take (s : State) : Turn → Host.Outcome State Fault Refusal
  | .event i => s.eventTurn exec i
  | .issue g e => if s.mayIssue g e then s.issueWith exec g e else .next s.tickOn
  | .perform g n j => s.performTurn g n j
  | .tick => .next s.passClk

/-- One step: the turn that comes next. -/
def step (s : State) : Host.Outcome State Fault Refusal :=
  match s.nextTurn with
  | (t, .named n) => t.take n
  | (t, .auto a) => t.autoTurn exec a
  | (t, .tick) => .next t.passClk

/-! ### withFetchWord (log 8) -/

/-- The context of a group placed from outside: one group of one block of one cast on core 0, with every register the part allows, and a code
region of 4 KiB at virtual address 0. -/
def probeCtx (blk cast : Nat) : GroupCtx :=
  { core := 0, slot := 0, blk := blk, cast := cast, rank := 0, grpid := 0, blkid := 0, castid := 0, pourid := 1, nblk := 1, ngrp := 1, asid := 0,
    creg := 0, trapOff := 0, defBase := 0, defCap := 0, prio := 0, nv := 128, nu := 256, nt := 16, nh := 16 }

/-- A launch, a cast, a block and a group under new names, as a placement leaves them. -/
def State.withProbe (s : State) : State :=
  let n := s.uid
  let blk : Block :=
    { launch := n, core := 0, cast := n + 1, rank := 0, blkid := 0, groups := [n + 3], pgran := 8, granules := List.range 64, scr := [], spois := [],
      bars := [], slot := none, placedAt := s.clk, restoredAt := 0, stopping := false, asked := false }
  { s with
    launches := s.launches.insert n { Launch.fresh 1 0 [] 0 none with started := true, firstPlaced := true }
    casts := s.casts.insert (n + 1) ⟨n, 0, 1, [n + 2], []⟩
    blocks := s.blocks.insert (n + 2) blk
    groups := s.groups.insert (n + 3) (Group.start (probeCtx (n + 2) (n + 1)) 0 0 s.clk [] true)
    uid := n + 4 }

/-- s with an instruction of nbits bits w stored where its next step fetches: at the start of a code region of a group placed for it, whose page the
core's TLB holds, while no line of it is in the instruction cache; the core's clock runs and the group's pipes are free; the agenda names the issue. -/
def State.withFetchWord (s : State) (nbits w : Nat) : State :=
  let g := s.uid + 3
  let page : Tlb := ⟨0, s.sliceGen 0 0, 0, 4096, s.nodeId 0 * 2 ^ 44, kImmutable, true, false, true, false, noLeaf⟩
  let s := (s.withProbe.setReg 0 0x000 (s.reg 0 0x000 ||| 1)).modCore 0 fun k =>
    { k with tlb := page :: k.tlb, ic := k.ic.erase 0, gated := false, wakeAt := 0, pipe := (k.pipe.erase 0).erase 1 }
  { s with mem := s.mem.writeList 0 (bytesOf 12 (w % 2 ^ nbits)), level := 3, agenda := .issue g 0 :: s.agenda }

end Sys2Proof.Machine
end

