-- ==== Sys2Proof/Safety.lean ====
section
/-! DEFINITION. The terms of the claims: a safe step, an issue whose registers pass their checks, what a statement says unchanged, the entry of
a trap, and the results that the rules give lane and uniform instructions from the register file. -/

namespace Sys2Proof.Machine

/-! ### Steps and issues -/

/-- A safe run: every step of it answers a next state. -/
def State.stepsOn (s t : State) : Prop := step s = .next t

/-- An instruction completes in a state with what P says of the next one. -/
def Completes (i : Instr) (s : State) (P : State → Prop) : Prop := ∃ t, exec i s = .next t ∧ P t

/-- The group and the split that issue exist. -/
def State.Issuing (s : State) : Prop := (s.groups.find? s.cur.gid).isSome = true ∧ (s.grp.splits.find? s.cur.ent).isSome = true

/-- The registers of an issue pass the checks made before an instruction acts: each is allocated (R46), no result of another instruction is
pending for it (R186, R228), none that it writes is an operand of an outstanding matrix operation (R275), and no half that it reads is
poisoned (R67, R234). -/
def State.Clear (s : State) (lanes : Mask) (uses : List Use) : Prop :=
  uses.any s.grp.unallocated = false ∧ uses.any (s.grp.pendingUse s.now s.iid s.spl.owned) = false ∧ s.operandHazards uses = []
    ∧ s.firstPoison lanes uses = none

/-! ### What is unchanged -/

/-- Every byte of memory, of every cache line and of every scratchpad reads as before. -/
def MemoryKept (s t : State) : Prop :=
  (∀ a, t.homeByte a = s.homeByte a) ∧ (∀ c n, t.line c n = s.line c n) ∧ ∀ b a, (t.block b).byte a = (s.block b).byte a

/-- Nothing has changed but the group that issues. -/
def OnlyGroup (s t : State) : Prop :=
  t = { s with groups := t.groups } ∧ (∀ g, g ≠ s.cur.gid → t.groups.find? g = s.groups.find? g) ∧ MemoryKept s t

/-- Of the group that issues, only its vector registers with what is pending for them, and its sticky flags, have changed. -/
def VectorFrame (s t : State) : Prop :=
  OnlyGroup s t ∧ t.grp = { s.grp with v := t.grp.v, vpois := t.grp.vpois, fpst := t.grp.fpst, late := t.grp.late, uncov := t.grp.uncov }

/-- Of the group that issues, only its uniform registers with what is pending for them, and its sticky flags, have changed. -/
def UniformFrame (s t : State) : Prop :=
  OnlyGroup s t ∧ t.grp = { s.grp with u := t.grp.u, upois := t.grp.upois, fpst := t.grp.fpst, late := t.grp.late, uncov := t.grp.uncov }

/-- The vector registers of the group after a write of register d in the lanes of a mask; every other register of every lane is unchanged. -/
def VectorWritten (s t : State) (d : VReg) (m : Mask) (f : Nat → Word) : Prop :=
  ∀ (r : VReg) (k : Nat), k < 32 → t.grp.vreg r.toNat k = if r = d ∧ m.getLsbD k = true then f k else s.grp.vreg r.toNat k

/-- The uniform registers of the group after a write of register d; every other one is unchanged. -/
def UniformWritten (s t : State) (d : UReg) (x : Word) : Prop :=
  ∀ r : UReg, t.grp.ureg r.toNat = if r = d then x else s.grp.ureg r.toNat

/-- The result of a write of vector register d is pending in every lane of a mask until a latency has passed (R185). -/
def VectorPending (s t : State) (d : VReg) (m : Mask) (lat : Nat) : Prop :=
  ∀ k, k < 32 → m.getLsbD k = true → ∃ l ∈ t.grp.late, l.kind = .vec ∧ l.num = d.toNat ∧ l.lane = k ∧ l.land = s.now + lat

/-- The result of a write of uniform register d is pending until a latency has passed (R185). -/
def UniformPending (s t : State) (d : UReg) (lat : Nat) : Prop :=
  ∃ l ∈ t.grp.late, l.kind = .uni ∧ l.num = d.toNat ∧ l.land = s.now + lat

/-- A lane write (R48, R185): the register in the lanes of a mask, the sticky flags added, the write pending for its latency, and nothing else
changed. -/
def LaneWritten (s t : State) (d : VReg) (m : Mask) (lat : Nat) (f : Nat → Word) (fl : FpFlags) : Prop :=
  VectorWritten s t d m f ∧ t.grp.fpst = s.grp.fpst ||| fl ∧ VectorPending s t d m lat ∧ VectorFrame s t

/-- A uniform write (R48, R482): the register, the sticky flags added, the write pending for its latency, and nothing else changed. -/
def UniWritten (s t : State) (d : UReg) (lat : Nat) (x : Word) (fl : FpFlags) : Prop :=
  UniformWritten s t d x ∧ t.grp.fpst = s.grp.fpst ||| fl ∧ UniformPending s t d lat ∧ UniformFrame s t

/-! ### Traps -/

/-- The group of the issue may enter its handler at once: no handler runs, no split is TRAPPED, no fixed-latency result of the split is still to be
written, and nothing of a served fault or of PLSETV is held (R191, R195). -/
def State.MayTrap (s : State) : Prop :=
  s.grp.handler = none ∧ s.grp.firstTrapped = none ∧ s.grp.latePending s.clk s.spl.owned = false ∧ s.spl.held = none ∧ s.cur.fset = 0
    ∧ s.cur.newPlanes = []

/-- The split that issued has entered its handler (R191): what the trap registers hold, and how the split stands. -/
def TrapEntered (s t : State) (cause toff : Nat) (taddr : Word) (blame : Mask) : Prop :=
  let p := s.spl
  let rpl := if s.cur.lower then s.cur.plane % 8 else 0
  t = { s with groups := t.groups, cur := { s.cur with flow := .trapped } } ∧ (∀ g, g ≠ s.cur.gid → t.groups.find? g = s.groups.find? g)
  ∧ MemoryKept s t
  ∧ t.grp.tcause = BitVec.ofNat 64 (cause % 256 + (if p.sc then 2 ^ 8 else 0) + 2 ^ 15 + rpl <<< 16)
  ∧ t.grp.toff = BitVec.ofNat 64 (toff % 2 ^ 26) ∧ t.grp.taddr = taddr
  ∧ t.grp.tmask = BitVec.ofNat 64 (p.exec.toNat <<< 32 + blame.toNat)
  ∧ t.grp.svpl0 = s.grp.planeWord 0 ∧ t.grp.svpl1 = s.grp.planeWord 16
  ∧ t.grp.handler = some s.cur.ent ∧ t.grp.aside = p.loops
  ∧ (∀ k, k < 32 → t.grp.plane k = if p.owned.getLsbD k then 0 else s.grp.plane k)
  ∧ t.spl.off = s.grp.cx.trapOff ∧ t.spl.owned = p.owned ∧ t.spl.exec = p.owned ∧ t.spl.hlp = 0 ∧ t.spl.sc = false ∧ t.spl.loops = []
  ∧ t.spl.st = .ready
  ∧ t.grp.v = s.grp.v ∧ t.grp.u = s.grp.u ∧ t.grp.m = s.grp.m
  ∧ t.grp.accs = s.grp.accs ∧ t.grp.lcnt = s.grp.lcnt ∧ t.grp.uncov = s.grp.uncov ∧ t.grp.dgst = s.grp.dgst

/-! ### Results of lane instructions -/

/-- What a lane instruction computes from: the register file, and the settings of its issue. -/
structure Srcs where
  (v : Nat → Nat → Word) (u : Nat → Word) (cx : FpCtx) (sat : Sat)

/-- What the issue in progress computes from. -/
def State.srcs (s : State) : Srcs := ⟨s.grp.vreg, s.grp.ureg, s.fpCtx, s.cur.sat⟩

/-- Source B of a lane, whole. -/
def Srcs.whole (x : Srcs) (b : VSrc) (i : Nat) : Word :=
  match b with
  | .vec r => x.v r.toNat i
  | .uni r => x.u r.toNat

/-- Sub-element j of source B at width w: a uniform register's low w bits serve every sub-element (R111). -/
def Srcs.bElem (x : Srcs) (w : Nat) (b : VSrc) (i j : Nat) : Nat :=
  match b with
  | .vec r => elemAt w j (x.v r.toNat i)
  | .uni r => elemAt w 0 (x.u r.toNat)

/-- The form of a lane instruction that writes one vector register: the register, every register that it names, its latency, and its result and
flags in a lane. -/
structure LaneForm where
  (d : VReg) (uses : List Use) (lat : Nat) (res : Srcs → Nat → Word × FpFlags)

/-- An integer form that fits each exact sub-element to its type (R113, R115). -/
def fitForm (d a : VReg) (b : VSrc) (e : Elem) (f : Int → Int → Int) : LaneForm :=
  ⟨d, [rdV a, useB e.w b, wrV d], 4, fun x i => packFlags e.w fun j =>
    elemFit e x.sat (f (readInt e.isSigned e.w (elemAt e.w j (x.v a.toNat i))) (readInt e.isSigned e.w (x.bElem e.w b i j)))⟩

/-- An integer form on the values of two sources, without Fit. -/
def valForm (d a : VReg) (b : VSrc) (e : Elem) (f : Int → Int → Nat) : LaneForm :=
  ⟨d, [rdV a, useB e.w b, wrV d], 4, fun x i => (packElems e.w fun j =>
    f (readInt e.isSigned e.w (elemAt e.w j (x.v a.toNat i))) (readInt e.isSigned e.w (x.bElem e.w b i j)), 0)⟩

/-- An integer form on the patterns of two sources. -/
def patForm (d a : VReg) (b : VSrc) (w : Nat) (f : Nat → Nat → Nat) : LaneForm :=
  ⟨d, [rdV a, useB w b, wrV d], 4, fun x i => (packElems w fun j => f (elemAt w j (x.v a.toNat i)) (x.bElem w b i j), 0)⟩

/-- An integer form on the patterns of one source. -/
def patForm1 (d a : VReg) (w : Nat) (f : Nat → Nat) : LaneForm :=
  ⟨d, [rdV a, wrV d], 4, fun x i => (packElems w fun j => f (elemAt w j (x.v a.toNat i)), 0)⟩

/-- An integer form that fits a function of one value. -/
def fitForm1 (d a : VReg) (e : Elem) (f : Int → Int) : LaneForm :=
  ⟨d, [rdV a, wrV d], 4, fun x i => packFlags e.w fun j => elemFit e x.sat (f (readInt e.isSigned e.w (elemAt e.w j (x.v a.toNat i))))⟩

/-- A shift (R116). -/
def shiftForm (o : LaneShift) (f : Nat → Nat → Nat) : LaneForm :=
  match o.k with
  | .reg b => patForm o.d o.a b o.e.w f
  | .imm k => patForm1 o.d o.a o.e.w fun a => f a k.toNat

/-- A floating-point form with two sources (R142, R143). -/
def fpForm2 (d a : VReg) (b : VSrc) (e : Elem) (f : FpCtx → Nat → Nat → Nat × FpFlags) : LaneForm :=
  ⟨d, [rdV a, useB e.w b, wrV d], fpLat (e == .f64), fun x i => packFlags e.w fun j => f x.cx (elemAt e.w j (x.v a.toNat i)) (x.bElem e.w b i j)⟩

/-- A floating-point form with one source. -/
def fpForm1 (d a : VReg) (e : Elem) (f : FpCtx → Nat → Nat × FpFlags) : LaneForm :=
  ⟨d, [rdV a, wrV d], fpLat (e == .f64), fun x i => packFlags e.w fun j => f x.cx (elemAt e.w j (x.v a.toNat i))⟩

/-- A floating-point form with three sources. -/
def fpForm3 (d a : VReg) (b : VSrc) (c : VReg) (e : Elem) (f : FpCtx → Nat → Nat → Nat → Nat × FpFlags) : LaneForm :=
  ⟨d, [rdV a, useB e.w b, rdV c, wrV d], fpLat (e == .f64), fun x i => packFlags e.w fun j =>
    f x.cx (elemAt e.w j (x.v a.toNat i)) (x.bElem e.w b i j) (elemAt e.w j (x.v c.toNat i))⟩

/-- A conversion (R147, R148): each destination sub-element comes from va, from vb, or keeps its value. -/
def cvtForm (o : LaneCvt) (f : FpCtx → Nat → Nat × FpFlags) : LaneForm :=
  let ws := o.s.w
  let wd := o.e.w
  let pos := o.pos.toNat
  ⟨o.d, (if wd < ws then [rdV o.a, rdV o.b] else [⟨.vec, o.a.toNat, if ws < wd then widenHalves ws wd pos else 3, false⟩])
      ++ (if wd < ws then [⟨.vec, o.d.toNat, keptHalves ws wd pos, false⟩] else []) ++ [wrV o.d],
    fpLat (o.e == .f64 || o.s == .f64), fun x i => packFlags wd fun k =>
      match packFrom ws wd pos k with
      | (0, j) => f x.cx (elemAt ws j (x.v o.a.toNat i))
      | (1, j) => f x.cx (elemAt ws j (x.v o.b.toNat i))
      | _ => (elemAt wd k (x.v o.d.toNat i), 0)⟩

/-- The form of a lane integer, logic, move, floating-point or conversion instruction that writes a vector register (R115 to R124, R142 to R151);
none for every other instruction. -/
def laneForm (i : Instr) : Option LaneForm :=
  match i with
  | .vadd o => some (fitForm o.d o.a o.b o.e (· + ·))
  | .vsub o => some (fitForm o.d o.a o.b o.e (· - ·))
  | .vmul o => some (fitForm o.d o.a o.b o.e (· * ·))
  | .vmulh o => some (valForm o.d o.a o.b o.e fun a b => wrapNat o.e.w ((a * b) / (2 ^ o.e.w : Nat)))
  | .vmad o => some ⟨o.d, [rdV o.a, useB o.e.w o.b, rdV o.c, wrV o.d], 4, fun x i => packFlags o.e.w fun j =>
      let val (y : Nat) : Int := readInt o.e.isSigned o.e.w y
      elemFit o.e x.sat (val (elemAt o.e.w j (x.v o.a.toNat i)) * val (x.bElem o.e.w o.b i j) + val (elemAt o.e.w j (x.v o.c.toNat i)))⟩
  | .vand o => some (patForm o.d o.a o.b o.e.w (· &&& ·))
  | .vor o => some (patForm o.d o.a o.b o.e.w (· ||| ·))
  | .vxor o => some (patForm o.d o.a o.b o.e.w (· ^^^ ·))
  | .vnot o => some (patForm1 o.d o.a o.e.w fun a => 2 ^ o.e.w - 1 - a)
  | .vshl o => some (shiftForm o (shlElem o.e.w))
  | .vshr o => some (shiftForm o (shrElem o.e.w))
  | .vsra o => some (shiftForm o (sraElem o.e.w))
  | .vrot o => some (shiftForm o (rotElem o.e.w))
  | .vmin o => some (valForm o.d o.a o.b o.e fun a b => wrapNat o.e.w (min a b))
  | .vmax o => some (valForm o.d o.a o.b o.e fun a b => wrapNat o.e.w (max a b))
  | .vabs o => some (fitForm1 o.d o.a o.e fun a => (a.natAbs : Int))
  | .vneg o => some (fitForm1 o.d o.a o.e fun a => -a)
  | .vclz o => some (patForm1 o.d o.a o.e.w (clz o.e.w))
  | .vpopc o => some (patForm1 o.d o.a o.e.w (popcountNat o.e.w))
  | .vbrev o => some (patForm1 o.d o.a o.e.w (bitRev o.e.w))
  | .vbfx o => some ⟨o.d, [rdV o.a, useB 64 o.b, wrV o.d], 4, fun x i => (packElems o.e.w fun j =>
      bfxElem o.e.isSigned o.e.w (elemAt o.e.w j (x.v o.a.toNat i)) (x.whole o.b i), 0)⟩
  | .vbfi o => some ⟨o.d, [rdV o.a, useB 64 o.b, rdV o.d, wrV o.d], 4, fun x i => (packElems o.e.w fun j =>
      bfiElem o.e.w (elemAt o.e.w j (x.v o.d.toNat i)) (elemAt o.e.w j (x.v o.a.toNat i)) (x.whole o.b i), 0)⟩
  | .vsel o => some ⟨o.d, [rdV o.a, useB o.e.w o.b, rdV o.c, wrV o.d], 4, fun x i =>
      let c := x.v o.c.toNat i
      let b : Word := match o.b with
        | .vec r => x.v r.toNat i
        | .uni r => packElems o.e.w fun _ => elemAt o.e.w 0 (x.u r.toNat)
      ((x.v o.a.toNat i &&& c) ||| (b &&& ~~~c), 0)⟩
  | .vcmpv o => some (valForm o.d o.a o.b o.e fun a b => if icondHolds o.cond a b then 2 ^ o.e.w - 1 else 0)
  | .vmov o =>
    let w := o.e.w
    match o.mode with
    | .copy => some ⟨o.d, [rdV o.a, wrV o.d], 4, fun x i => (x.v o.a.toNat i, 0)⟩
    | .ext j => some ⟨o.d, [rdVsub w j.toNat o.a, wrV o.d], 4, fun x i =>
        (wordOfInt (readInt o.e.isSigned w (elemAt w j.toNat (x.v o.a.toNat i))), 0)⟩
    | .ins j => some ⟨o.d, [rdVsub w 0 o.a, rdVkept w j.toNat o.d, wrV o.d], 4, fun x i =>
        (packElems w fun k => if k = j.toNat then elemAt w 0 (x.v o.a.toNat i) else elemAt w k (x.v o.d.toNat i), 0)⟩
  | .vmovs o =>
    let w := o.e.w
    match o.mode with
    | .copy => some ⟨o.d, [rdU o.b, wrV o.d], 4, fun x _ => (x.u o.b.toNat, 0)⟩
    | .splat j => some ⟨o.d, [⟨.uni, o.b.toNat, if w = 64 then 3 else if w * j.toNat < 32 then 1 else 2, false⟩, wrV o.d], 4, fun x _ =>
        (packElems w fun _ => elemAt w j.toNat (x.u o.b.toNat), 0)⟩
  | .vidx o => some ⟨o.d, [wrV o.d], 4, fun _ i => (packElems o.e.w fun j => wrapNat o.e.w (sext 8 o.k.toNat + ((i * o.e.n + j : Nat) : Int)), 0)⟩
  | .vpack o => some ⟨o.d, [rdV o.a, rdV o.b, wrV o.d], 4, fun x i => packFlags o.e.w fun j =>
      let h := o.e.n / 2
      elemFit o.e x.sat (readInt o.e.isSigned (2 * o.e.w)
        (if j < h then elemAt (2 * o.e.w) j (x.v o.a.toNat i) else elemAt (2 * o.e.w) (j - h) (x.v o.b.toNat i)))⟩
  | .vunpk o => some ⟨o.d, [⟨.vec, o.a.toNat, if o.x then 2 else 1, false⟩, wrV o.d], 4, fun x i => (packElems o.e.w fun j =>
      wrapNat o.e.w (readInt o.e.isSigned (o.e.w / 2) (elemAt (o.e.w / 2) ((if o.x then o.e.n else 0) + j) (x.v o.a.toNat i))), 0)⟩
  | .vaddShort o => some (fitForm o.d o.a (.vec o.b) .i32 (· + ·))
  | .vsubShort o => some (fitForm o.d o.a (.vec o.b) .i32 (· - ·))
  | .vaddi o => some (fitForm1 o.d o.a .i32 fun a => a + sext 8 o.k.toNat)
  | .vmulShort o => some (fitForm o.d o.a (.vec o.b) .i32 (· * ·))
  | .vandShort o => some (patForm o.d o.a (.vec o.b) 32 (· &&& ·))
  | .vorShort o => some (patForm o.d o.a (.vec o.b) 32 (· ||| ·))
  | .vxorShort o => some (patForm o.d o.a (.vec o.b) 32 (· ^^^ ·))
  | .vshli o => some (patForm1 o.d o.a 32 fun a => shlElem 32 a o.k.toNat)
  | .vshri o => some (patForm1 o.d o.a 32 fun a => shrElem 32 a o.k.toNat)
  | .vsrai o => some (patForm1 o.d o.a 32 fun a => sraElem 32 a o.k.toNat)
  | .vminShort o => some (valForm o.d o.a (.vec o.b) .i32 fun a b => wrapNat 32 (min a b))
  | .vmaxShort o => some (valForm o.d o.a (.vec o.b) .i32 fun a b => wrapNat 32 (max a b))
  | .vadds o => some (fitForm o.d o.a (.uni o.b) .i32 (· + ·))
  | .vmuls o => some (fitForm o.d o.a (.uni o.b) .i32 (· * ·))
  | .vmovsShort o => some ⟨o.d, [rdU o.b, wrV o.d], 4, fun x _ => (x.u o.b.toNat, 0)⟩
  | .fadd o => some (fpForm2 o.d o.a o.b o.e fun c => faddElem (fmtOf o.e) c false)
  | .fsub o => some (fpForm2 o.d o.a o.b o.e fun c => faddElem (fmtOf o.e) c true)
  | .fmul o => some (fpForm2 o.d o.a o.b o.e (fmulElem (fmtOf o.e)))
  | .ffma o => some (fpForm3 o.d o.a o.b o.c o.e fun c => ffmaElem (fmtOf o.e) c o.x)
  | .fmin o => some (fpForm2 o.d o.a o.b o.e fun c => fminmaxElem (fmtOf o.e) c.daz false)
  | .fmax o => some (fpForm2 o.d o.a o.b o.e fun c => fminmaxElem (fmtOf o.e) c.daz true)
  | .fabs o => some (fpForm1 o.d o.a o.e fun _ x => (x % (fmtOf o.e).signBit, 0))
  | .fneg o => some (fpForm1 o.d o.a o.e fun _ x => (x ^^^ (fmtOf o.e).signBit, 0))
  | .fcmpv o => some (fpForm2 o.d o.a o.b o.e fun c a b =>
      let r := fcondHolds o.cond ((fmtOf o.e).read c.daz a) ((fmtOf o.e).read c.daz b)
      (if r.1 then 2 ^ o.e.w - 1 else 0, r.2))
  | .fclass o => some (fpForm1 o.d o.a o.e fun _ x => (fclassElem (fmtOf o.e) x, 0))
  | .fscale o => some (fpForm2 o.d o.a o.b o.e fun c a k => fscaleElem (fmtOf o.e) c a (sext o.e.w k))
  | .frnd o => some (fpForm1 o.d o.a o.e fun c x => frndElem (fmtOf o.e) c o.x x)
  | .fcvt o => some (cvtForm o (fcvtElem (fmtOf o.e) (fmtOf o.s)))
  | .icvt o => some (cvtForm o (icvtElem (fmtOf o.e) o.s))
  | .ftoi o => some (cvtForm o fun c => ftoiElem o.e (fmtOf o.s) c o.x)
  | .fdot o => some ⟨o.d, [rdV o.a, useB 64 o.b, ⟨.vec, o.c.toNat, if o.x then 3 else 1, false⟩, wrV o.d], 6, fun x i =>
      let f := fmtOf o.e
      let sum (lo k h : Nat) : Nat × FpFlags :=
        windowSumF32 x.cx ((List.range k).map fun j =>
            (f.read x.cx.daz (elemAt o.e.w (lo + j) (x.v o.a.toNat i)), f.read x.cx.daz (elemAt o.e.w (lo + j) (x.whole o.b i))))
          (Fmt.f32.read x.cx.daz (elemAt 32 h (x.v o.c.toNat i)))
      packFlags 32 fun h => if o.x then sum (h * (o.e.n / 2)) (o.e.n / 2) h else if h = 0 then sum 0 o.e.n 0 else (0, 0)⟩
  | .faddShort o => some (fpForm2 o.d o.a (.vec o.b) .f32 fun c => faddElem .f32 c false)
  | .fsubShort o => some (fpForm2 o.d o.a (.vec o.b) .f32 fun c => faddElem .f32 c true)
  | .fmulShort o => some (fpForm2 o.d o.a (.vec o.b) .f32 (fmulElem .f32))
  | .fadds o => some (fpForm2 o.d o.a (.uni o.b) .f32 fun c => faddElem .f32 c false)
  | .fmuls o => some (fpForm2 o.d o.a (.uni o.b) .f32 (fmulElem .f32))
  | .fminShort o => some (fpForm2 o.d o.a (.vec o.b) .f32 fun c => fminmaxElem .f32 c.daz false)
  | .fmaxShort o => some (fpForm2 o.d o.a (.vec o.b) .f32 fun c => fminmaxElem .f32 c.daz true)
  | .ffmaShort o => some (fpForm3 o.d o.a (.vec o.b) o.d .f32 fun c => ffmaElem .f32 c false)
  | _ => none

/-- The flags that the active lanes of an issue of a form raise (R24). -/
def LaneForm.flags (f : LaneForm) (s : State) : FpFlags := activeFlags s.cur.mask fun k => (f.res s.srcs k).2

/-- The special function that an instruction computes (R140). -/
def specialOf (i : Instr) : Option (LaneUn × SpecFn) :=
  match i with
  | .frcp o => some (o, .rcp) | .frsq o => some (o, .rsq) | .fexp2 o => some (o, .exp2) | .flog2 o => some (o, .log2)
  | .fsin o => some (o, .sin) | .fcos o => some (o, .cos) | .ftanh o => some (o, .tanh)
  | _ => none

/-! ### Results of cross-lane instructions -/

/-- The form of a cross-lane or other lane instruction that writes one vector register in the participating lanes alone: the lanes, whether it
reconverges first (R154), the registers that it names, a register that it reads in other lanes, its latency, and its result and flags. -/
structure CrossForm where
  (d : VReg) (part : State → Mask) (gathers : Bool) (uses : List Use) (src : Option VReg) (lat : Nat) (res : Srcs → Mask → Nat → Word)
  (flags : Srcs → Mask → FpFlags)

/-- A form that takes each lane's sub-elements from other lanes, zero from a lane that takes no part (R154, R156, R157). -/
def moveForm (d a : VReg) (part : State → Mask) (uses : List Use) (w : Nat) (src : Srcs → Nat → Nat → Nat × Nat) : CrossForm :=
  ⟨d, part, true, ⟨.vec, a.toNat, 0, false⟩ :: uses, some a, 6, fun x m i => packElems w fun j =>
    if m.getLsbD (src x i j).1 = true then elemAt w (src x i j).2 (x.v a.toNat (src x i j).1) else 0, fun _ _ => 0⟩

/-- The slots of sub-element j of register a over the participating lanes (R154). -/
def Srcs.slots (x : Srcs) (m : Mask) (w : Nat) (a : VReg) (j : Nat) : List Slot :=
  slotsOf m fun i => elemAt w j (x.v a.toNat i)

/-- The word and the flags of a reduction of register a (R159). -/
def Srcs.reduced (x : Srcs) (m : Mask) (op : RedOp) (e : Elem) (a : VReg) : Word × FpFlags :=
  packFlags e.w fun j => reduceSlots e op x.cx (x.slots m e.w a j)

/-- The word and the flags of a prefix of register a over the first n lanes (R160). -/
def Srcs.scanned (x : Srcs) (m : Mask) (op : RedOp) (e : Elem) (a : VReg) (n : Nat) : Word × FpFlags :=
  packFlags e.w fun j => prefixSlots e op x.cx (x.slots m e.w a j) n

/-- The pairs of VTOPK in its order (R163). -/
def Srcs.ranked (x : Srcs) (m : Mask) (e : Elem) (d a : VReg) : List Word :=
  ((lanesOf m).flatMap fun i => [x.v d.toNat i, x.v a.toNat i]).foldl (fun l y => pairInsert e y l) []

/-- The form of an instruction that writes a vector register in the participating lanes (R154 to R164, R182); none for every other
instruction. -/
def crossForm (i : Instr) : Option CrossForm :=
  match i with
  | .vshf o => some (moveForm o.d o.a (fun s => s.cur.mask) [useB o.e.w o.b, wrV o.d] o.e.w fun x i j =>
      let y := x.bElem o.e.w o.b i j
      (y % 32, if o.e.w = 8 then y / 32 % 8 else y / 32 % 16 % o.e.n))
  | .vshfi o => some (moveForm o.d o.a (fun s => s.cur.mask) [wrV o.d] o.e.w fun _ i j => (match o.mode with
      | .xor => i ^^^ o.k.toNat
      | .up => if o.k.toNat ≤ i then i - o.k.toNat else i
      | .dn => if i + o.k.toNat < 32 then i + o.k.toNat else i
      | .bc => o.k.toNat, j))
  | .qswp o => some (moveForm o.d o.a State.lanes [wrV o.d] 64 fun _ i _ => (i ^^^ (match o.dir with | .h => 1 | .v => 2 | .d => 3), 0))
  | .qbc o => some (moveForm o.d o.a State.lanes [wrV o.d] 64 fun _ i _ => (4 * (i / 4) + o.k.toNat, 0))
  | .vred o =>
    match o.d with
    | .vec d => some ⟨d, fun s => s.cur.mask, true, [rdV o.a, wrV d], none, 6, fun x m _ => (x.reduced m o.op o.e o.a).1,
        fun x m => (x.reduced m o.op o.e o.a).2⟩
    | .uni _ => none
  | .vscan o =>
    let upto (i : Nat) : Nat := if o.excl then i else i + 1
    some ⟨o.d, fun s => s.cur.mask, true, [rdV o.a, wrV o.d], none, 6, fun x m i => (x.scanned m o.op o.e o.a (upto i)).1,
      fun x m => activeFlags m fun i => (x.scanned m o.op o.e o.a (upto i)).2⟩
  | .vconf o => some ⟨o.d, fun s => s.cur.mask, true, [rdVlo o.a, wrV o.d], none, 6, fun x m i =>
      let earlier := maskOf fun k => m.getLsbD k && decide (k < i) && elemAt 32 0 (x.v o.a.toNat k) == elemAt 32 0 (x.v o.a.toNat i)
      BitVec.ofNat 64 (earlier.toNat + (if earlier = 0 then i else lowest earlier) * 2 ^ 32), fun _ _ => 0⟩
  | .vtopk o => some ⟨o.d, fun s => s.cur.mask, true, [rdV o.a, rwV o.d], none, 6, fun x m i =>
      (x.ranked m o.e o.d o.a).getD (popMask (m &&& belowMask i)) 0, fun _ _ => 0⟩
  | .vmrank o => some ⟨o.d, fun s => s.cur.mask, false, [rdUlo o.b, wrV o.d], none, 6, fun x _ i =>
      BitVec.ofNat 64 (popMask (maskLow (x.u o.b.toNat) &&& belowMask i)), fun _ _ => 0⟩
  | _ => none

/-- No half of a vector register is poisoned in any lane. -/
def State.CleanVector (s : State) (r : VReg) : Prop := ∀ i h, h < 2 → s.grp.vpois.find? (2 * vkey r.toNat i + h) = none

/-- The form of a lane or cross-lane instruction that writes one uniform register: the lanes whose registers are checked, whether it reconverges
first, the registers that it names, its latency, and its result, from the issue, with its flags. -/
structure MaskForm where
  (d : UReg) (lanes : State → Mask) (gathers : Bool) (uses : List Use) (lat : Nat) (res : State → Word × FpFlags)

/-- The mask that a compare leaves in sd (R120, R146): zero outside EXEC, the compare's bit in the lanes of this issue, and the old bit in the other
lanes of EXEC. -/
def State.compareWord (s : State) (d : UReg) (r : Nat → Bool) : Word :=
  (maskOf fun i => if s.cur.mask.getLsbD i then r i else s.spl.exec.getLsbD i && (s.grp.ureg d.toNat).getLsbD i).setWidth 64

/-- The form of a lane instruction that writes a uniform register (R120, R146, R158, R159); none for every other instruction. -/
def maskForm (i : Instr) : Option MaskForm :=
  match i with
  | .vcmp o => some ⟨o.d, State.lanes, false, [rdV o.a, useB o.e.w o.b, wrU o.d], 4, fun s =>
      let holds (i j : Nat) : Bool := icondHolds o.cond (readInt o.e.isSigned o.e.w (elemAt o.e.w j (s.grp.vreg o.a.toNat i)))
        (readInt o.e.isSigned o.e.w (s.srcs.bElem o.e.w o.b i j))
      (s.compareWord o.d fun i => if o.any then (List.range o.e.n).any (holds i) else (List.range o.e.n).all (holds i), 0)⟩
  | .fcmp o => some ⟨o.d, State.lanes, false, [rdV o.a, useB o.e.w o.b, wrU o.d], fpLat (o.e == .f64), fun s =>
      let f := fmtOf o.e
      let r (i j : Nat) : Bool × FpFlags := fcondHolds o.cond (f.read s.fpCtx.daz (elemAt o.e.w j (s.grp.vreg o.a.toNat i)))
        (f.read s.fpCtx.daz (s.srcs.bElem o.e.w o.b i j))
      let js := List.range o.e.n
      (s.compareWord o.d fun i => if o.any then js.any fun j => (r i j).1 else js.all fun j => (r i j).1,
        activeFlags s.cur.mask fun i => js.foldl (fun a j => a ||| (r i j).2) 0)⟩
  | .vbal o => some ⟨o.d, fun s => s.cur.mask, true, [if o.e.w = 64 then rdV o.a else rdVlo o.a, wrU o.d], 6, fun s =>
      ((maskOf fun i => s.cur.mask.getLsbD i && elemAt o.e.w 0 (s.grp.vreg o.a.toNat i) != 0).setWidth 64, 0)⟩
  | .vred o =>
    match o.d with
    | .uni d => some ⟨d, fun s => s.cur.mask, true, [rdV o.a, wrU d], 6, fun s => s.srcs.reduced s.cur.mask o.op o.e o.a⟩
    | .vec _ => none
  | _ => none

/-! ### Results of uniform instructions -/

/-- The form of an instruction that writes one uniform register: the register, every register that it names, its latency, and its result and
flags. -/
structure UniForm where
  (d : UReg) (uses : List Use) (lat : Nat) (res : State → Word × FpFlags)

/-- A uniform second source: a register, or its sign-extended immediate (R126). -/
def State.src2 (s : State) : USrc → Word
  | .reg r => s.grp.ureg r.toNat
  | .imm k => k.signExtend 64

/-- A form whose exact result is fitted to its type (R128). -/
def uFit (d a : UReg) (b : USrc) (e : Elem) (lat : Nat) (f : Int → Int → Int) : UniForm :=
  ⟨d, [rdUw e.w a] ++ usesS e.w b ++ [wrU d], lat, fun s =>
    let r := elemFit e s.cur.sat (f (readInt e.isSigned e.w (s.grp.ureg a.toNat).toNat) (readInt e.isSigned e.w (s.src2 b).toNat))
    (extU e.w e.isSigned r.1, r.2)⟩

/-- A form on the values of two sources, its result extended by the type (R126). -/
def uVal (d a : UReg) (b : USrc) (e : Elem) (lat : Nat) (f : Int → Int → Nat) : UniForm :=
  ⟨d, [rdUw e.w a] ++ usesS e.w b ++ [wrU d], lat, fun s =>
    (extU e.w e.isSigned (f (readInt e.isSigned e.w (s.grp.ureg a.toNat).toNat) (readInt e.isSigned e.w (s.src2 b).toNat)), 0)⟩

/-- A form on all 64 bits of two sources (R126). -/
def uBits (d a : UReg) (b : USrc) (f : Word → Word → Word) : UniForm :=
  ⟨d, [rdU a] ++ usesS 64 b ++ [wrU d], 2, fun s => (f (s.grp.ureg a.toNat) (s.src2 b), 0)⟩

/-- A shift (R128). -/
def uShift (d a : UReg) (b : USrc) (w : Nat) (signed : Bool) (f : Nat → Nat → Nat) : UniForm :=
  ⟨d, [rdUw w a] ++ usesS w b ++ [wrU d], 2, fun s => (extU w signed (f ((s.grp.ureg a.toNat).toNat % 2 ^ w) ((s.src2 b).toNat % 2 ^ w)), 0)⟩

/-- A count (R126). -/
def uCount (o : UniUn) (f : Nat → Nat) : UniForm :=
  ⟨o.d, [rdUw o.e.w o.a, wrU o.d], 2, fun s => (extU o.e.w false (f ((s.grp.ureg o.a.toNat).toNat % 2 ^ o.e.w)), 0)⟩

/-- The form of a uniform instruction that writes a uniform register and nothing else (R126 to R133, R137); none for every other instruction. -/
def uniForm (i : Instr) : Option UniForm :=
  match i with
  | .sadd o => some (uFit o.d o.a o.b o.e 2 (· + ·))
  | .ssub o => some (uFit o.d o.a o.b o.e 2 (· - ·))
  | .smul o => some (uFit o.d o.a o.b o.e 4 (· * ·))
  | .smulh o => some (uVal o.d o.a o.b o.e 4 fun a b => wrapNat o.e.w ((a * b) / (2 ^ o.e.w : Nat)))
  | .sand o => some (uBits o.d o.a o.b (· &&& ·))
  | .sor o => some (uBits o.d o.a o.b (· ||| ·))
  | .sxor o => some (uBits o.d o.a o.b (· ^^^ ·))
  | .snot o => some ⟨o.d, [rdU o.a, wrU o.d], 2, fun s => (~~~(s.grp.ureg o.a.toNat), 0)⟩
  | .sshl o => some (uShift o.d o.a o.b o.e.w false (shlElem o.e.w))
  | .sshr o => some (uShift o.d o.a o.b o.e.w false (shrElem o.e.w))
  | .ssra o => some (uShift o.d o.a o.b o.e.w true (sraElem o.e.w))
  | .smin o => some (uVal o.d o.a o.b o.e 2 fun a b => wrapNat o.e.w (min a b))
  | .smax o => some (uVal o.d o.a o.b o.e 2 fun a b => wrapNat o.e.w (max a b))
  | .sclz o => some (uCount o (clz o.e.w))
  | .sctz o => some (uCount o (ctz o.e.w))
  | .spopc o => some (uCount o (popcountNat o.e.w))
  | .sbfx o => some ⟨o.d, [rdUw o.e.w o.a, rdU o.b, wrU o.d], 2, fun s =>
      (extU o.e.w o.e.isSigned (bfxElem o.e.isSigned o.e.w ((s.grp.ureg o.a.toNat).toNat % 2 ^ o.e.w) (s.grp.ureg o.b.toNat)), 0)⟩
  | .sbfi o => some ⟨o.d, [rdUw o.e.w o.a, rdU o.b, rdUw o.e.w o.d, wrU o.d], 2, fun s =>
      (extU o.e.w false (bfiElem o.e.w ((s.grp.ureg o.d.toNat).toNat % 2 ^ o.e.w) ((s.grp.ureg o.a.toNat).toNat % 2 ^ o.e.w)
        (s.grp.ureg o.b.toNat)), 0)⟩
  | .ssel o => some ⟨o.d, [rdU o.a] ++ usesS 64 o.b ++ [rdSc, wrU o.d], 2, fun s =>
      (if s.spl.sc then s.grp.ureg o.a.toNat else s.src2 o.b, 0)⟩
  | .smov o => some ⟨o.d, usesS 64 o.b ++ [wrU o.d], 2, fun s => (s.src2 o.b, 0)⟩
  | .smovi o => some ⟨o.d, [wrU o.d], 2, fun _ => (if o.signed then o.k.signExtend 64 else o.k.setWidth 64, 0)⟩
  | .sinsi o => some ⟨o.d, [rwU o.d], 2, fun s =>
      (packElems 8 fun k => if k = o.p.toNat then o.k.toNat else elemAt 8 k (s.grp.ureg o.d.toNat), 0)⟩
  | .smovShort o => some ⟨o.d, usesS 64 o.b ++ [wrU o.d], 2, fun s => (s.src2 o.b, 0)⟩
  | .saddShort o => some (uFit o.d o.d o.b .i32 2 (· + ·))
  | .ssubShort o => some (uFit o.d o.d o.b .i32 2 (· - ·))
  | .smulShort o => some (uFit o.d o.d o.b .i32 4 (· * ·))
  | .sandShort o => some (uBits o.d o.d o.b (· &&& ·))
  | .sorShort o => some (uBits o.d o.d o.b (· ||| ·))
  | .sxorShort o => some (uBits o.d o.d o.b (· ^^^ ·))
  | .sshlShort o => some (uShift o.d o.d o.b 32 false (shlElem 32))
  | .sshrShort o => some (uShift o.d o.d o.b 32 false (shrElem 32))
  | .ssraShort o => some (uShift o.d o.d o.b 32 true (sraElem 32))
  | .sminShort o => some (uVal o.d o.d o.b .i32 2 fun a b => wrapNat 32 (min a b))
  | .smaxShort o => some (uVal o.d o.d o.b .i32 2 fun a b => wrapNat 32 (max a b))
  | .sminn o => some (uVal o.d o.d o.b .n32 2 fun a b => wrapNat 32 (min a b))
  | .smaxn o => some (uVal o.d o.d o.b .n32 2 fun a b => wrapNat 32 (max a b))
  | .msave o => some ⟨o.d, [wrU o.d], 2, fun s => (s.spl.exec.setWidth 64, 0)⟩
  | .getsr o => some ⟨o.d, wrU o.d :: scUse o.r rdSc, 2, fun s => (s.getReg o.r, 0)⟩
  | _ => none

/-- The mask forms that change EXEC: the register, and what becomes of EXEC (R133). -/
def maskOpOf (i : Instr) : Option (UReg × (Mask → Mask → Mask)) :=
  match i with
  | .mload o => some (o.d, fun _ x => x)
  | .mand o => some (o.d, fun e x => e &&& x)
  | .mandn o => some (o.d, fun e x => e &&& ~~~x)
  | .mor o => some (o.d, fun e x => e ||| x)
  | .mxor o => some (o.d, fun e x => e ^^^ x)
  | _ => none

/-- The level of the loop stack and the field that a special register names, with what a write leaves (R176). -/
def loopRegOf (r : SpecReg) : Option (Nat × (Word → Loop → Loop)) :=
  let lb (k : Nat) := some (k, fun (x : Word) (l : Loop) => { l with lb := (x.setWidth 26).toNat })
  let le (k : Nat) := some (k, fun (x : Word) (l : Loop) => { l with le := (x.setWidth 26).toNat })
  let lc (k : Nat) := some (k, fun (x : Word) (l : Loop) => { l with lc := x.setWidth 32 })
  match r with
  | .lb0 => lb 0 | .lb1 => lb 1 | .lb2 => lb 2 | .lb3 => lb 3
  | .le0 => le 0 | .le1 => le 1 | .le2 => le 2 | .le3 => le 3
  | .lc0 => lc 0 | .lc1 => lc 1 | .lc2 => lc 2 | .lc3 => lc 3
  | _ => none

/-- The register checks of an instruction with a lane or uniform form: the lanes whose registers it reads, and the registers that it names. -/
def checksOf (i : Instr) (s : State) : Option (Mask × List Use) :=
  match laneForm i with
  | some f => some (s.lanes, f.uses)
  | none => (uniForm i).map fun f => (s.cur.mask, f.uses)

/-! ### Control -/

/-- A branch condition of the split that issues (R167). -/
def State.condHolds (s : State) : BCond → Bool
  | .always => true
  | .sc => s.spl.sc
  | .nsc => !s.spl.sc
  | .none => s.spl.exec == 0
  | .any => s.spl.exec != 0
  | .all => s.spl.exec == s.spl.owned

/-- What a branch condition reads. -/
def condUses (c : BCond) : List Use := if c = .sc ∨ c = .nsc then [rdSc] else []

/-- How the checks of a control transfer of the lanes of a mask to a target end (R86, R87). -/
def State.goCheck (s : State) (m : Mask) (target : Int) : Transfer := s.transfer s.grp (s.grp.occupied m) target

/-- The trap that a control transfer of the lanes of a mask to a target raises (R86, R87). -/
def State.goFault (s : State) (m : Mask) (target : Int) : Option Nat :=
  match s.goCheck m target with
  | .bad cause => some cause
  | _ => none

/-- The lanes of a mask may go to a target: its checks pass. -/
def State.MayGo (s : State) (m : Mask) (target : Int) : Prop := s.goCheck m target = .ok

/-- A target that lanes of a mask may go to (R86, R87): at or above zero, a multiple of 4, in the region; in every plane that they occupy the word there
can be fetched and is no tail, and the word before it can be fetched and is no prefix. -/
def State.TargetOk (s : State) (m : Mask) (target : Int) : Prop :=
  let holds (p : Nat) (off ls : Nat) : Prop :=
    ∃ t w, s.fetchWord s.grp.cx.core s.grp.cx.asid (s.grp.codeVa p off) = (t, .words [w]) ∧ (wordLS w).toNat ≠ ls
  0 ≤ target ∧ target % 4 = 0 ∧ target < s.grp.regionLen
    ∧ ∀ p ∈ s.grp.occupied m, holds p target.toNat 3 ∧ (target ≠ 0 → holds p (target.toNat - 4) 2)

/-- The split that issues has moved to a target, and nothing else has changed. -/
def State.movedTo (s : State) (target : Int) : State :=
  (s.modSpl fun p => { p with off := target.toNat }).modCur fun c => { c with flow := .moved }

/-- The plane that SVPL0 and SVPL1 hold for a lane (R53). -/
def Group.planeSaved (g : Group) (k : Nat) : Nat := ((if k < 16 then g.svpl0 else g.svpl1).toNat / 2 ^ (3 * (k % 16))) % 8

/-! ### Memory accesses -/

/-- The entry of the issuing core's TLB that covers an address (R324). -/
def State.coreTlb (s : State) (va : Word) : Option Tlb := (s.core s.curCore).tlb.find? (·.covers s.grp.cx.asid va.toNat)

/-- An address passes every check of an access through an entry that the issuing core's TLB holds (R316, R322, R324, R325): the space is
enabled, the generation stands at the slice, the page is not HOST, its kind and permissions admit the access, and D is set for a write. -/
def State.Translates (s : State) (k : AccessKind) (size : Nat) (devOk : Bool) (va : Word) : Prop :=
  (s.reg s.curDie 0x000).getLsbD 0 = true ∧ ∃ t, s.coreTlb va = some t
    ∧ (t.kind = kFabric ∨ t.gen = s.sliceGen (dieOfPa (t.frame % 2 ^ 44)) s.grp.cx.asid) ∧ t.kind ≠ kHost
    ∧ pageOk s.curDie k size devOk t = true ∧ t.permits k = true ∧ (k.writes = true → t.d = true)

/-- The entry of the issuing core's TLB for an address. -/
def State.hit (s : State) (va : Word) : Tlb := (s.coreTlb va).getD default

/-- An address fails its translation, and nothing is walked, dropped or installed for it (R316, R321, R322, R327): EN is 0; the core's TLB holds an entry,
of the generation that stands at the slice, whose kind or permissions do not admit the access; or no TLB holds one and the walk ends in no leaf. -/
def State.Untranslated (s : State) (k : AccessKind) (size : Nat) (devOk : Bool) (va : Word) : Prop :=
  let asid := s.grp.cx.asid
  let table := s.reg s.curDie 0x000
  table.getLsbD 0 = false
  ∨ (table.getLsbD 0 = true ∧ ∃ t, s.coreTlb va = some t ∧ (t.kind = kFabric ∨ t.gen = s.sliceGen (dieOfPa (t.frame % 2 ^ 44)) asid) ∧ t.kind ≠ kHost
      ∧ (pageOk s.curDie k size devOk t = false ∨ t.permits k = false))
  ∨ (table.getLsbD 0 = true ∧ s.tlbFind s.curCore asid va.toNat = none ∧ s.memReady (wbits table 43 20 * 2 ^ 20 + 16 * asid.toNat) = true
      ∧ astValid (s.astEntry s.curDie asid.toNat) = true ∧ s.hostWalk s.curDie = false
      ∧ ∃ r sh, s.walk s.curDie (s.astEntry s.curDie asid.toNat) va.toNat = .fail r sh)

/-- No access of the issuing group that is still to be performed overlaps n bytes at an address of a space (R229). -/
def State.settled (s : State) (sp : Space) (n : Nat) (p : Piece) : Bool :=
  s.grp.accs.all fun b => b.2.dst == .phase || b.2.pieces.all fun q => !(q.pending && piecesOverlap sp b.2.space n b.2.size p q)

/-- A memory instruction in a state: the registers that it names, whether it is uniform, its record without its pieces, the address of a lane as
TADDR has it, the cause of a lane's trap, what a lane that does not trap must meet, its pieces, and what the digest folds. -/
structure LaneAcc where
  (uses : List Use) (uniform : Bool) (acc : Acc) (va : Nat → Word) (fail : Nat → Option Nat) (ok : Nat → Prop) (pieces : Nat → List Piece)
  (folds : Nat → List (Word × Word))

/-- The lanes of an access. -/
def LaneAcc.lanes (f : LaneAcc) (s : State) : List Nat := if f.uniform then [0] else lanesOf s.cur.mask

/-- The load count has room for the issue (R228). -/
def LaneAcc.Room (f : LaneAcc) (s : State) : Prop :=
  f.acc.dst = .none ∨ s.grp.lcnt < 127

/-- The cause of a lane of a global access before translation (R227). -/
def globalFail (size : Nat) (va : Word) : Option Nat :=
  if 2 ^ 56 ≤ va.toNat then some 0x10 else if va.toNat % size ≠ 0 then some 0x13 else none

/-- A global access (R226, R227, R230, R233). -/
def State.globalAcc (s : State) (uses : List Use) (uniform : Bool) (a : Acc) (k : AccessKind) (devOk : Bool) (va : Nat → Word) (data : Nat → Word)
    (dst : Nat) : LaneAcc :=
  let piece (i : Nat) : Piece :=
    let t := s.hit (va i)
    { mkPiece i ((t.frame + ((va i).toNat - t.base)) % 2 ^ 44) 0 (t.kind = kShared || t.kind = kMould) (t.kind = kDevice) (data i) dst with
      va := (va i).toNat }
  ⟨uses, uniform, a, va, fun i => globalFail a.size (va i), fun i => s.Translates k a.size devOk (va i)
      ∧ (k = .atomic → s.settled .mem a.size (piece i) = true
        ∧ (s.readPiece s.curCore { (default : Acc) with space := .mem, size := a.size, scope := a.scope }
          { piece i with lane := 0, data := 0, dst := 0, va := 0 }).2.2 = false),
    fun i => [piece i], fun i => if k = .load then [] else [(va i, data i)]⟩

/-- The cause of a lane of a scratchpad access (R227). -/
def State.scratchFail (s : State) (size p : Nat) : Option Nat :=
  if p % size ≠ 0 then some 0x13 else if s.blk.scrSize < p + size then some 0x14 else none

/-- The block and the address that a cast-window address names (R294). -/
def State.windowPlace (s : State) (w : Nat) : Nat × Nat := (((s.castOf s.grp.cx.cast).blocks[bits w 22 20]?).getD 0, bits w 19 0)

/-- The cause of a lane of a cast-window access (R227, R294). -/
def State.windowFail (s : State) (size w : Nat) : Option Nat :=
  if w % size ≠ 0 then some 0x13
  else if bits w 31 23 ≠ 0 ∨ (s.castOf s.grp.cx.cast).size ≤ bits w 22 20 ∨ s.blk.scrSize < bits w 19 0 + size then some 0x14
  else none

/-- An access of the own scratchpad or of the cast window (R226, R227, R231, R233): its pieces name the registers of a pair in order. -/
def State.scrAcc (s : State) (window uniform : Bool) (uses : List Use) (a : Acc) (pair : Bool) (addr : Nat → Nat) (more : Nat → Option Nat)
    (data : Nat → Nat → Word) (dst : Nat → Nat) (digest : Bool) : LaneAcc :=
  let place (i : Nat) : Nat × Nat := if window then s.windowPlace (addr i) else (s.grp.cx.blk, addr i)
  let settled (i : Nat) : Bool := s.settled a.space a.size (mkPiece i (place i).2 (place i).1 false false 0 0)
  let n := if pair then 16 else a.size
  let tag : Word := if window then 0x4000000000000000 else 0x8000000000000000
  let parts := if pair then [0, 1] else [0]
  ⟨uses, uniform, a, fun i => BitVec.ofNat 64 (addr i),
    fun i => match (if window then s.windowFail n (addr i) else s.scratchFail n (addr i)) with
      | some c => some c
      | none => match more i with
        | some c => some c
        | none =>
          let poisoned := a.kind ≠ .load ∧ a.kind ≠ .store ∧ (s.block (place i).1).poisoned (place i).2 a.size = true ∧ settled i = true
          if poisoned then some 0x16 else none,
    fun i => a.kind = .load ∨ a.kind = .store ∨ settled i = true,
    fun i => parts.map fun j => { mkPiece i ((place i).2 + 8 * j) (place i).1 false false (data i j) (dst j) with va := if uniform then 0 else addr i },
    fun i => if digest then parts.map fun j => (tag + BitVec.ofNat 64 (addr i) + BitVec.ofNat 64 (8 * j), data i j) else []⟩

/-- The address of a lane of a global access (R226). -/
def State.gAddr (s : State) (c : UReg) (a : VReg) (off : Int) (i : Nat) : Word :=
  s.grp.ureg c.toNat + s.grp.vreg a.toNat i + BitVec.ofInt 64 off

/-- The address of a lane of a scratchpad or window access (R226). -/
def State.sAddr (s : State) (c : UReg) (a : VReg) (scale : Nat) (off : Int) (i : Nat) : Nat :=
  wrapNat 32 ((s.grp.ureg c.toNat).toNat % 2 ^ 32 + (s.grp.vreg a.toNat i).toNat % 2 ^ 32 * scale + off)

/-- The low bytes of a vector register. -/
def State.vLow (s : State) (r : VReg) (size i : Nat) : Word := BitVec.ofNat 64 ((s.grp.vreg r.toNat i).toNat % 2 ^ (8 * size))

/-- The memory instructions (R131, R230 to R233, R239), but for LDF; none for every other instruction. -/
def laneAccOf (i : Instr) (s : State) : Option LaneAcc :=
  let none2 : Nat → Option Nat := fun _ => none
  let zero : Nat → Nat → Word := fun _ _ => 0
  let both (d : VReg) (j : Nat) : VReg := if j = 0 then d else d + 1
  let scrLd (w : Bool) (o : ScrAcc) : LaneAcc :=
    let size := bytesOfWidth o.t
    s.scrAcc w false ([rdUlo o.c, rdVlo o.a] ++ [wrV o.d] ++ if o.pair then [wrV (o.d + 1)] else [])
      (mkAcc .load (if w then .window else .scratch) size o.x o.ord (if w then .cast else .blk) .vec []) o.pair
      (s.sAddr o.c o.a 1 (o.disp.toInt * size)) none2 zero (fun j => (both o.d j).toNat) false
  let scrSt (w : Bool) (o : ScrAcc) : LaneAcc :=
    let size := bytesOfWidth o.t
    s.scrAcc w false ([rdUlo o.c, rdVlo o.a] ++ [if size = 8 then rdV o.d else rdVlo o.d] ++ if o.pair then [rdV (o.d + 1)] else [])
      (mkAcc .store (if w then .window else .scratch) size false o.ord (if w then .cast else .blk) .none []) o.pair
      (s.sAddr o.c o.a 1 (o.disp.toInt * size)) none2 (fun i j => s.vLow (both o.d j) size i) (fun _ => 0) true
  match i with
  | .ld o =>
    let size := bytesOfWidth o.t
    some (s.globalAcc [rdU o.c, rdV o.a, wrV o.d] false (mkAcc .load .mem size o.x o.ord o.scope .vec []) .load true
      (s.gAddr o.c o.a (o.disp.toInt * size)) (fun _ => 0) o.d.toNat)
  | .st o =>
    let size := bytesOfWidth o.t
    some (s.globalAcc [rdU o.c, rdV o.a, if size = 8 then rdV o.d else rdVlo o.d] false
      (mkAcc .store .mem size false o.ord o.scope .none []) .store true (s.gAddr o.c o.a (o.disp.toInt * size)) (s.vLow o.d size) 0)
  | .atom o =>
    let size := if o.wide then 8 else 4
    some (s.globalAcc [rdU o.c, rdV o.a, if o.wide then rdV o.b else rdVlo o.b, wrV o.d] false
      (mkAcc (.atom o.op o.x s.atomCtx) .mem size true o.ord o.scope .vec []) .atomic false
      (s.gAddr o.c o.a (o.disp.toInt * size)) (s.vLow o.b size) o.d.toNat)
  | .lds o => some (scrLd false o)
  | .ldc o => some (scrLd true o)
  | .sts o => some (scrSt false o)
  | .stc o => some (scrSt true o)
  | .ldsShort o => some (s.scrAcc false false [rdVlo o.a, wrV o.d] (mkAcc .load .scratch 8 true .none .blk .vec []) false
      (fun i => ((s.grp.vreg o.a.toNat i).toNat + o.k.toNat * 8) % 2 ^ 32) none2 zero (fun _ => o.d.toNat) false)
  | .stsShort o => some (s.scrAcc false false [rdVlo o.a, rdV o.d] (mkAcc .store .scratch 8 false .none .blk .none []) false
      (fun i => ((s.grp.vreg o.a.toNat i).toNat + o.k.toNat * 8) % 2 ^ 32) none2 (fun i _ => s.vLow o.d 8 i) (fun _ => 0) true)
  | .atoms o =>
    let size := if o.wide then 8 else 4
    some (s.scrAcc false false (([rdUlo o.c, rdVlo o.a] ++ if o.chk then [rdUlo (o.c + 1)] else []) ++ [if o.wide then rdV o.b else rdVlo o.b, wrV o.d])
      (mkAcc (.atom o.op o.x s.atomCtx) .scratch size true o.ord .blk .vec []) false
      (s.sAddr o.c o.a (if o.chk then size else 1) (o.disp.toInt * size))
      (fun i => if o.chk ∧ (s.grp.ureg (o.c + 1).toNat).toNat % 2 ^ 32 ≤ (s.grp.vreg o.a.toNat i).toNat % 2 ^ 32 then some 0x15 else none)
      (fun i _ => s.vLow o.b size i) (fun _ => o.d.toNat) true)
  | .atomc o =>
    let size := if o.wide then 8 else 4
    some (s.scrAcc true false ([rdUlo o.c, rdVlo o.a] ++ [if o.wide then rdV o.b else rdVlo o.b, wrV o.d])
      (mkAcc (.atom o.op o.x s.atomCtx) .window size true o.ord .cast .vec []) false (s.sAddr o.c o.a 1 (o.disp.toInt * size)) none2
      (fun i _ => s.vLow o.b size i) (fun _ => o.d.toNat) true)
  | .sld o =>
    let size := bytesOfWidth o.t
    some (s.globalAcc [rdU o.a, wrU o.d] true (mkAcc .load .mem size o.x o.ord o.scope .uni []) .load true
      (fun _ => s.grp.ureg o.a.toNat + BitVec.ofInt 64 (o.disp.toInt * size)) (fun _ => 0) o.d.toNat)
  | .sst o =>
    let size := bytesOfWidth o.t
    some (s.globalAcc [rdU o.a, if size = 8 then rdU o.d else rdUlo o.d] true (mkAcc .store .mem size false o.ord o.scope .none []) .store false
      (fun _ => s.grp.ureg o.a.toNat + BitVec.ofInt 64 (o.disp.toInt * size))
      (fun _ => BitVec.ofNat 64 ((s.grp.ureg o.d.toNat).toNat % 2 ^ (8 * size))) 0)
  | .satom o =>
    let size := if o.wide then 8 else 4
    some (s.globalAcc [rdU o.a, rdUw (8 * size) o.b, wrU o.d] true (mkAcc (.atom o.op o.x s.atomCtx) .mem size true o.ord o.scope .uni []) .atomic
      false (fun _ => s.grp.ureg o.a.toNat) (fun _ => BitVec.ofNat 64 ((s.grp.ureg o.b.toNat).toNat % 2 ^ (8 * size))) o.d.toNat)
  | .barv o =>
    let c : Nat := match o.b with | none => 1 | some r => wbits (s.grp.ureg r.toNat) 15 0
    let b : Int := match o.b with | none => 0 | some r => sext 31 (wbits (s.grp.ureg r.toNat) 46 16)
    some (s.scrAcc o.cw true (rdUlo o.a :: o.b.toList.map rdU ++ [wrU o.d])
      (mkAcc (.arrive c b) (if o.cw then .window else .scratch) 8 true .rel (if o.cw then .cast else .blk) .uni []) false
      (fun _ => (s.grp.ureg o.a.toNat).toNat % 2 ^ 32) none2 zero (fun _ => o.d.toNat) false)
  | _ => none

/-- The digest after folds (R461). -/
def State.folded (s : State) (l : List (Word × Word)) : Word :=
  if s.grp.dgen then l.foldl (fun d p => d + mix64 (p.1 ^^^ rotL64 p.2 17)) s.grp.dgst else s.grp.dgst

/-- An access stands recorded under the next name: loads and atomics count in LCNT and their destinations are uncovered; the digest has folded what
it folds; nothing else has changed, and no byte of memory (R228). -/
def AccessRecorded (s t : State) (a : Acc) (folds : List (Word × Word)) : Prop :=
  t = { s with groups := t.groups, uid := s.uid + 1 } ∧ (∀ g, g ≠ s.cur.gid → t.groups.find? g = s.groups.find? g) ∧ MemoryKept s t
  ∧ t.grp = { s.grp with
      accs := s.grp.accs.insert s.uid { a with since := s.spl.since.getD s.uid }, lcnt := s.grp.lcnt + (if a.dst = .none ∨ a.dst = .crucible then 0 else 1), dgst := s.folded folds, uncov := t.grp.uncov }
  ∧ ∀ p ∈ a.pieces, (a.dst = .vec → ∃ u ∈ t.grp.uncov, u.kind = .vec ∧ u.num = p.dst ∧ u.lane = p.lane ∧ u.acc = s.uid)
    ∧ (a.dst = .uni → ∃ u ∈ t.grp.uncov, u.kind = .uni ∧ u.num = p.dst ∧ u.acc = s.uid)

/-- A memory instruction with lanes has recorded the part of each lane, and one without has changed nothing. -/
def Accessed (i : Instr) (s t : State) : Prop :=
  ∃ f, laneAccOf i s = some f ∧ (f.lanes s = [] → t = s)
    ∧ (f.lanes s ≠ [] → AccessRecorded s t { f.acc with pieces := (f.lanes s).flatMap f.pieces } ((f.lanes s).flatMap f.folds))

/-- No earlier access of the group to n bytes of a block's scratchpad is pending, and none of their words is poisoned (R229, R234). -/
def State.ScratchClean (s : State) (sp : Space) (n : Nat) (place : Nat × Nat) : Prop :=
  s.settled sp n (mkPiece 0 place.2 place.1 false false 0 0) = true ∧ (s.block place.1).poisoned place.2 n = false

/-- No earlier access of the group to n bytes at an address is pending, and they read without poison at the level of a scope (R229, R234, R310). -/
def State.MemoryClean (s : State) (n : Nat) (sc : Scope) (va : Word) : Prop :=
  let t := s.hit va
  let pa := (t.frame + (va.toNat - t.base)) % 2 ^ 44
  s.settled .mem n (mkPiece 0 pa 0 false false 0 0) = true
    ∧ (s.loadAt s.curCore (if t.kind = kShared ∨ t.kind = kMould then .home else levelOf sc) pa n).2.2 = false

/-! ### Waits, the matrix engine and tiles -/

/-- What the issue of a matrix operation leaves (R257, R275): it is last in its core's queue, it counts in MCNT, and it is not covered. -/
def State.enqueued (s : State) (e : MEntry) : State :=
  ((s.modCore s.curCore fun k => { k with engine := k.engine ++ [(s.uid, e)] }).modGrp fun g =>
    { g with mcnt := g.mcnt + 1, mops := g.mops.insert s.uid e }).bump

/-- The engine's queue and the group's count have room (R257). -/
def State.EngineRoom (s : State) : Prop := s.grp.mcnt < 64 ∧ (s.core s.curCore).engine.length < 64

/-- A tile that an instruction may name: no operation that is not covered forbids it, and no load or write of it is pending (R275, R276). -/
def State.TileFree (s : State) (t : TReg) (writes : Bool) : Prop :=
  (s.grp.mops.filter fun p => p.2.op.forbids t.toNat writes) = [] ∧ (∀ u ∈ s.grp.uncov, u.kind = .tile → u.num ≠ t.toNat)
    ∧ ∀ l ∈ s.grp.late, l.kind = .tile → l.num ≠ t.toNat

/-- No element of a tile is poisoned. -/
def State.TileClean (s : State) (t : TReg) : Prop := ∀ i j, s.grp.mpois.find? (mkey t.toNat i j) = none

/-- The address of a lane of a tile access passes its checks (R269). -/
def State.RowOk (s : State) (c : UReg) (a : VReg) (len : Nat) (off : Int) : Prop :=
  ∀ i ∈ lanesOf s.cur.mask, s.sAddr c a 1 off i % 16 = 0 ∧ s.sAddr c a 1 off i + len ≤ s.blk.scrSize

/-- The parts of a store of a lane's row: eight bytes each (R269). -/
def rowParts (i p blk : Nat) (bytes : List Byte) : List Piece :=
  (List.range (bytes.length / 8)).map fun k =>
    { mkPiece i (p + 8 * k) blk false false (BitVec.ofNat 64 (ofBytes ((bytes.drop (8 * k)).take 8))) 0 with va := p }

/-- The word of a split whose wait is over because of an answer. -/
def State.answered (s : State) (sc : Bool) (v : Word) : Prop := s.spl.answer = some (sc, v, 0)

/-! ### Remote operations and packets -/

/-- An address passes translation through an entry that the issuing core's TLB holds, for a page rule (R322 to R325, R396). -/
def State.Hits (s : State) (k : AccessKind) (kindOk : Tlb → Bool) (va : Word) : Prop :=
  va.toNat < 2 ^ 56 ∧ (s.reg s.curDie 0x000).getLsbD 0 = true ∧ ∃ t, s.coreTlb va = some t
    ∧ (t.kind = kFabric ∨ t.gen = s.sliceGen (dieOfPa (t.frame % 2 ^ 44)) s.grp.cx.asid) ∧ t.kind ≠ kHost
    ∧ kindOk t = true ∧ t.permits k = true ∧ (k.writes = true → t.d = true)

/-- The global address of a virtual address through that entry. -/
def State.hitAddr (s : State) (va : Word) : Nat := (s.hit va).frame + (va.toNat - (s.hit va).base)

/-- The words of a binding pair (R394). -/
def State.bindLine (s : State) (b : UReg) : Word := lowBits 56 (s.grp.ureg b.toNat)
/-- The index base. -/
def State.bindBase (s : State) (b : UReg) : Nat := wbits (s.grp.ureg (b + 1).toNat) 31 0
/-- The signature. -/
def State.bindSig (s : State) (b : UReg) : Nat := wbits (s.grp.ureg (b + 1).toNat) 59 32

/-- A binding pair is well formed and its line passes translation (R394, R396). -/
def State.BindOk (s : State) (b : UReg) (lineOk : Tlb → Bool) : Prop :=
  wbits (s.grp.ureg b.toNat) 63 56 = 0 ∧ wbits (s.grp.ureg (b + 1).toNat) 63 60 = 0 ∧ (s.grp.ureg b.toNat).toNat % 64 = 0
    ∧ s.Hits .store lineOk (s.bindLine b)

/-- A line lies with its target: on one die of this node, or in the target's node (R396). -/
def State.LineWith (s : State) (line target : Nat) : Prop :=
  if nodeOf target = s.nodeId s.curDie then nodeOf line = nodeOf target ∧ dieOfPa (paOf line) = dieOfPa (paOf target)
  else nodeOf line = nodeOf target

/-- The contribution index of a lane (R395). -/
def State.laneIndex (s : State) (base i : Nat) : Nat := (base + popMask (s.spl.idxExec.getD s.spl.exec &&& belowMask i)) % 2 ^ 32

/-- A packet of the issue bound as its binding pair says, or not bound. -/
def State.bindPacket (s : State) (p : Packet) (b : Option UReg) (idx : Nat → Nat) (tag : BitVec 16) : Packet :=
  match b with
  | none => p
  | some r => { p with lineVa := some (s.bindLine r).toNat, line := some (s.hitAddr (s.bindLine r)), idx := idx (s.bindBase r), sig := s.bindSig r, tag := tag }

/-- Packets have been sent one after another under the next names (Obligations.PacketSent says what a sending does), the digest has folded what it
folds, and nothing else has changed (R397, R416, R461). -/
def PacketsSent (s t : State) (ps : List Packet) (folds : List (Word × Word)) : Prop :=
  t = { ps.foldl (fun u p => (u.send p).1) s with groups := t.groups }
  ∧ (∀ g, g ≠ s.cur.gid → t.groups.find? g = s.groups.find? g) ∧ t.grp = { s.grp with dgst := s.folded folds }

/-- The remote instructions with data: the operands, the opcode of the packet, the unit of the target's alignment and of the displacement, and
the page rule (R402, R403, R406). -/
def remoteOf (i : Instr) : Option (Remote × Nat × Nat × (Tlb → Bool)) :=
  match i with
  | .radd o => some (o, 0x20, o.e.w / 8, sharedOrFabric)
  | .rmin o => some (o, 0x21, o.e.w / 8, sharedOrFabric)
  | .rmax o => some (o, 0x22, o.e.w / 8, sharedOrFabric)
  | .ror o => some (o, 0x23, o.e.w / 8, sharedOrFabric)
  | .rwo o => some (o, 0x24, 8, fun t => t.kind = kMould || t.kind = kFabric)
  | .cradd o => some (o, 0x27, 64, sharedOrFabric)
  | _ => none

/-- The event of a packet's arrival at its home: the packet, and its opcodes (R401 to R408, R457, R465). -/
def arrivalOf (i : Instr) : Option (Nat × List Nat) :=
  match i with
  | .raddPacket p => some (p, [0x20]) | .rminPacket p => some (p, [0x21]) | .rmaxPacket p => some (p, [0x22]) | .rorPacket p => some (p, [0x23])
  | .rwoPacket p => some (p, [0x24]) | .rarrPacket p => some (p, [0x25, 0xC5, 0xC6]) | .rgetReply p => some (p, [0x26])
  | .craddPacket p => some (p, [0x27]) | .ladlePiecePacket p => some (p, [0x41, 0x42, 0x43, 0x44, 0x45, 0x46]) | .tsendSignal p => some (p, [0x40])
  | .checkpointFrame p => some (p, [0x48]) | .checkpointMark p => some (p, [0x49])
  | .rgetRequest p => some (p, [0x66]) | .arrinitPacket p => some (p, [0xCC]) | .crclrPacket p => some (p, [0xCD]) | .mclrPacket p => some (p, [0xCE])
  | .waitaWatch p => some (p, [0x30]) | .arrstRead p => some (p, [0x31])
  | _ => none

/-- A copy of a packet of this node may arrive at its home. -/
def State.Arriving (s : State) (n : Nat) (p : Packet) (ops : List Nat) : Prop :=
  s.packets.find? n = some p ∧ p.op ∈ ops ∧ p.copies ≠ 0 ∧ (∃ d, p.sdie = some d ∧ nodeOf p.target = s.nodeId d)
    ∧ s.memReady (paOf p.target) = true ∧ p.status = none

/-- A copy of a packet of this node or of another may arrive at its home. -/
def State.Reaching (s : State) (n : Nat) (p : Packet) (ops : List Nat) : Prop :=
  s.packets.find? n = some p ∧ p.op ∈ ops ∧ p.copies ≠ 0 ∧ (∀ d, p.sdie = some d → nodeOf p.target = s.nodeId d)
    ∧ s.memReady (paOf p.target) = true ∧ p.status = none

/-- One copy of a packet has been answered with a code and data. -/
def State.Answered (t : State) (n : Nat) (p : Packet) (code : Nat) (data : BitVec 128) : Prop :=
  t.packets.find? n = some { p with copies := p.copies - 1, resps := p.resps ++ [⟨code, data⟩] }

/-- The bytes that an unbound contribution leaves at its target (R402 to R408): an update of the word there, its own data where it writes once, the
line of a crucible after an addition; none otherwise. -/
def State.contributed (s : State) (p : Packet) : List Byte :=
  let pa := paOf p.target
  let n := p.data.length
  let old := s.homeN pa n
  let line (k : CrKind) : List Byte := bytesOf 64 (crucibleAdd (BitVec.ofNat 512 (s.homeN pa 64)) (ofBytes p.data) k).toNat
  match p.op with
  | 0x20 | 0x21 | 0x22 | 0x23 => bytesOf n (remoteUpdate p.op (p.kind % 8) (8 * n) old (ofBytes p.data))
  | 0x24 | 0x26 | 0x46 | 0x48 => p.data
  | 0x27 | 0x41 => line (crKindOf p.op p.kind)
  | 0x42 => bytesOf n (remoteUpdate 0x20 0 (8 * n) old (ofBytes p.data))
  | 0x43 => bytesOf n (remoteUpdate 0x21 0 (8 * n) old (ofBytes p.data))
  | 0x44 => bytesOf n (remoteUpdate 0x22 0 (8 * n) old (ofBytes p.data))
  | 0x45 => bytesOf n (remoteUpdate 0x23 0 (8 * n) old (ofBytes p.data))
  | _ => []

/-- The write-once data of a packet starts at a granule or lies in one (R403). -/
def Packet.OnceAligned (p : Packet) : Prop :=
  p.data ≠ [] ∧ (paOf p.target % 8 = 0 ∨ paOf p.target % 8 + p.data.length ≤ 8)

/-- A granule that the write-once data of a packet names has been written, and is poisoned or holds something else (R403). -/
def State.Conflicting (s : State) (p : Packet) : Prop :=
  ∃ k, 8 * k < p.data.length ∧
    let a := paOf p.target + 8 * k
    let b := (p.data.drop (8 * k)).take 8
    s.mwritten.getD false (a / 8) = true ∧ (s.homePois (a / 8 * 8) 8 = true ∨ s.homeN a b.length ≠ ofBytes b)

/-! ### Ladle, riddle and storage -/

/-- The ladle commands with a tile record (R249, R408, R457): the record's first register and the operation. -/
def ladleOf (i : Instr) : Option (UReg × LOp) :=
  match i with
  | .ltile o => some (o.a, .tile o.st)
  | .lgath o => some (o.a, .gather o.z)
  | .lscat o => some (o.a, .scatter o.z)
  | .tsend o => some (o.a, .tsend)
  | _ => none

/-- The eight registers of a record, and their words. -/
def State.record (s : State) (a : UReg) (n : Nat) : List Word := (List.range n).map fun k => s.grp.ureg (a + BitVec.ofNat 8 k).toNat

/-- The group after a command of it has been issued: one more in issue order and, where it reports to a batch, one more in the open batch (R237,
R250). -/
def Group.commanded (g : Group) (batch : Bool) : Group :=
  let n := g.bseq.toNat
  { g with issueSeq := g.issueSeq + 1, batches := if batch then g.batches.setD 0 n (g.batches.getD 0 n + 1) else g.batches }

/-- A ladle command is last in its core's queue (R244). -/
def State.ladled (s : State) (op : LOp) (words : List Word) (batch : Bool) : State :=
  let g := s.grp
  let m : LCmd := { gid := s.cur.gid, blk := g.cx.blk, op := op, words := words, asid := g.cx.asid, seq := g.issueSeq
                    batch := if batch then some g.bseq.toNat else none, packets := [], entries := [], done := [], blocked := [], stales := [], book := none }
  ((s.modCore s.curCore fun k => { k with ladle := k.ladle.insert s.uid m }).modGrp fun g => g.commanded batch).bump

/-- The first word at fault of a ladle command's record. -/
def State.recordFault (s : State) (op : LOp) (w : List Word) : Option Nat :=
  if op = .tsend then (Rec.of w).sendFault w s.blk.scrSize else (Rec.of w).fault w s.blk.scrSize op

/-- A piece of a ladle command is still to be done and nothing holds it: no fault entry, no rejection, no pre-emption (R244, R250, R325, R356). The
command's record is as its issue admitted it. -/
def State.PieceWaits (s : State) (core n j : Nat) (m : LCmd) : Prop :=
  (s.core core).ladle.find? n = some m ∧ m.done.contains j = false ∧ j < m.pieceCount ∧ m.blocked.find? j = none ∧ m.stales.find? j = none
    ∧ (s.block m.blk).stopping = false ∧ (s.blocks.find? m.blk).isSome = true
    ∧ match m.op with
      | .codebook .. => True
      | .tsend => (Rec.of m.words).sendFault m.words (s.block m.blk).scrSize = none
      | op => (Rec.of m.words).fault m.words (s.block m.blk).scrSize op = none

/-- The state once a command has read the list entry of a position, for good (R249). -/
def State.entryRead (s : State) (core n k : Nat) (x : BitVec 32) : State :=
  s.modCore core fun c => { c with ladle := c.ladle.modify n fun m => { m with entries := m.entries.insert k x } }

/-- A position's list word is not poisoned, and its entry is in range (R221, R250). -/
def State.EntryOk (s : State) (m : LCmd) (k : Nat) : Prop := s.listPoison m k = none ∧ (Rec.of m.words).outOfRange (s.listEntry m k) = false

/-- The row that a piece of LTILE, of LGATH, or of an LSCAT not bound to a line moves: scratchpad row k, memory row x, piece p of it; u is the state
once the list has been read, and m0 the command there (R249). -/
def State.RowSource (s : State) (core n j : Nat) (m : LCmd) (store : Bool) (k x p : Nat) (u : State) (m0 : LCmd) : Prop :=
  s.PieceWaits core n j m ∧ k = j / (Rec.of m.words).piecesPerRow ∧ p = j % (Rec.of m.words).piecesPerRow
    ∧ ((m.op = .tile store ∧ x = k ∧ u = s ∧ m0 = m)
      ∨ ((∃ z, m.op = if store then .scatter z else .gather z) ∧ (Rec.of m.words).ckind ≠ 2 ∧ s.EntryOk m k ∧ x = (s.listEntry m k).toNat
        ∧ u = s.entryRead core n k (s.listEntry m k) ∧ m0 = { m with entries := m.entries.insert k (s.listEntry m k) }))

/-- What a piece of an LSCAT bound to a line, or of a TSEND, delivers: scratchpad row k to the memory row at an address, bound to a line, piece p of
it (R408, R457). -/
def State.DeliverySource (s : State) (core n j : Nat) (m : LCmd) (k row line p : Nat) (u : State) (m0 : LCmd) : Prop :=
  let r := Rec.of m.words
  let per := if r.reduce = 1 then r.cols else r.maxLines
  s.PieceWaits core n j m
    ∧ (((∃ z, m.op = .scatter z) ∧ r.ckind = 2 ∧ k = j / per ∧ p = j % per ∧ s.EntryOk m k ∧ row = r.gaddr + (s.listEntry m k).toNat * r.gpitch
        ∧ line = r.caddr ∧ u = s.entryRead core n k (s.listEntry m k) ∧ m0 = { m with entries := m.entries.insert k (s.listEntry m k) })
      ∨ (m.op = .tsend ∧ u = s ∧ m0 = m ∧
        let each := if r.reduce = 0 then 1 else r.rows * per
        let q := (Grid.of m.words).ranks.getD (j / each) 0
        k = j % each / per ∧ p = j % per ∧ line = r.caddr + q * r.scales ∧ row = r.gaddr + q * r.scales + k * r.gpitch))

/-- The pages of a list of ranges pass translation, through the core's TLB as it stands, and their memory is served. -/
def State.PagesAt (s : State) (core : Nat) (m : LCmd) (a : AccessKind) (ranges : List (Nat × Nat)) (pages : Tab Nat) : Prop :=
  s.pageMap core m.asid a (ladleKind core a) (pagesTouched ranges) [] = (s, .ok pages) ∧ ∀ x ∈ pages, s.memReady (x.2 % 2 ^ 44) = true

/-- A piece ends with an error of its command, which the group records unless it holds an earlier one, and moves nothing (R250). -/
def State.PieceFails (s : State) (core n j : Nat) (m m0 : LCmd) (cause detail : Nat) : Prop :=
  Completes (.ladlePiece core n j) s fun t => t.mem = s.mem ∧ t.blocks = s.blocks
    ∧ (t.core core).ladle.find? n = some { m0 with done := m.done ++ [j] }
    ∧ ((s.groups.find? m.gid).isSome = true → (s.group m.gid).lerr = none →
      (t.group m.gid).lerr = some ⟨m.seq, j, BitVec.ofNat 8 cause, BitVec.ofNat 64 detail⟩)

/-- The canonical element that element (x, c) of a record's memory loads as (R28 to R32, R246, R247). -/
def State.loadedElem (s : State) (r : Rec) (book : Option Book) (pages : Tab Nat) (x c : Nat) : Nat :=
  let raw := s.pageN pages (r.vaBit x c).1 r.accBytes / 2 ^ (r.vaBit x c).2
  let block := x * r.cols / max r.block 1 + c / max r.block 1
  let scale := s10 (s.homeN (physOf pages (r.scales + 4 * (block / 3))) 4 / 2 ^ (10 * (block % 3)) % 2 ^ 10)
  if r.sf = 0x09 then match book with
    | some b => scaledElem r.cf true (lq2Weight (raw % 2 ^ 16) (ofBytes ((b.data.drop (4 * (raw % 2 ^ 16 / 2 ^ 8))).take 4)) ((r.memAt x c).2 % 8)) scale
    | none => 0
  else loadElem r.sf r.cf (raw % 2 ^ r.sb) (if r.scales = 0 then none else some scale)

/-- A riddle command is in flight on the issuing die (R374): its slot's binding, version and descriptor as sampled. The slot notes an update
(R375). -/
def State.riddled (s : State) (n : BitVec 3) (op : ROp) (words : List Word) (batch phase : Option Nat) : State :=
  let g := s.grp
  let t := s.tslot s.curDie n.toNat
  let c : RCmd := { gid := s.cur.gid, core := g.cx.core, blk := g.cx.blk, slot := n.toNat, bind := t.bind, op := op, version := t.version,
                    desc := t.desc, asid := g.cx.asid, words := words, seq := g.issueSeq, batch := batch, phase := phase, step := 0, hits := [],
                    blocked := none, linked := [], applied := false, ids := [], rejects := 0, skips := [] }
  let noted (l : Tab TSlot) : Tab TSlot := if op = .probe then l else l.modify n.toNat fun t => { t with stats := t.stats.map fun k => { k with stale := true } }
  ((s.modDie s.curDie fun x => { x with riddle := x.riddle.insert s.uid c, slots := noted x.slots }).modGrp fun g => g.commanded batch.isSome).bump

/-- A table slot that an instruction may use: bound, for the group's address space (R372). -/
def State.SlotOk (s : State) (n : BitVec 3) : Prop :=
  (s.tslot s.curDie n.toNat).bound = true ∧ (s.tslot s.curDie n.toNat).asid = s.grp.cx.asid

/-- The riddle commands with a completion word, in a state (R376, R378): the registers, the slot, the operation, its words, the completion word,
the reason of a slot in the wrong state, whether the record is at fault, and whether the command has nothing to do. -/
structure RiddleForm where
  (uses : List Use) (n : BitVec 3) (op : ROp) (words : List Word) (cw : Word) (reason : Option Nat) (bad empty : Bool)

/-- HPROBE, HINS and HDEL; none for every other instruction. -/
def riddleOf (i : Instr) (s : State) : Option RiddleForm :=
  let desc (n : BitVec 3) : List Word := (s.tslot s.curDie n.toNat).desc
  let list (o : Hlist) (op : ROp) : RiddleForm :=
    let w := s.grp.ureg o.a.toNat
    ⟨[rdU o.a, rdU o.b], o.n, op, [w], s.grp.ureg o.b.toNat, if o.famB = true ∧ rehashing (desc o.n) = false then some 3 else none,
      wbits w 63 48 != 0 || wbits w 31 0 % 4 != 0 || decide (s.blk.scrSize < wbits w 31 0 + listBytes (desc o.n) o.famB w),
      wbits w 47 32 == 0⟩
  match i with
  | .hprobe o =>
    let w := s.record o.a 4
    let p := Probe.of w
    some ⟨(List.range 4).map fun k => rdU (o.a + BitVec.ofNat 8 k), o.n, .probe, w.take 3, w.getD 3 0,
      if rehashing (desc o.n) = true ∧ p.bids = 0 then some 5 else none, p.bad w (desc o.n) s.blk.scrSize, p.qmask == 0⟩
  | .hins o => some (list o (.insert o.famB))
  | .hdel o => some (list o (.delete o.famB))
  | _ => none

/-- HADV, HSWAP, HSTAT and HFENCE with DRAIN: the slot that each names, and the registers (R379 to R383). -/
def slotForm (i : Instr) : Option (BitVec 3 × List Use) :=
  match i with
  | .hadv o => some (o.n, [rdUlo o.a, wrU o.d])
  | .hswap o => some (o.n, [wrU o.d])
  | .hstat o => some (o.n, [rdUlo o.a])
  | .hfence o => o.drain.map fun n => (n, [])
  | _ => none

/-- HADV. -/
def isHadv (i : Instr) : Bool := match i with | .hadv _ => true | _ => false
/-- HSWAP. -/
def isHswap (i : Instr) : Bool := match i with | .hswap _ => true | _ => false
/-- HFENCE. -/
def isHfence (i : Instr) : Bool := match i with | .hfence _ => true | _ => false

/-- The state in which a riddle command reads the bucket of its next step: it keeps the scratchpad words that the step reads (R374). -/
def State.stepState (s : State) (d n : Nat) (c : RCmd) : State :=
  s.modRiddle d n fun x => { x with ids := (c.inputs (c.stepAt c.step)).foldl (fun m a => m.insert a (s.inputWord c a)) c.ids }

/-- A riddle command may take its next step, on a bucket of the table that has been read with its chain, which leaves u (R385, R386). -/
def State.Stepping (s u : State) (d n : Nat) (c : RCmd) (k : AccessKind) (b : Bucket) : Prop :=
  (s.die d).riddle.find? n = some c ∧ c.step < c.total ∧ c.blocked = none ∧ s.inputPoison c (c.stepAt c.step) = none
    ∧ c.skips.contains (s.bucketVa c (c.stepAt c.step)) = false ∧ s.bucketHeld d n c (s.bucketVa c (c.stepAt c.step)) = false
    ∧ (s.stepState d n c).readBucket c k (s.bucketVa c (c.stepAt c.step)) = (u, .ok b)


/-! ### Launches, placement and the host -/

/-- A cast's block of rank r stands on a core as its launch says, with its groups at their start (R45, R47, R50, R204). -/
def State.Seated (s t : State) (l : Launch) (w : Work) (b rank core : Nat) : Prop :=
  (∃ x, t.blocks.find? b = some x ∧ x.launch = w.launch ∧ x.core = core ∧ x.rank = rank ∧ x.blkid = BitVec.ofNat 32 (w.castId * l.castSize + rank)
    ∧ x.placedAt = s.clk ∧ x.scr = [] ∧ x.slot = none ∧ x.asked = false ∧ x.stopping = false ∧ x.groups = (List.range l.ngrp).map fun g => b + 1 + g)
  ∧ ∀ g, g < l.ngrp → ∃ y, t.groups.find? (b + 1 + g) = some y ∧ y.cx.core = core ∧ y.cx.blk = b ∧ y.cx.grpid = BitVec.ofNat 5 g ∧ y.cx.prio = l.prio0
    ∧ y.cx.asid = l.asid ∧ y.cx.trapOff = l.trapOff ∧ y.cx.creg = l.word 0 ∧ y.resident = l.starts.getD g false ∧ y.ended = false ∧ y.exited = 0
    ∧ y.splits = [(0, Split.fresh l.entry (BitVec.allOnes 32) (BitVec.allOnes 32) (BitVec.allOnes 32) false [] (s.clk + 1))]
    ∧ (∀ k, k < 32 → y.plane k = l.plane0) ∧ (∀ r k, y.vreg r k = 0)
    ∧ ∀ r, y.ureg r = if 128 ≤ r ∧ r < 128 + l.consts.length then l.consts.getD (r - 128) 0 else 0

/-- An unplaced cast has been placed on cores of a die, rank by rank, and is no longer unplaced; memory is unchanged. -/
def State.CastPlaced (s t : State) (w : Work) (d : Nat) (cores : List Nat) : Prop :=
  let l := s.launch w.launch
  t.mem = s.mem ∧ (∀ r c, cores[r]? = some c → s.Seated t l w (s.uid + 1 + r * (l.ngrp + 1)) r c)
  ∧ (cores ≠ [] → (t.block (s.uid + 1)).granules = (s.freeGranules (cores.headD 0)).take l.parts.sum)
  ∧ ∀ r ∈ (t.launch w.launch).ranges, r.1 = d → r.2.1 ≠ w.castId

/-- A split's wait has ended: it is READY from the present clk on, and its instruction knows why, and for a line of its die what the line then says;
nothing else of the group has changed but the clk of its last event, and no memory. -/
def State.WaitEnded (s t : State) (gid e : Nat) (w : Wait) : Prop :=
  let p := (s.group gid).split e
  ∃ z, t.groups.find? gid = some z ∧ z = { s.group gid with splits := z.splits, eventAt := s.clk }
    ∧ z.splits.find? e = some { p.readyFrom s.clk with woke := some w, answer := match w with
      | .line a none _ => if s.lineEnds a then some (true, 0, BitVec.ofNat 64 (s.lineFlags a)) else none
      | _ => p.answer }
    ∧ (∀ f, f ≠ e → z.splits.find? f = (s.group gid).splits.find? f) ∧ MemoryKept s t

/-- A group's registers other than those a completed access writes are unchanged, one load fewer is outstanding, and the access is over (R228). -/
def State.LoadDone (s t : State) (gid n : Nat) : Prop :=
  (t.group gid).lcnt = (s.group gid).lcnt - 1 ∧ (t.group gid).accs.find? n = none ∧ (t.group gid).splits = (s.group gid).splits
    ∧ (t.group gid).fpst = (s.group gid).fpst ∧ MemoryKept s t

/-- States that follow one another over a list, one for each of its elements. -/
def State.Chain {α : Type} (r : α → State → State → Prop) : List α → State → State → Prop
  | [], s, t => t = s
  | x :: xs, s, t => ∃ u, r x s u ∧ State.Chain r xs u t

/-- Of a state, only one die's register at an offset has changed. -/
def State.OnlyRegister (s t : State) (d o : Nat) (v : Word) : Prop :=
  t = { s with dies := t.dies } ∧ (t.die d).reg o = v ∧ (∀ k, k ≠ o → (t.die d).reg k = (s.die d).reg k)
    ∧ t.die d = { s.die d with regs := (t.die d).regs } ∧ ∀ e, e ≠ d → t.die e = s.die e

/-- Of a state, only one group has changed. -/
def State.OnlyGroupOf (s t : State) (gid : Nat) : Prop :=
  t = { s with groups := t.groups } ∧ ∀ h, h ≠ gid → t.groups.find? h = s.groups.find? h

/-- A die's log has one more entry, and nothing else has changed. -/
def State.OnlyLogged (s t : State) (d : Nat) : Prop :=
  ∃ e, t = { s with dies := t.dies } ∧ t.die d = { s.die d with log := (s.die d).log ++ [e] } ∧ ∀ k, k ≠ d → t.die k = s.die k


/-- A die's log has more entries, and nothing else has changed. -/
def State.LoggedAll (s t : State) (d : Nat) (es : List LogEnt) : Prop :=
  t = { s with dies := t.dies } ∧ t.die d = { s.die d with log := (s.die d).log ++ es } ∧ ∀ k, k ≠ d → t.die k = s.die k

/-- A granule of a core is suspect after an error in it, and retired after a second, unless the host classifies errors (R222, R443). -/
def State.GranuleSuspected (s t : State) (c n : Nat) : Prop :=
  ((s.core c).suspect.contains n = false → (t.core c).suspect = (s.core c).suspect ++ [n] ∧ (t.core c).poolret = (s.core c).poolret)
  ∧ ((s.core c).suspect.contains n = true → (s.die (dieOfCore c)).mode.getLsbD 6 = false →
      (t.core c).suspect.contains n = false ∧ (t.core c).poolret = (s.core c).poolret ||| (1#64 <<< n))
  ∧ ((s.core c).suspect.contains n = true → (s.die (dieOfCore c)).mode.getLsbD 6 = true →
      (t.core c).suspect = (s.core c).suspect ∧ (t.core c).poolret = (s.core c).poolret)

/-- A set of a cluster cache is suspect after an error in it, and retired after a second, unless the host classifies errors (R301, R443). -/
def State.SetSuspected (s t : State) (k set : Nat) : Prop :=
  ((s.cluster k).suspect.contains set = false → (t.cluster k).suspect = (s.cluster k).suspect ++ [set] ∧ (t.cluster k).setsRet = (s.cluster k).setsRet)
  ∧ ((s.cluster k).suspect.contains set = true → (s.die (k / 8)).mode.getLsbD 6 = false →
      (t.cluster k).suspect.contains set = false ∧ (t.cluster k).setsRet.contains set = true)
  ∧ ((s.cluster k).suspect.contains set = true → (s.die (k / 8)).mode.getLsbD 6 = true →
      (t.cluster k).suspect = (s.cluster k).suspect ∧ (t.cluster k).setsRet = (s.cluster k).setsRet)

/-- Of a state, only the requests to pre-empt some live blocks with their casts have changed, and what a wake changes in cores: the blocks are asked to
stop, and their cores run (R353, R356). -/
def State.Asked (s t : State) (f : Nat → Block → Prop) : Prop :=
  (∀ b x, s.blocks.find? b = some x → ∃ y, t.blocks.find? b = some y ∧ y = { x with asked := y.asked } ∧ (x.asked = true → y.asked = true)
    ∧ (s.blockLive x = true → f b x → y.asked = true ∧ (t.core x.core).gated = false))
  ∧ ∀ c, ∃ k, t.core c = k ∧ k = { s.core c with gated := k.gated, wakes := k.wakes, why := k.why, woken := k.woken, wakeAt := k.wakeAt,
                                                 idleFrom := k.idleFrom }

/-- A host's request to memory has been performed at home: a read answers with the word, or with the entry of the PRP list of an outstanding command
that stands there (R434; log 31), and a write has put its bytes there (R428). -/
def State.HostServed (s t : State) (a : HostAcc) : Prop :=
  (a.data = [] → t = { s with hostMsgs := s.hostMsgs ++ [.read a.endpoint (match s.prpWord a.pa with
      | some w => bytesOf 8 w.toNat
      | none => (List.range 8).map fun k => s.homeByte (a.pa + k))] })
  ∧ (a.data ≠ [] → (∀ k, k < a.data.length → t.homeByte (a.pa + k) = a.data.getD k 0)
    ∧ (∀ y, ¬(a.pa ≤ y ∧ y < a.pa + a.data.length) → t.homeByte y = s.homeByte y) ∧ t.blocks = s.blocks ∧ t.level = s.level)
end Sys2Proof.Machine
end

