-- ==== Sys2Proof/Certificates/Slice0/Obligations.lean ====
section
/-! DEFINITION. The statements for the provers. -/

open Sys2Proof Sys2Proof.Machine

/-! ### Lane instructions -/

/-- The result of every lane integer, logic, move, floating-point and conversion instruction whose registers pass their checks and whose active lanes
raise no enabled flag: in each active and helper lane the destination takes the rule's value of that lane, every other register of every lane keeps
its value, the flags of the active lanes are added to FPST, the write is pending for the form's latency, and nothing else changes (R56, R66, R112 to
R124, R140 to R151, R24, R185). -/
def Obligations.LaneResult : Prop :=
  ∀ (i : Instr) (s : State) (f : LaneForm), laneForm i = some f → s.Issuing → s.Clear s.lanes f.uses → f.flags s &&& s.grp.enabled = 0 →
    Completes i s fun t => LaneWritten s t f.d s.lanes f.lat (fun k => (f.res s.srcs k).1) (f.flags s)

/-- A lane instruction whose active lanes raise an enabled flag raises FP_EXCEPTION: the flags are set, no register is written, BLAME names the lanes that
raised one, and TADDR holds the flags (R25, R191). A uniform instruction whose saturation raises an enabled OF raises FP_EXCEPTION, blaming EXEC, and
writes no register (R14, R25, R125, R191). -/
def Obligations.FpExceptionTraps : Prop :=
  (∀ (i : Instr) (s : State) (f : LaneForm), laneForm i = some f → s.Issuing → s.MayTrap → s.Clear s.lanes f.uses →
     f.flags s &&& s.grp.enabled ≠ 0 → Completes i s fun t =>
       TrapEntered s t 0x0D s.cur.off ((f.flags s).setWidth 64)
           (maskOf fun k => s.cur.mask.getLsbD k && (f.res s.srcs k).2 &&& s.grp.enabled != 0)
         ∧ t.grp.fpst = s.grp.fpst ||| f.flags s)
  ∧ (∀ (i : Instr) (s : State) (f : UniForm), uniForm i = some f → s.Issuing → s.MayTrap → s.Clear s.cur.mask f.uses →
       (f.res s).2 &&& s.grp.enabled ≠ 0 → Completes i s fun t =>
         TrapEntered s t 0x0D s.cur.off ((f.res s).2.setWidth 64) s.spl.exec ∧ t.grp.fpst = s.grp.fpst ||| (f.res s).2)

/-- The result of FRCP, FRSQ, FEXP2, FLOG2, FSIN, FCOS and FTANH where the quarter's unit is free: each sub-element takes the value that the rules settle
(and a free value where the fixed-point bounds do not settle it, log 7), the unit is taken for one clk per 8 lanes, and the result is written 12 clk
after the last batch (R38, R39, R140, R152, R153). -/
def Obligations.SpecialFunctionResult : Prop :=
  ∀ (i : Instr) (s : State) (o : LaneUn) (fn : SpecFn), specialOf i = some (o, fn) → s.Issuing → s.Clear s.lanes [rdV o.a, wrV o.d] →
    (s.core s.curCore).sfu.getD 0 (s.grp.cx.grpid.toNat % 4) ≤ s.now →
    let res (k : Nat) : Word × FpFlags := packFlags 32 fun j => (fn.eval s.fpCtx (elemAt 32 j (s.grp.vreg o.a.toNat k))).getD
      ((Config.freeWord s.tick (4096 + j) k).toNat % 2 ^ 32, 0)
    let batches := max 1 ((popMask s.lanes + 7) / 8)
    let flags := activeFlags s.cur.mask fun k => (res k).2
    s.cur.flow = .run → flags &&& s.grp.enabled = 0 → Completes i s fun t => ∃ u, LaneWritten s u o.d s.lanes (batches + 11) (fun k => (res k).1) flags
      ∧ t = u.modCore s.curCore fun k => { k with sfu := k.sfu.insert (s.grp.cx.grpid.toNat % 4) (s.now + batches) }

/-- The result of VSHF, VSHFI, QSWP, QBC, VRED into a vector register, VSCAN, VCONF, VTOPK and VMRANK once no other split holds the reconvergence back,
with no poison in a register read across lanes and no enabled flag raised: the participating lanes of the destination take the rule's value, and
nothing else changes (R36, R37, R154 to R165). -/
def Obligations.CrossLaneResult : Prop :=
  ∀ (i : Instr) (s : State) (f : CrossForm), crossForm i = some f → s.Issuing → (f.gathers = true → s.heldBack s.cur.gid s.cur.ent = false) →
    s.Clear (f.part s) f.uses → (∀ r, f.src = some r → s.CleanVector r) → f.flags s.srcs (f.part s) &&& s.grp.enabled = 0 →
    Completes i s fun t => LaneWritten s t f.d (f.part s) f.lat (f.res s.srcs (f.part s)) (f.flags s.srcs (f.part s))

/-- The result of VCMP, FCMP, VBAL and VRED into a uniform register: the destination takes the mask or the reduction, and nothing else changes (R120,
R146, R158, R159). VVOTE writes SC of the split with its latency of 6, from sub-element 0 of the active lanes: whether all are non-zero, whether any
is, or whether all are equal (R158, R165); VISECT writes the two intersection masks to sd and the two advances to the next register (R162). -/
def Obligations.MaskAndVoteResult : Prop :=
  (∀ (i : Instr) (s : State) (f : MaskForm), maskForm i = some f → s.Issuing → (f.gathers = true → s.heldBack s.cur.gid s.cur.ent = false) →
     s.Clear (f.lanes s) f.uses → (f.res s).2 &&& s.grp.enabled = 0 →
     Completes i s fun t => UniWritten s t f.d f.lat (f.res s).1 (f.res s).2)
  ∧ ((∀ (o : Vote) (s : State), s.Issuing → s.heldBack s.cur.gid s.cur.ent = false →
       s.Clear s.cur.mask [if o.e.w = 64 then rdV o.a else rdVlo o.a, wrSc] →
       let vs := (lanesOf s.cur.mask).map fun i => elemAt o.e.w 0 (s.grp.vreg o.a.toNat i)
       Completes (.vvote o) s fun t =>
         t.spl.sc = (match o.kind with
           | .all => vs.all (· != 0)
           | .any => vs.any (· != 0)
           | .eq => vs.all (· == vs.headD 0))
         ∧ (∃ l ∈ t.grp.late, l.kind = .sc ∧ l.land = s.now + 6) ∧ OnlyGroup s t
         ∧ t.grp = { s.grp with splits := t.grp.splits, late := t.grp.late } ∧ t.spl = { s.spl with sc := t.spl.sc })
     ∧ ∀ (o : Isect) (s : State), s.Issuing → s.heldBack s.cur.gid s.cur.ent = false → o.d ≠ 255 →
       s.Clear s.cur.mask [rdVlo o.a, rdVlo o.b, wrU o.d, wrU (o.d + 1)] →
       let a (i : Nat) : Nat := if s.cur.mask.getLsbD i then (s.grp.vreg o.a.toNat i).toNat % 2 ^ 32 else 0xFFFFFFFF
       let b (i : Nat) : Nat := if s.cur.mask.getLsbD i then (s.grp.vreg o.b.toNat i).toNat % 2 ^ 32 else 0xFFFFFFFF
       let top := min (a 31) (b 31)
       let ls := lanesOf s.cur.mask
       let ma := maskOf fun i => s.cur.mask.getLsbD i && ls.any fun k => b k == a i
       let mb := maskOf fun i => s.cur.mask.getLsbD i && ls.any fun k => a k == b i
       Completes (.visect o) s fun t =>
         (∀ r : UReg, t.grp.ureg r.toNat =
           if r = o.d then BitVec.ofNat 64 (mb.toNat * 2 ^ 32 + ma.toNat)
           else if r = o.d + 1 then BitVec.ofNat 64 ((ls.filter fun i => b i ≤ top).length * 2 ^ 32 + (ls.filter fun i => a i ≤ top).length)
           else s.grp.ureg r.toNat)
         ∧ UniformPending s t o.d 6 ∧ UniformPending s t (o.d + 1) 6 ∧ UniformFrame s t ∧ t.grp.fpst = s.grp.fpst)

/-! ### Uniform instructions -/

/-- The result of every uniform arithmetic, logic, shift, move, bit and select instruction, of MSAVE and of GETSR, whose registers pass their checks and
whose saturation raises no enabled flag: the destination takes the rule's value, the flag is added to FPST, the write is pending for the latency of
R135, and nothing else changes (R126 to R137). -/
def Obligations.UniformResult : Prop :=
  ∀ (i : Instr) (s : State) (f : UniForm), uniForm i = some f → s.Issuing → s.Clear s.cur.mask f.uses → (f.res s).2 &&& s.grp.enabled = 0 →
    Completes i s fun t => UniWritten s t f.d f.lat (f.res s).1 (f.res s).2

/-- SDIV and SREM on a free divider: the quotient rounds towards zero and the remainder keeps the sign of the dividend; division by zero gives all ones
and the dividend; the divider is taken for 24 clk, which is the latency (R128, R135). The uniform comparisons write SC of the split and nothing else
(R129, R132, R136). MLOAD, MAND, MANDN, MOR and MXOR combine EXEC with sd[31:0] within OWNED, a change clears HLP, and nothing else changes; MSKOP
also writes the old EXEC to sd (R65, R133, R180). -/
def Obligations.ScalarAndMaskForms : Prop :=
  (∀ (o : UniBin) (s : State) (rem : Bool), s.Issuing → s.Clear s.cur.mask ([rdUw o.e.w o.a] ++ usesS o.e.w o.b ++ [wrU o.d]) →
     (s.core s.curCore).divider.getD 0 (s.grp.cx.grpid.toNat % 4) ≤ s.now → s.cur.flow = .run →
     let a := readInt o.e.isSigned o.e.w (s.grp.ureg o.a.toNat).toNat
     let b := readInt o.e.isSigned o.e.w (s.src2 o.b).toNat
     let q : Nat := if b = 0 then 2 ^ o.e.w - 1 else wrapNat o.e.w (a.tdiv b)
     let r : Nat := wrapNat o.e.w (if b = 0 then a else a.tmod b)
     Completes (if rem = true then .srem o else .sdiv o) s fun t =>
       ∃ u, UniWritten s u o.d 24 (extU o.e.w o.e.isSigned (if rem = true then r else q)) 0
         ∧ t = u.modCore s.curCore fun k => { k with divider := k.divider.insert (s.grp.cx.grpid.toNat % 4) (s.now + 24) })
  ∧ ((∀ (o : UniCmp) (s : State), s.Issuing → s.Clear s.cur.mask [rdUw o.e.w o.a, rdUw o.e.w o.b, wrSc] →
       let a := readInt o.e.isSigned o.e.w (s.grp.ureg o.a.toNat).toNat
       let b := readInt o.e.isSigned o.e.w (s.grp.ureg o.b.toNat).toNat
       exec (.scmp o) s = .next (s.modSpl fun p => { p with sc := match o.cond with
         | .eq => decide (a = b)
         | .ne => decide (a ≠ b)
         | .lt => decide (a < b)
         | .le => decide (a ≤ b)
         | .gt => decide (b < a)
         | .ge => decide (b ≤ a) }))
     ∧ ∀ (o : ShCmp) (s : State), s.Issuing → s.Clear s.cur.mask ([rdUw 32 o.a] ++ usesS 32 o.b ++ [wrSc]) →
       let a := (s.grp.ureg o.a.toNat).toNat
       let b := (s.src2 o.b).toNat
       exec (.scmpShort o) s = .next (s.modSpl fun p => { p with sc := match o.cond with
         | .eq => a % 2 ^ 32 == b % 2 ^ 32
         | .ne => a % 2 ^ 32 != b % 2 ^ 32
         | .lt => decide (sext 32 a < sext 32 b)
         | .le => decide (sext 32 a ≤ sext 32 b)
         | .gt => decide (sext 32 b < sext 32 a)
         | .ge => decide (sext 32 b ≤ sext 32 a)
         | .ltn => decide (a % 2 ^ 32 < b % 2 ^ 32)
         | .len => decide (a % 2 ^ 32 ≤ b % 2 ^ 32)
         | .gtn => decide (b % 2 ^ 32 < a % 2 ^ 32)
         | .gen => decide (b % 2 ^ 32 ≤ a % 2 ^ 32) }))
  ∧ ((∀ (i : Instr) (r : UReg) (f : Mask → Mask → Mask) (s : State), maskOpOf i = some (r, f) → s.Issuing → s.Clear s.cur.mask [rdUlo r] →
       exec i s = .next (s.modSpl fun p =>
         let x := f s.spl.exec ((s.grp.ureg r.toNat).setWidth 32) &&& p.owned
         { p with exec := x, hlp := if x = p.exec then p.hlp else 0 }))
     ∧ ∀ (o : ThreeU) (s : State), s.Issuing → s.Clear s.cur.mask [rdUlo o.a, rdUlo o.b, wrU o.d] →
       Completes (.mskop o) s fun t => ∃ u, UniWritten s u o.d 2 (s.spl.exec.setWidth 64) 0
         ∧ t = u.modSpl fun p =>
           let a : Mask := (s.grp.ureg o.a.toNat).setWidth 32
           let b : Mask := (s.grp.ureg o.b.toNat).setWidth 32
           let x := ((s.spl.exec &&& ~~~a) ||| (a &&& b)) &&& p.owned
           { p with exec := x, hlp := if x = p.exec then p.hlp else 0 })

/-- SETSR of each writable special register: what the register holds afterwards, and nothing else changes (R23, R50, R53, R58, R65, R187, R188). SETSR of
the loop registers: level k of the loop stack, counted from the bottom, takes the new begin offset, end offset or count, and a register of a level
that the stack does not have changes nothing; while the split runs its handler the stack set aside is the one reached (R173, R176, R192). -/
def Obligations.SetSpecialResult : Prop :=
  (∀ (o : SetSr) (s : State), s.Issuing → s.Clear s.cur.mask (rdU o.a :: if o.r = .sc then [wrSc] else []) →
     let x := s.grp.ureg o.a.toNat
     let grp (f : Group → Group) : Prop := exec (.setsr o) s = .next (s.modGrp f)
     let spl (f : Split → Split) : Prop := exec (.setsr o) s = .next (s.modSpl f)
     match o.r with
     | .exec => spl fun p => { p with exec := x.setWidth 32 &&& p.owned, hlp := if x.setWidth 32 &&& p.owned = p.exec then p.hlp else 0 }
     | .sc => spl fun p => { p with sc := x.getLsbD 0 }
     | .fpm => grp fun g => { g with fpm := (x.extractLsb' 4 5 ++ 0#1) ++ (if (x.extractLsb' 0 3).toNat = 0 ∨ 5 < (x.extractLsb' 0 3).toNat then 1#3 else x.extractLsb' 0 3) }
     | .fpst => grp fun g => { g with fpst := x.setWidth 5 }
     | .hlp => spl fun p => { p with hlp := x.setWidth 32 &&& p.owned &&& ~~~p.exec }
     | .sbchk => grp fun g => { g with sbchk := x.getLsbD 0 }
     | .rcvf => spl fun p => { p with rcvf := x.getLsbD 0 }
     | .tcause => grp fun g => { g with tcause := (g.tcause &&& ~~~0x701FF#64) ||| (x &&& 0x701FF#64) }
     | .taddr => grp fun g => { g with taddr := x }
     | .toff => grp fun g => { g with toff := x &&& 0x3FFFFFF#64 }
     | .tmask => grp fun g => { g with tmask := x }
     | .svpl0 => grp fun g => { g with svpl0 := x &&& 0xFFFFFFFFFFFF#64 }
     | .svpl1 => grp fun g => { g with svpl1 := x &&& 0xFFFFFFFFFFFF#64 }
     | .lb0 | .lb1 | .lb2 | .lb3 | .le0 | .le1 | .le2 | .le3 | .lc0 | .lc1 | .lc2 | .lc3 => True
     | _ => s.MayTrap → Completes (.setsr o) s fun t => TrapEntered s t 0x0F s.cur.off (o.r.index.setWidth 64) s.spl.exec)
  ∧ (∀ (o : SetSr) (s : State) (k : Nat) (f : Word → Loop → Loop), loopRegOf o.r = some (k, f) → s.Issuing → s.Clear s.cur.mask [rdU o.a] →
       let x := s.grp.ureg o.a.toNat
       let set (l : List Loop) : List Loop := l.zipIdx.map fun p => if p.2 + k + 1 = l.length then f x p.1 else p.1
       exec (.setsr o) s = .next (if s.grp.handler = some s.cur.ent then s.modGrp fun g => { g with aside := set g.aside }
         else s.modSpl fun p => { p with loops := set p.loops }))

/-! ### Register checks -/

/-- An instruction that names a register at or above its group's allocation raises ILLEGAL_INSTR, with TADDR the offset and BLAME the issue's active
lanes, and writes no register (R46, R95). With SBCHK = 1, an instruction that names a register for which the result of another instruction is still to
be written, or whose load no WAITCNT has covered, raises SB_UNDERSIZED on the first such register, blames EXEC, and writes nothing; while a result of
its own split is still to be written, the split is TRAPPED and enters the handler later (R186, R191, R228). An instruction that reads a poisoned half
of a register in a lane for which it executes raises RF_POISON or MEM_POISON as the mark says, TADDR names the register and the half that the model
takes first (log 102), BLAME every lane that reads poison in any register it names, and nothing is written (R67, R234). -/
def Obligations.RegisterChecks : Prop :=
  (∀ (i : Instr) (s : State) (lanes : Mask) (uses : List Use), checksOf i s = some (lanes, uses) → s.Issuing → s.MayTrap → s.cur.mask ≠ 0 →
     uses.any s.grp.unallocated = true →
     Completes i s fun t => TrapEntered s t 0x01 s.cur.off (BitVec.ofNat 64 s.cur.off) s.cur.mask ∧ t.grp.fpst = s.grp.fpst)
  ∧ (∀ (i : Instr) (s : State) (lanes : Mask) (uses : List Use) (u : Use), checksOf i s = some (lanes, uses) → s.Issuing →
       uses.any s.grp.unallocated = false → s.grp.sbchk = true → uses.find? (s.grp.pendingUse s.now s.iid s.spl.owned) = some u →
       let detail : Word := BitVec.ofNat 64 (match u.kind with | .vec => u.num | .uni => 256 + u.num | .tile => 512 + u.num | .sc => 768)
       (s.MayTrap → Completes i s fun t => TrapEntered s t 0x0A s.cur.off detail s.spl.exec ∧ t.grp.fpst = s.grp.fpst)
       ∧ (s.grp.handler = none → s.grp.firstTrapped = none → s.grp.latePending s.clk s.spl.owned = true → s.spl.held = none → s.cur.fset = 0 →
         s.cur.newPlanes = [] → Completes i s fun t => t = { s with groups := t.groups, cur := { s.cur with flow := .trapped } }
           ∧ (∀ g, g ≠ s.cur.gid → t.groups.find? g = s.groups.find? g) ∧ t.grp = { s.grp with splits := t.grp.splits }
           ∧ ∃ x : Trap, t.spl =
               { s.spl with st := .trapped x s.clk, retry := none, since := none, owes := [], part := none, idxExec := none, held := none } ∧ x.cause = 0x0A ∧ x.toff = s.cur.off
             ∧ x.taddr = detail ∧ x.blame = s.spl.exec))
  ∧ (∀ (i : Instr) (s : State) (lanes : Mask) (uses : List Use) (u : Use) (half : Nat) (memory : Bool), checksOf i s = some (lanes, uses) →
       s.Issuing → s.MayTrap → uses.any s.grp.unallocated = false → uses.any (s.grp.pendingUse s.now s.iid s.spl.owned) = false →
       s.operandHazards uses = [] → s.firstPoison lanes uses = some (u, half, memory) →
       Completes i s fun t =>
         TrapEntered s t (if memory then 0x16 else 0x0C) s.cur.off
           (BitVec.ofNat 64 ((match u.kind with | .vec => u.num | .uni => 256 + u.num | .tile => 512 + u.num | .sc => 768) + 1024 * half))
           (maskOf fun k => lanes.getLsbD k && uses.any fun u =>
             let marked (h : Nat) : Bool := match u.kind with
               | .vec => (s.grp.vpois.find? (2 * vkey u.num k + h)).isSome
               | .uni => (s.grp.upois.find? (2 * u.num + h)).isSome
               | _ => false
             (u.rd % 2 == 1 && marked 0) || (decide (2 ≤ u.rd) && marked 1)) ∧ t.grp.fpst = s.grp.fpst)

/-! ### Control -/

/-- BR and BRS: where the condition holds and the target may be gone to, the split moves to the target, and where it fails nothing happens; JMP and JMPR
move to their targets. Nothing else changes (R84, R167, R169). Every control transfer completes: BR, BRS, BRD (of every lane of EXEC), JMP, JMPR,
CALL, CALLR, RET, LOOP and LBREAK go to a target that is in the region, a multiple of 4, in no plane a tail word and in none the word after a prefix;
a branch whose condition fails, a BRD that takes no lane and a LOOP with a count go on (R86, R87, R167, R169 to R175). A taken control transfer to a
target below zero, not a multiple of 4, at or above the region length, or at a tail word raises BAD_TARGET, and one to the word after a prefix raises
ORPHAN_PREFIX, with TADDR the target; the split stays where the trap leaves it (R86, R87, R189, R191). That a target below zero is BAD_TARGET, with
TADDR its two's complement in 64 bits, is the model's choice (log 120). -/
def Obligations.BranchResult : Prop :=
  (∀ s : State, s.Issuing →
     let goes (i : Instr) (c : BCond) (target : Int) : Prop :=
       (s.condHolds c = true → s.MayGo s.spl.owned target → exec i s = .next (s.movedTo target)) ∧ (s.condHolds c = false → exec i s = .next s)
     (∀ o : Branch, s.Clear s.cur.mask (condUses o.cond) → goes (.br o) o.cond (s.cur.next + 4 * o.disp.toInt))
     ∧ (∀ o : ShBr, s.Clear s.cur.mask (condUses o.cond) → goes (.brs o) o.cond (s.cur.next + 4 * o.disp.toInt))
     ∧ (∀ o : JumpAbs, s.MayGo s.spl.owned (4 * o.abs.toNat) → exec (.jmp o) s = .next (s.movedTo (4 * o.abs.toNat)))
     ∧ ∀ o : OneU, s.Clear s.cur.mask [rdUlo o.a] → s.MayGo s.spl.owned ((s.grp.ureg o.a.toNat).toNat % 2 ^ 32 : Nat) →
         exec (.jmpr o) s = .next (s.movedTo ((s.grp.ureg o.a.toNat).toNat % 2 ^ 32 : Nat)))
  ∧ (∀ s : State, s.Issuing →
       let ok (target : Int) : Prop := s.TargetOk s.spl.owned target
       let goes (i : Instr) (target : Int) : Prop := exec i s = .next (s.movedTo target)
       let low (r : UReg) : Int := ((s.grp.ureg r.toNat).toNat % 2 ^ 32 : Nat)
       (∀ o : Branch, s.Clear s.cur.mask (condUses o.cond) →
         (s.condHolds o.cond = true → ok (s.cur.next + 4 * o.disp.toInt) → goes (.br o) (s.cur.next + 4 * o.disp.toInt))
         ∧ (s.condHolds o.cond = false → exec (.br o) s = .next s))
       ∧ (∀ o : ShBr, s.Clear s.cur.mask (condUses o.cond) →
         (s.condHolds o.cond = true → ok (s.cur.next + 4 * o.disp.toInt) → goes (.brs o) (s.cur.next + 4 * o.disp.toInt))
         ∧ (s.condHolds o.cond = false → exec (.brs o) s = .next s))
       ∧ (∀ o : BranchDiv, s.Clear s.cur.mask [rdUlo o.a] →
         let m : Mask := (s.grp.ureg o.a.toNat).setWidth 32
         let taken := s.spl.exec &&& (if o.not then ~~~m else m)
         (taken = 0 → exec (.brd o) s = .next s)
         ∧ (taken ≠ 0 → taken = s.spl.exec → ok (s.cur.next + 4 * o.disp.toInt) → goes (.brd o) (s.cur.next + 4 * o.disp.toInt)))
       ∧ (∀ o : JumpAbs, ok (4 * o.abs.toNat) → goes (.jmp o) (4 * o.abs.toNat))
       ∧ (∀ o : OneU, (s.Clear s.cur.mask [rdUlo o.a] → ok (low o.a) → goes (.jmpr o) (low o.a))
         ∧ (s.Clear s.cur.mask [rdU o.a] → wbits (s.grp.ureg o.a.toNat) 34 32 = s.spl.loops.length → ok (low o.a) → goes (.ret o) (low o.a)))
       ∧ (∀ o : CallRel, s.Clear s.cur.mask [wrU o.d] → ok (s.cur.next + 4 * o.disp.toInt) → Completes (.call o) s fun t =>
         t.cur.flow = .moved ∧ t.spl.off = (s.cur.next + 4 * o.disp.toInt).toNat)
       ∧ (∀ o : TwoU, s.Clear s.cur.mask [rdUlo o.a, wrU o.d] → ok (low o.a) → Completes (.callr o) s fun t =>
         t.cur.flow = .moved ∧ t.spl.off = (low o.a).toNat)
       ∧ (∀ o : LoopOp, s.Clear s.cur.mask [rdUlo o.a] →
         let le : Int := s.cur.next + 4 * o.disp.toInt
         ((s.grp.ureg o.a.toNat).setWidth 32 = (0 : BitVec 32) → ok le → goes (.loop o) le)
         ∧ ((s.grp.ureg o.a.toNat).setWidth 32 ≠ (0 : BitVec 32) → s.spl.loops.length < 4 → Completes (.loop o) s fun t =>
           t.spl.loops.length = s.spl.loops.length + 1 ∧ t.spl.off = s.spl.off ∧ t.cur = s.cur))
       ∧ ∀ (o : CondOnly) l rest, s.Clear s.cur.mask (condUses o.cond) → s.spl.loops = l :: rest →
         (s.condHolds o.cond = true → ok l.le → Completes (.lbreak o) s fun t => t.cur.flow = .moved ∧ t.spl.off = l.le ∧ t.spl.loops = rest)
         ∧ (s.condHolds o.cond = false → exec (.lbreak o) s = .next s))
  ∧ (∀ (s : State) (target : Int) (cause : Nat), s.Issuing → s.MayTrap → s.goFault s.spl.owned target = some cause →
       let traps (i : Instr) : Prop := Completes i s fun t => TrapEntered s t cause s.cur.off (BitVec.ofInt 64 target) s.spl.exec
       (∀ o : Branch, s.Clear s.cur.mask (condUses o.cond) → s.condHolds o.cond = true → target = s.cur.next + 4 * o.disp.toInt → traps (.br o))
       ∧ (∀ o : ShBr, s.Clear s.cur.mask (condUses o.cond) → s.condHolds o.cond = true → target = s.cur.next + 4 * o.disp.toInt → traps (.brs o))
       ∧ (∀ o : JumpAbs, target = (4 * o.abs.toNat : Nat) → traps (.jmp o))
       ∧ (∀ o : OneU, s.Clear s.cur.mask [rdUlo o.a] → target = ((s.grp.ureg o.a.toNat).toNat % 2 ^ 32 : Nat) → traps (.jmpr o))
       ∧ (∀ o : CallRel, s.Clear s.cur.mask [wrU o.d] → target = s.cur.next + 4 * o.disp.toInt → traps (.call o))
       ∧ ∀ o : TwoU, s.Clear s.cur.mask [rdUlo o.a, wrU o.d] → target = ((s.grp.ureg o.a.toNat).toNat % 2 ^ 32 : Nat) → traps (.callr o))

/-- CALL and CALLR write the link word (the offset of the next instruction, and the depth of the loop stack) and move the split; RET with the depth that
the link word names moves to its offset, and with another depth raises LOOP_DEPTH (R171, R172). LOOP pushes a level, with its offsets in 26 bits
(R176), moves past the body when the count is 0, and raises LOOP_DEPTH on a full stack; LBREAK pops the top level and moves to its end when its
condition holds, and does nothing when it fails (R173, R175, R176). On an empty stack it raises LOOP_DEPTH, whether or not its condition holds, as the
model reads R175 (log 41). -/
def Obligations.CallAndLoopResult : Prop :=
  (∀ s : State, s.Issuing →
     let link : Word := BitVec.ofNat 64 (s.cur.next % 2 ^ 26 + s.spl.loops.length * 2 ^ 32)
     (∀ o : CallRel, s.Clear s.cur.mask [wrU o.d] → s.MayGo s.spl.owned (s.cur.next + 4 * o.disp.toInt) →
       Completes (.call o) s fun t => UniWritten (s.movedTo (s.cur.next + 4 * o.disp.toInt)) t o.d 2 link 0)
     ∧ (∀ o : TwoU, s.Clear s.cur.mask [rdUlo o.a, wrU o.d] → s.MayGo s.spl.owned ((s.grp.ureg o.a.toNat).toNat % 2 ^ 32 : Nat) →
       Completes (.callr o) s fun t => UniWritten (s.movedTo ((s.grp.ureg o.a.toNat).toNat % 2 ^ 32 : Nat)) t o.d 2 link 0)
     ∧ ∀ o : OneU, s.Clear s.cur.mask [rdU o.a] →
       let x := s.grp.ureg o.a.toNat
       (wbits x 34 32 = s.spl.loops.length → s.MayGo s.spl.owned (x.toNat % 2 ^ 32 : Nat) →
         exec (.ret o) s = .next (s.movedTo (x.toNat % 2 ^ 32 : Nat)))
       ∧ (wbits x 34 32 ≠ s.spl.loops.length → s.MayTrap →
         Completes (.ret o) s fun t => TrapEntered s t 0x09 s.cur.off (BitVec.ofNat 64 s.spl.loops.length) s.spl.exec))
  ∧ (∀ s : State, s.Issuing →
       (∀ o : LoopOp, s.Clear s.cur.mask [rdUlo o.a] →
         let n : BitVec 32 := (s.grp.ureg o.a.toNat).setWidth 32
         let le : Int := s.cur.next + 4 * o.disp.toInt
         (n = 0 → s.MayGo s.spl.owned le → exec (.loop o) s = .next (s.movedTo le))
         ∧ (n ≠ 0 → s.spl.loops.length < 4 → exec (.loop o) s = .next (s.modSpl fun p => { p with loops := ⟨s.cur.next % 2 ^ 26, (le % 2 ^ 26).toNat, n⟩ :: p.loops }))
         ∧ (n ≠ 0 → 4 ≤ s.spl.loops.length → s.MayTrap → Completes (.loop o) s fun t => TrapEntered s t 0x09 s.cur.off 4 s.spl.exec))
       ∧ ∀ o : CondOnly, s.Clear s.cur.mask (condUses o.cond) →
         (s.spl.loops = [] → s.MayTrap → Completes (.lbreak o) s fun t => TrapEntered s t 0x09 s.cur.off 0 s.spl.exec)
         ∧ ∀ l rest, s.spl.loops = l :: rest →
           (s.condHolds o.cond = true → s.MayGo s.spl.owned l.le →
             exec (.lbreak o) s = .next ((s.movedTo l.le).modSpl fun p => { p with loops := rest }))
           ∧ (s.condHolds o.cond = false → exec (.lbreak o) s = .next s))

/-- BRD: with no lane taken nothing happens; with every lane of EXEC taken the split moves; otherwise the taken lanes become a split of their own in the
lowest free entry, both halves with ORIGIN the mask owned before, or wait in the deferred area, and the instruction's W holds them too (R184); where
the target is the end of the top level, the taken half's iteration ends there; with neither entry nor room, or in a handler, it raises SPLIT_OVERFLOW
(R59, R60, R170, R174, R192). -/
def Obligations.DivergentBranch : Prop :=
  ∀ (o : BranchDiv) (s : State), s.Issuing → s.Clear s.cur.mask [rdUlo o.a] →
    let m : Mask := (s.grp.ureg o.a.toNat).setWidth 32
    let taken := s.spl.exec &&& (if o.not then ~~~m else m)
    let target : Int := s.cur.next + 4 * o.disp.toInt
    let p := s.spl
    let l := p.loops.headD ⟨0, 0, 0⟩
    let ends := p.loops ≠ [] ∧ l.le = target.toNat
    let pops := ends ∧ l.lc.toNat ≤ 1 ∧ p.loops.tail = []
    let again := ends ∧ 1 < l.lc.toNat ∧ l.lb ≠ l.le ∧ s.MayGo taken l.lb
    let rest : Split := { p with owned := p.owned &&& ~~~taken, exec := p.exec &&& ~~~taken, origin := p.owned, hlp := 0 }
    (taken = 0 → exec (.brd o) s = .next s)
    ∧ (taken ≠ 0 → taken = p.exec → s.MayGo p.owned target → exec (.brd o) s = .next (s.movedTo target))
    ∧ (taken ≠ 0 → taken ≠ p.exec → s.MayGo taken target → s.grp.handler ≠ some s.cur.ent →
        (∀ e, s.grp.freeEntry = some e → ¬ends ∨ pops ∨ again → Completes (.brd o) s fun t =>
          OnlyGroup s t ∧ t.grp = { s.grp with splits := t.grp.splits } ∧ t.spl = rest
          ∧ (∀ f, f ≠ e → f ≠ s.cur.ent → t.grp.splits.find? f = s.grp.splits.find? f)
          ∧ let c := t.grp.split e
            (t.grp.splits.find? e).isSome = true ∧ c.owned = taken ∧ c.exec = taken ∧ c.origin = p.owned
              ∧ c.sc = p.sc ∧ c.hlp = 0 ∧ c.rcvf = false ∧ c.st = .ready ∧ (¬ends → c.readyAt = s.now + 1 + s.cur.w)
              ∧ (¬ends → c.off = target.toNat ∧ c.loops = p.loops)
              ∧ (pops → c.off = target.toNat ∧ c.loops = [])
              ∧ (again → c.off = l.lb ∧ c.loops = { l with lc := l.lc - 1 } :: p.loops.tail))
        ∧ (s.grp.freeEntry = none → p.loops = [] → s.grp.defCount < s.grp.cx.defCap → Completes (.brd o) s fun t =>
          t.spl = rest ∧ t.mem = s.mem
          ∧ t.grp = { s.grp with splits := t.grp.splits, defCount := s.grp.defCount + 1, defFrom := max s.grp.defFrom (s.now + 1 + s.cur.w) }
          ∧ (∀ b, b ≠ s.grp.cx.blk → t.blocks.find? b = s.blocks.find? b)
          ∧ ∀ b, s.blocks.find? s.grp.cx.blk = some b → t.blocks.find? s.grp.cx.blk = some (b.writeBytes (s.grp.defAddr s.grp.defCount)
            (bytesOf 4 (target.toNat + (if p.sc then 2 ^ 26 else 0)) ++ bytesOf 4 taken.toNat ++ bytesOf 4 taken.toNat ++ bytesOf 4 p.owned.toNat)))
        ∧ (s.grp.freeEntry = none → (p.loops ≠ [] ∨ s.grp.cx.defCap ≤ s.grp.defCount) → s.MayTrap →
          Completes (.brd o) s fun t => TrapEntered s t 0x08 s.cur.off (BitVec.ofInt 64 target) taken))

/-- TRAP raises SOFT_TRAP: the resume offset is the word after it, TADDR its immediate, BLAME is EXEC (R190, R191). A trap that the handler raises itself
is a double trap: the group ends at once, all its lanes exit, its registers are dropped, its die's log takes an entry DOUBLE_TRAP, and nothing is
stored to memory (R194). -/
def Obligations.TrapRaised : Prop :=
  (∀ (o : Imm8) (s : State), s.Issuing → s.MayTrap →
     Completes (.trap o) s fun t => TrapEntered s t 0x0E s.cur.next (o.k.setWidth 64) s.spl.exec ∧ t.grp.fpst = s.grp.fpst)
  ∧ (∀ (o : Imm8) (s : State), s.Issuing → s.grp.handler = some s.cur.ent → s.spl.held = none → s.cur.fset = 0 → s.cur.newPlanes = [] →
       Completes (.trap o) s fun t =>
         t.grp.ended = true ∧ t.grp.exited = BitVec.allOnes 32 ∧ t.grp.splits = [] ∧ t.grp.v = [] ∧ t.grp.u = [] ∧ t.grp.m = []
         ∧ (∃ e, e.kind = 0x22 ∧ (t.die s.curDie).log = (s.die s.curDie).log ++ [e]) ∧ t.mem = s.mem ∧ t.blocks = s.blocks
         ∧ ∀ g, g ≠ s.cur.gid → t.groups.find? g = s.groups.find? g)

/-- TRET in the handler: the planes of the lanes that its split owns come from SVPL0 and SVPL1, EXEC from TMASK within OWNED, SC from TCAUSE, the offset
from TOFF and the loop stack from the one set aside; HLP is 0, INTRAP is 0, and RPL is kept for the next instruction. Outside the handler it raises
ILLEGAL_INSTR (R193). -/
def Obligations.TrapReturn : Prop :=
  ∀ s : State, s.Issuing →
    (s.grp.handler = some s.cur.ent → s.spl.loops = [] →
      (∀ k, k < 32 → s.spl.owned.getLsbD k = true → s.grp.planeSaved k < 2 ^ wbits s.grp.cx.creg 19 18) →
      s.transfer s.grp ((List.range 8).filter fun p => (lanesOf (s.spl.owned &&& ~~~s.grp.exited)).any fun k => s.grp.planeSaved k == p)
        (wbits s.grp.toff 25 0) = .ok →
      Completes .tret s fun t =>
        t.grp.handler = none ∧ t.grp.tcause = s.grp.tcause &&& ~~~(1#64 <<< 15) ∧ t.cur.flow = .moved
        ∧ (∀ k, k < 32 → t.grp.plane k = if s.spl.owned.getLsbD k then s.grp.planeSaved k else s.grp.plane k)
        ∧ t.spl = { s.spl with
            exec := BitVec.ofNat 32 (s.grp.tmask.toNat / 2 ^ 32) &&& s.spl.owned, sc := s.grp.tcause.getLsbD 8, hlp := 0,
            off := wbits s.grp.toff 25 0, loops := s.grp.aside, rpl := wbits s.grp.tcause 18 16, iid := s.grp.resumedIid }
        ∧ t.grp.v = s.grp.v ∧ t.grp.u = s.grp.u ∧ t.grp.m = s.grp.m ∧ t.mem = s.mem ∧ t.blocks = s.blocks)
    ∧ (s.grp.handler ≠ some s.cur.ent → s.MayTrap →
      Completes .tret s fun t => TrapEntered s t 0x01 s.cur.off (BitVec.ofNat 64 s.cur.off) s.cur.mask)

/-- RCV and RCVW: once every lane of the waited-for set that has not exited is owned by the split, the wait is over, and RCVW writes RCVF := 0; past its
expiry RCVW goes on with RCVF := 1. A split waits before that, and where another stands beside it to merge first or the uniform pipe of this clk is
taken. A wait that has ended keeps the outcome of its end (R177, R178; log 25). -/
def Obligations.ReceiveResult : Prop :=
  ∀ s : State, s.Issuing →
    let all (mask : Option UReg) : Bool :=
      (match mask with | some r => (s.grp.ureg r.toNat).setWidth 32 | none => s.spl.origin) &&& ~~~s.grp.exited &&& ~~~s.spl.owned == 0
    let free := s.waiterHere = false ∧ s.pipeFree s.cur.gid true = true
    (∀ e m, s.spl.woke = some (.rcv e m) → (∀ o : Rcv, exec (.rcv o) s = .next s)
      ∧ ∀ o : Rcvw, exec (.rcvw o) s = .next (s.modSpl fun p => { p with rcvf := e.isSome }))
    ∧ (s.spl.woke = none → ∀ o : Rcv, s.Clear s.cur.mask (o.mask.toList.map rdUlo) →
      (all o.mask = true → free → exec (.rcv o) s = .next s)
      ∧ (all o.mask = false ∨ ¬free → exec (.rcv o) s =
        .next ((s.modSpl fun p => { p with st := .waiting (.rcv none (o.mask.map (·.toNat))) }).setFlow .stall)))
    ∧ (s.spl.woke = none → ∀ o : Rcvw, s.Clear s.cur.mask (rdUlo o.a :: o.mask.toList.map rdUlo) →
      (all o.mask = true → free → exec (.rcvw o) s = .next (s.modSpl fun p => { p with rcvf := false }))
      ∧ (all o.mask = false → s.spl.readyAt + (s.grp.ureg o.a.toNat).toNat % 2 ^ 32 ≤ s.clk → free →
        exec (.rcvw o) s = .next (s.modSpl fun p => { p with rcvf := true }))
      ∧ (all o.mask = false ∧ s.clk < s.spl.readyAt + (s.grp.ureg o.a.toNat).toNat % 2 ^ 32 ∨ ¬free → exec (.rcvw o) s =
        .next ((s.modSpl fun p =>
          { p with st := .waiting (.rcv (some (s.spl.readyAt + (s.grp.ureg o.a.toNat).toNat % 2 ^ 32)) (o.mask.map (·.toNat))) }).setFlow .stall)))

/-- EXIT removes the lanes of EXEC from the group for good: inactive owned lanes stay and the split goes on; a split that owns no other lane leaves the
split table, where it ran the handler INTRAP ends with it, and a group of which no lane is left ends (R63, R179, R192). NOP changes nothing; QHLP
makes HLP the owned inactive lanes of the quads that hold an active lane; DGON enables the digest, clearing it unless KEEP, and DGOFF disables it;
YIELD goes on where no pre-emption of its block is asked for or under way, and waits otherwise (R65, R91, R360, R461). -/
def Obligations.ExitAndSimpleEffects : Prop :=
  (∀ s : State, s.Issuing →
     let x := s.spl.exec
     (s.spl.owned &&& ~~~x ≠ 0 → Completes .exit s fun t =>
       OnlyGroup s t ∧ t.grp = { s.grp with exited := s.grp.exited ||| x, splits := t.grp.splits }
       ∧ t.spl = { s.spl with owned := s.spl.owned &&& ~~~x, exec := 0, hlp := if x = 0 then s.spl.hlp else 0 })
     ∧ (s.spl.owned &&& ~~~x = 0 → s.grp.exited ||| x ≠ BitVec.allOnes 32 → s.grp.defCount = 0 → s.grp.handler ≠ some s.cur.ent →
       Completes .exit s fun t => t = { s with groups := t.groups, cur := { s.cur with flow := .gone } }
         ∧ (∀ g, g ≠ s.cur.gid → t.groups.find? g = s.groups.find? g) ∧ t.grp.exited = s.grp.exited ||| x
         ∧ t.grp.splits.find? s.cur.ent = none ∧ ∀ e, e ≠ s.cur.ent → t.grp.splits.find? e = s.grp.splits.find? e)
     ∧ (s.spl.owned &&& ~~~x = 0 → s.grp.exited ||| x ≠ BitVec.allOnes 32 → s.grp.handler = some s.cur.ent →
       Completes .exit s fun t => t.grp.handler = none ∧ t.grp.aside = [] ∧ t.grp.tcause = s.grp.tcause &&& ~~~(1#64 <<< 15)
         ∧ t.grp.exited = s.grp.exited ||| x ∧ MemoryKept s t)
     ∧ (s.spl.owned &&& ~~~x = 0 → s.grp.exited ||| x = BitVec.allOnes 32 → s.grp.ended = false → s.grp.defCount = 0 →
       Completes .exit s fun t => t.cur.flow = .gone ∧ t.grp.ended = true ∧ t.grp.splits = [] ∧ t.grp.v = [] ∧ t.grp.u = [] ∧ t.grp.m = []
         ∧ t.mem = s.mem ∧ t.blocks = s.blocks))
  ∧ (∀ s : State, s.Issuing →
       let quads (p : Split) : Mask :=
         maskOf fun k => p.owned.getLsbD k && !p.exec.getLsbD k && (List.range 4).any fun j => p.exec.getLsbD (k / 4 * 4 + j)
       exec .nop s = .next s
       ∧ exec .qhlp s = .next (s.modSpl fun p => { p with hlp := quads p })
       ∧ (∀ o : FlagOnly, exec (.dgon o) s = .next (s.modGrp fun g => { g with dgen := true, dgst := if o.x then g.dgst else 0 }))
       ∧ exec .dgoff s = .next (s.modGrp fun g => { g with dgen := false })
       ∧ (s.blk.stopping = false → s.blk.asked = false → exec .yield s = .next s)
       ∧ (s.blk.stopping = true ∨ s.blk.asked = true → s.spl.woke ≠ some .preempt →
         exec .yield s = .next ((s.modSpl fun p => { p with st := .waiting .preempt }).setFlow .stall)))

/-- PLSET and PLMASK set the plane of each lane of EXEC, or of EXEC within sa[31:0]; PLSETV leaves each active lane's new plane to take effect after its
last plane issue; PLGET writes each active lane's plane number (R181, R182). PLSET, PLMASK and PLSETV raise PLANE_RANGE on a plane number at or above
the plane count, with TADDR the number (of PLSETV, the lowest), and no plane changes but for the entry into the handler (R53, R181, R182). -/
def Obligations.PlaneControl : Prop :=
  (∀ s : State, s.Issuing →
     let sets (i : Instr) (m : Mask) (p : BitVec 3) : Prop := Completes i s fun t =>
       OnlyGroup s t ∧ t.grp = { s.grp with planes := t.grp.planes } ∧ ∀ k, k < 32 → t.grp.plane k = if m.getLsbD k then p.toNat else s.grp.plane k
     let planes := 2 ^ wbits s.grp.cx.creg 19 18
     (∀ o : PlaneImm, o.p.toNat < planes → sets (.plset o) s.spl.exec o.p)
     ∧ (∀ o : PlaneMask, s.Clear s.cur.mask [rdUlo o.a] → o.p.toNat < planes →
         sets (.plmask o) (s.spl.exec &&& (s.grp.ureg o.a.toNat).setWidth 32) o.p)
     ∧ (∀ o : PlSetV, s.Clear s.cur.mask [rdVlo o.a] →
         (∀ k, k < 32 → s.cur.mask.getLsbD k = true → (s.grp.vreg o.a.toNat k).toNat % 2 ^ 32 < planes) → Completes (.plsetv o) s fun t =>
           t = { s with cur := { s.cur with newPlanes := t.cur.newPlanes } }
           ∧ ∀ k, t.cur.newPlanes.find? k = if k < 32 ∧ s.cur.mask.getLsbD k = true then some (BitVec.ofNat 3 ((s.grp.vreg o.a.toNat k).toNat % 2 ^ 32))
             else s.cur.newPlanes.find? k)
     ∧ ∀ o : PlGet, s.Clear s.cur.mask [wrV o.d] → Completes (.plget o) s fun t =>
         LaneWritten s t o.d s.cur.mask 4 (fun k => BitVec.ofNat 64 (s.grp.plane k)) 0)
  ∧ (∀ s : State, s.Issuing → s.MayTrap →
       let planes := 2 ^ wbits s.grp.cx.creg 19 18
       (∀ o : PlaneImm, planes ≤ o.p.toNat → Completes (.plset o) s fun t => TrapEntered s t 0x07 s.cur.off (o.p.setWidth 64) s.spl.exec)
       ∧ (∀ o : PlaneMask, s.Clear s.cur.mask [rdUlo o.a] → planes ≤ o.p.toNat →
           Completes (.plmask o) s fun t => TrapEntered s t 0x07 s.cur.off (o.p.setWidth 64) s.spl.exec)
       ∧ ∀ (o : PlSetV) (k : Nat), s.Clear s.cur.mask [rdVlo o.a] → k < 32 → s.cur.mask.getLsbD k = true →
           let v (l : Nat) : Nat := (s.grp.vreg o.a.toNat l).toNat % 2 ^ 32
           planes ≤ v k → (∀ l, l < 32 → s.cur.mask.getLsbD l = true → planes ≤ v l → v k ≤ v l) →
           Completes (.plsetv o) s fun t => TrapEntered s t 0x07 s.cur.off (BitVec.ofNat 64 (v k))
             (maskOf fun l => s.cur.mask.getLsbD l && decide (planes ≤ v l)))

/-! ### Memory accesses -/

/-- The result of LD, ST, ATOM, LDS, STS, ATOMS, LDC, STC, ATOMC, SLD, SST, SATOM, BARV and the short LDS and STS whose addresses pass every check: one
record holds each lane's part, at the address, with the data and for the register that the rules give it; a load counts in LCNT and its destination is
uncovered; memory is unchanged until the parts are performed. With no active lane nothing happens (R131, R226 to R233, R239, R461). LDF: a lane whose
address is malformed, or fails its translation, its page kind or its permission, takes part as one that is done and will read zero, the other lanes
load, and the mask of failed lanes is kept for sb. A misaligned lane takes no part and raises ALIGNMENT after the other lanes have been performed:
BLAME names the misaligned lanes and TADDR is the address of the lowest (R227, R230; that a misaligned lane's bit stands in the mask kept for sb is
the model's reading, log 42). Every memory instruction completes: where its registers pass their checks, the load count has room for a load, every
active lane's address passes the checks of its space (alignment, range, translation; of an atomic also that its word is not poisoned), it records the
part of each lane and goes on; with no active lane it changes nothing. Named: the short LDS and STS, LD, ST, LDS, STS, LDC, STC, ATOM, ATOMS, ATOMC,
LDF, SLD, SST, SATOM and BARV (R131, R226 to R234, R239). -/
def Obligations.AccessResult : Prop :=
  (∀ (i : Instr) (s : State) (f : LaneAcc), laneAccOf i s = some f → s.Issuing → s.Clear s.cur.mask f.uses → f.Room s →
     (∀ k ∈ f.lanes s, f.fail k = none ∧ f.ok k) →
     (f.lanes s ≠ [] → Completes i s fun t =>
       AccessRecorded s t { f.acc with pieces := (f.lanes s).flatMap f.pieces } ((f.lanes s).flatMap f.folds))
     ∧ (f.lanes s = [] → exec i s = .next s))
  ∧ (∀ (o : FaultLd) (s : State) (failed : Mask), s.Issuing → s.Clear s.cur.mask [rdU o.c, rdV o.a, wrV o.d, rdUlo o.b, wrU o.b] → s.grp.lcnt < 127 →
       let size := bytesOfWidth o.t
       let va := s.gAddr o.c o.a (o.disp.toInt * size)
       let ls := lanesOf s.cur.mask
       let loads (k : Nat) : Prop := globalFail size (va k) = none ∧ s.Translates .load size false (va k)
       let refused (k : Nat) : Prop := globalFail size (va k) = some 0x10 ∨ globalFail size (va k) = none ∧ s.Untranslated .load size false (va k)
       let odd (k : Nat) : Bool := globalFail size (va k) == some 0x13
       (∀ k ∈ ls, loads k ∨ refused k ∨ odd k = true) → (∀ k, failed.getLsbD k = true ↔ k ∈ ls ∧ ¬loads k) →
       let piece (k : Nat) : Piece :=
         if failed.getLsbD k then { mkPiece k 0 0 false false 0 o.d.toNat with st := .ready 0 false }
         else
           let t := s.hit (va k)
           { mkPiece k ((t.frame + ((va k).toNat - t.base)) % 2 ^ 44) 0 (t.kind = kShared || t.kind = kMould) (t.kind = kDevice) 0 o.d.toNat with
             va := (va k).toNat }
       let bad := ls.filter odd
       let acc : Acc := { mkAcc .load .mem size o.x .none .grp .vec ((ls.filter fun k => !odd k).map piece) with
         ldf := some (o.b.toNat, s.spl.exec, s.cur.mask, failed) }
       let recorded (u : State) : Prop := AccessRecorded s u acc [] ∧ ∃ x ∈ u.grp.uncov, x.kind = .uni ∧ x.num = o.b.toNat ∧ x.acc = s.uid
       (bad = [] → Completes (.ldf o) s recorded)
       ∧ (bad ≠ [] → s.MayTrap → Completes (.ldf o) s fun t => ∃ u, recorded u
           ∧ TrapEntered u t 0x13 s.cur.off (va (bad.headD 0)) (maskOf fun k => bad.contains k) ∧ t.grp.accs = u.grp.accs ∧ t.grp.uncov = u.grp.uncov))
  ∧ (∀ s : State, s.Issuing →
       let ls := lanesOf s.cur.mask
       let room := s.grp.lcnt < 127
       let done (i : Instr) : Prop := Completes i s (Accessed i s)
       let passes (size : Nat) (k : AccessKind) (dev : Bool) (va : Word) : Prop := globalFail size va = none ∧ s.Translates k size dev va
       let own (n a : Nat) : Prop := s.scratchFail n a = none
       let win (n a : Nat) : Prop := s.windowFail n a = none
       let here (a : Nat) : Nat × Nat := (s.grp.cx.blk, a)
       (∀ o : ShI,
         let a (k : Nat) : Nat := ((s.grp.vreg o.a.toNat k).toNat + o.k.toNat * 8) % 2 ^ 32
         (∀ k ∈ ls, own 8 (a k)) →
           (room → s.Clear s.cur.mask [rdVlo o.a, wrV o.d] → done (.ldsShort o)) ∧ (s.Clear s.cur.mask [rdVlo o.a, rdV o.d] → done (.stsShort o)))
       ∧ (∀ o : MemAcc,
         let size : Nat := bytesOfWidth o.t
         let va (k : Nat) : Word := s.gAddr o.c o.a (o.disp.toInt * size) k
         (room → s.Clear s.cur.mask [rdU o.c, rdV o.a, wrV o.d] → (∀ k ∈ ls, passes size .load true (va k)) → done (.ld o))
         ∧ (s.Clear s.cur.mask [rdU o.c, rdV o.a, if size = 8 then rdV o.d else rdVlo o.d] → (∀ k ∈ ls, passes size .store true (va k)) → done (.st o)))
       ∧ (∀ o : ScrAcc,
         let size : Nat := bytesOfWidth o.t
         let n := if o.pair then 16 else size
         let a (k : Nat) : Nat := s.sAddr o.c o.a 1 (o.disp.toInt * size) k
         let loads := [rdUlo o.c, rdVlo o.a] ++ [wrV o.d] ++ if o.pair then [wrV (o.d + 1)] else []
         let stores := [rdUlo o.c, rdVlo o.a] ++ [if size = 8 then rdV o.d else rdVlo o.d] ++ if o.pair then [rdV (o.d + 1)] else []
         (room → s.Clear s.cur.mask loads → ((∀ k ∈ ls, own n (a k)) → done (.lds o)) ∧ ((∀ k ∈ ls, win n (a k)) → done (.ldc o)))
         ∧ (s.Clear s.cur.mask stores → ((∀ k ∈ ls, own n (a k)) → done (.sts o)) ∧ ((∀ k ∈ ls, win n (a k)) → done (.stc o))))
       ∧ (∀ o : LaneAtom,
         let size : Nat := if o.wide then 8 else 4
         let va (k : Nat) : Word := s.gAddr o.c o.a (o.disp.toInt * size) k
         room → s.Clear s.cur.mask [rdU o.c, rdV o.a, if o.wide then rdV o.b else rdVlo o.b, wrV o.d] →
         (∀ k ∈ ls, passes size .atomic false (va k) ∧ s.MemoryClean size o.scope (va k)) → done (.atom o))
       ∧ (∀ o : ScrAtom,
         let size : Nat := if o.wide then 8 else 4
         let a (k : Nat) : Nat := s.sAddr o.c o.a (if o.chk then size else 1) (o.disp.toInt * size) k
         room → s.Clear s.cur.mask (([rdUlo o.c, rdVlo o.a] ++ if o.chk then [rdUlo (o.c + 1)] else []) ++ [if o.wide then rdV o.b else rdVlo o.b, wrV o.d]) →
         (∀ k ∈ ls, own size (a k) ∧ s.ScratchClean .scratch size (here (a k))
           ∧ (o.chk = true → (s.grp.vreg o.a.toNat k).toNat % 2 ^ 32 < (s.grp.ureg (o.c + 1).toNat).toNat % 2 ^ 32)) → done (.atoms o))
       ∧ (∀ o : WinAtom,
         let size : Nat := if o.wide then 8 else 4
         let a (k : Nat) : Nat := s.sAddr o.c o.a 1 (o.disp.toInt * size) k
         room → s.Clear s.cur.mask ([rdUlo o.c, rdVlo o.a] ++ [if o.wide then rdV o.b else rdVlo o.b, wrV o.d]) →
         (∀ k ∈ ls, win size (a k) ∧ s.ScratchClean .window size (s.windowPlace (a k))) → done (.atomc o))
       ∧ (∀ o : FaultLd,
         let size : Nat := bytesOfWidth o.t
         room → s.Clear s.cur.mask [rdU o.c, rdV o.a, wrV o.d, rdUlo o.b, wrU o.b] →
         (∀ k ∈ ls, passes size .load false (s.gAddr o.c o.a (o.disp.toInt * size) k)) →
         Completes (.ldf o) s fun t => t.grp.lcnt = s.grp.lcnt + 1 ∧ MemoryKept s t)
       ∧ (∀ o : UniMem,
         let size : Nat := bytesOfWidth o.t
         let va := s.grp.ureg o.a.toNat + BitVec.ofInt 64 (o.disp.toInt * size)
         (room → s.Clear s.cur.mask [rdU o.a, wrU o.d] → passes size .load true va → done (.sld o))
         ∧ (s.Clear s.cur.mask [rdU o.a, if size = 8 then rdU o.d else rdUlo o.d] → passes size .store false va → done (.sst o)))
       ∧ (∀ o : UniAtom,
         let size : Nat := if o.wide then 8 else 4
         let va := s.grp.ureg o.a.toNat
         room → s.Clear s.cur.mask [rdU o.a, rdUw (8 * size) o.b, wrU o.d] → passes size .atomic false va → s.MemoryClean size o.scope va → done (.satom o))
       ∧ ∀ o : PhaseArr,
         let a := (s.grp.ureg o.a.toNat).toNat % 2 ^ 32
         room → s.Clear s.cur.mask (rdUlo o.a :: o.b.toList.map rdU ++ [wrU o.d]) → (if o.cw then win 8 a else own 8 a) →
         s.ScratchClean (if o.cw then .window else .scratch) 8 (if o.cw then s.windowPlace a else here a) → done (.barv o))

/-- A memory instruction of which a lane fails its checks performs the lanes that pass and raises the lowest cause: BLAME names the lanes that failed with
it (EXEC for a uniform instruction), TADDR is the address of the lowest of them (R131, R227). The group that enters the handler holds the record of
the lanes that passed, their load count, their uncovered destinations and the digest that they fold (R228, R461). The performance of one part of an
access, with the parts of its issue that its bank serves together with it (R211). A store to a scratchpad changes the stored bytes, to those of the
highest lane, and no other byte; a store performed at home changes the stored bytes of home memory, and of the rest of their word only bytes that are
dirty in the core's own copies, which are written back with it; a load of a scratchpad takes its bytes, extended, and changes no memory; an atomic of
a scratchpad, alone at its word, takes the old word and leaves the operation's result (R229 to R233, R310). -/
def Obligations.AccessTrap : Prop :=
  (∀ (i : Instr) (s : State) (f : LaneAcc) (c : Nat), laneAccOf i s = some f → s.Issuing → s.MayTrap → s.Clear s.cur.mask f.uses → f.Room s →
     (∀ k ∈ f.lanes s, f.fail k = none → f.ok k) → (∃ k ∈ f.lanes s, f.fail k = some c) →
     (∀ k ∈ f.lanes s, ∀ e, f.fail k = some e → c ≤ e) →
     let good := (f.lanes s).filter fun k => (f.fail k).isNone
     let bad := (f.lanes s).filter fun k => f.fail k == some c
     Completes i s fun t => ∃ u,
       (if good = [] then u = s else AccessRecorded s u { f.acc with pieces := good.flatMap f.pieces } (good.flatMap f.folds))
       ∧ TrapEntered u t c s.cur.off (f.va (bad.headD 0)) (if f.uniform then s.spl.exec else maskOf fun k => bad.contains k)
       ∧ t.grp.uncov = u.grp.uncov
       ∧ if good = [] then t.grp.accs = s.grp.accs ∧ t.grp.lcnt = s.grp.lcnt ∧ t.grp.dgst = s.grp.dgst
         else t.grp.accs = s.grp.accs.insert s.uid { f.acc with pieces := good.flatMap f.pieces, since := s.spl.since.getD s.uid }
           ∧ t.grp.lcnt = s.grp.lcnt + (if f.acc.dst = .none ∨ f.acc.dst = .crucible then 0 else 1) ∧ t.grp.dgst = s.folded (good.flatMap f.folds))
  ∧ (∀ (s : State) (gid n j : Nat) (a : Acc) (p : Piece), (s.group gid).accs.find? n = some a → a.pieces[j]? = some p →
       s.pieceReady (s.group gid) n j = true → a.order = .none → p.addr % a.size = 0 →
       let t := s.performAt gid n j false
       let scratch := (a.space = .scratch ∨ a.space = .window) ∧ (s.blocks.find? p.blk).isSome = true
       let ks := together (s.group gid).cx.blk a j
       let loaded (q : Piece) : Piece :=
         { q with st := .ready (extLoad a.size a.zext ((s.block q.blk).readN q.addr a.size)) ((s.block q.blk).poisoned q.addr a.size) }
       let word := (s.block p.blk).readN p.addr a.size
       let bad := (s.block p.blk).poisoned p.addr a.size
       let performed (v : Word) (x : Bool) : Prop :=
         (t.group gid).accs.find? n = some { a with pieces := a.pieces.modify j fun q => { q with st := .ready v x } }
       (a.size = 1 ∨ a.size = 2 ∨ a.size = 4 ∨ a.size = 8) →
       (scratch → a.kind = .store → (∀ b x, (t.block b).byte x =
           match ((ks.filterMap fun k => a.pieces[k]?).reverse.find? fun q => q.blk == b && decide (q.addr ≤ x) && decide (x < q.addr + a.size)) with
           | some q => byteAt q.data.toNat (x - q.addr)
           | none => (s.block b).byte x)
         ∧ (∀ x, t.homeByte x = s.homeByte x) ∧ ∀ c l, t.line c l = s.line c l)
       ∧ (a.space = .mem → a.kind = .store → (p.home = true ∨ a.scope = .die) →
           let core := (s.group gid).cx.core
           let dirty (x : Nat) : Prop := (s.line (.l1 core) (x / 64)).dirty.getLsbD (x % 64) = true
             ∨ (s.line (.cc (clusterOfCore core)) (x / 64)).dirty.getLsbD (x % 64) = true
           (∀ x, p.addr ≤ x → x < p.addr + a.size → t.homeByte x = byteAt p.data.toNat (x - p.addr))
           ∧ ∀ x, ¬(p.addr ≤ x ∧ x < p.addr + a.size) → x / 8 ≠ p.addr / 8 ∨ ¬dirty x → t.homeByte x = s.homeByte x)
       ∧ (scratch → a.kind = .load → a.dst ≠ .none →
           (t.group gid).accs.find? n = some { a with pieces := a.pieces.zipIdx.map fun q => if ks.contains q.2 then loaded q.1 else q.1 } ∧ MemoryKept s t)
       ∧ ∀ op uns cx, scratch → a.kind = .atom op uns cx → a.dst ≠ .none → ks = [j] → bad = false →
           performed (BitVec.ofNat 64 word) false ∧ (∀ x, t.homeByte x = s.homeByte x)
           ∧ (∀ b x, ¬(b = p.blk ∧ p.addr ≤ x ∧ x < p.addr + a.size) → (t.block b).byte x = (s.block b).byte x)
           ∧ let y := p.data.toNat % 2 ^ (8 * a.size)
             let v (z : Nat) : Int := readInt (!uns) (8 * a.size) z
             (op ≠ .fadd → (t.block p.blk).readN p.addr a.size = match op with
               | .add => (word + y) % 2 ^ (8 * a.size)
               | .min => if v y < v word then y else word
               | .max => if v word < v y then y else word
               | .and => word &&& y
               | .or => word ||| y
               | .xor => word ^^^ y
               | .xchg => y
               | _ => if y ≤ word then 0 else word + 1))

/-! ### Waits and synchronisation -/

/-- WAITCNT, BWAIT, MWAIT and RFLUSH: past what they wait for, the split goes on (MWAIT covers the operations but the last n); before that it waits at the
instruction (R228, R236, R237, R258, R414). That a WAITCNT with a count above 0 covers exactly the loads that have completed by then is the model's
reading (log 54). A recorded error is raised in place of completing the wait that delivers it, and the record is cleared: of ladle and riddle commands
by BWAIT, of matrix operations by MWAIT, of remote operations by RFLUSH (R250, R279, R418). -/
def Obligations.WaitResult : Prop :=
  (∀ s : State, s.Issuing →
     let loads (i : Instr) (n : Nat) : Prop :=
       (s.grp.lcnt ≤ n → exec i s = .next (s.modGrp fun g => { g with uncov := g.uncov.filter fun u => (g.accs.find? u.acc).isSome }))
       ∧ (n < s.grp.lcnt → exec i s = .next (s.waitFor (.loads n)))
     let batches (i : Instr) (a : UReg) : Prop := s.Clear s.cur.mask [rdUlo a] → s.grp.lerr = none →
       let n := (s.grp.ureg a.toNat).toNat % 2 ^ 32
       ((∀ k ∈ s.grp.closed, 2 ^ 31 ≤ (n + 2 ^ 32 - k) % 2 ^ 32) → exec i s = .next s)
       ∧ (s.spl.woke = some (.batches n) → exec i s = .next s)
       ∧ (s.spl.woke = none → ¬(∀ k ∈ s.grp.closed, 2 ^ 31 ≤ (n + 2 ^ 32 - k) % 2 ^ 32) → exec i s = .next (s.waitFor (.batches n)))
     let matrix (i : Instr) (n : Nat) : Prop :=
       (n < s.grp.mcnt → exec i s = .next (s.waitFor (.matrix n)))
       ∧ (s.grp.mcnt ≤ n → s.grp.merr = none → exec i s = .next (s.modGrp fun g => { g with mops := g.mops.drop (g.mops.length - n) }))
     (∀ o : Count, loads (.waitcnt o) o.n.toNat ∧ matrix (.mwait o) o.n.toNat)
     ∧ (∀ o : ShCount, loads (.waitcntShort o) o.n.toNat ∧ matrix (.mwaitShort o) o.n.toNat)
     ∧ (∀ o : OneU, batches (.bwait o) o.a) ∧ (∀ o : ShReg, batches (.bwaitShort o) o.d)
     ∧ (s.packetsOut s.cur.gid = true → exec .rflush s = .next (s.waitFor .rflush))
     ∧ (s.packetsOut s.cur.gid = false → s.grp.rerr = none → exec .rflush s = .next s))
  ∧ (∀ s : State, s.Issuing → s.MayTrap → s.cur.lower = false →
       (∀ (o : OneU) (e : LErr), s.Clear s.cur.mask [rdUlo o.a] → s.grp.lerr = some e → Completes (.bwait o) s fun t =>
         TrapEntered (s.modGrp fun g => { g with lerr := none }) t e.cause.toNat s.cur.off e.taddr s.spl.exec ∧ t.grp.lerr = none)
       ∧ (∀ (o : Count) (c : BitVec 8) (a : Word), s.grp.mcnt ≤ o.n.toNat → s.grp.merr = some (c, a) → Completes (.mwait o) s fun t =>
         TrapEntered (s.modGrp fun g => { g with merr := none }) t c.toNat s.cur.off a s.spl.exec ∧ t.grp.merr = none)
       ∧ ∀ (c r : BitVec 8) (a : Word), s.packetsOut s.cur.gid = false → s.grp.rerr = some (c, r, a) → Completes .rflush s fun t =>
         TrapEntered (s.modGrp fun g => { g with rerr := none }) t c.toNat s.cur.off a s.spl.exec ∧ t.grp.rerr = none)

/-- BAR and CBAR, once no other split holds the reconvergence back, register the lanes of EXEC at the barrier and wait for its phase to end; past that,
BAR goes on and CBAR's end is an acquire of cast scope (R238, R299, R312). A barrier phase of a block completes when every lane of every group of the
block that has not exited has registered and the accesses made before that are performed. BWAITP goes on when the phase of the word at its address
differs from sb[0], and waits otherwise; at a word of another rank it sends a message to look, and waits for the answer; an arrival's update adds to
ARRIVED and PENDING and, when enough have arrived and no bytes are pending, starts the next phase (R218, R219, R239, R294). An update of a poisoned
word leaves it as it is, which is the model's reading of R221 and R234 (log 124). -/
def Obligations.BarrierResult : Prop :=
  ((∀ (s : State) (o : BarNo), s.Issuing →
     (s.spl.woke = none → s.heldBack s.cur.gid s.cur.ent = true →
       exec (.bar o) s = .next (s.waitFor .reconv) ∧ exec (.cbar o) s = .next (s.waitFor .reconv))
     ∧ (s.spl.woke = none → s.heldBack s.cur.gid s.cur.ent = false →
       (let b := barrierOf s.blk.bars o.k.toNat
        let old := ((b.regs.find? s.cur.gid).map (·.1)).getD 0
        exec (.bar o) s = .next (({ s with
         blocks := s.blocks.modify s.grp.cx.blk fun x =>
           { x with bars := x.bars.insert o.k.toNat ⟨b.phase, b.regs.insert s.cur.gid (old ||| s.spl.exec, s.uid)⟩ }
         uid := s.uid + 1 } : State).waitFor (.bar o.k.toNat b.phase)))
       ∧ (let b := barrierOf (s.castOf s.grp.cx.cast).bars o.k.toNat
          let old := ((b.regs.find? s.cur.gid).map (·.1)).getD 0
          exec (.cbar o) s = .next (({ s with
           casts := s.casts.modify s.grp.cx.cast fun x =>
             { x with bars := x.bars.insert o.k.toNat ⟨b.phase, b.regs.insert s.cur.gid (old ||| s.spl.exec, s.uid)⟩ }
           uid := s.uid + 1 } : State).waitFor (.cbar o.k.toNat b.phase))))
     ∧ (∀ k ph, s.spl.woke = some (.bar k ph) → exec (.bar o) s = .next s)
     ∧ ∀ k ph, s.spl.woke = some (.cbar k ph) → exec (.cbar o) s = .next (s.acquireAt s.curCore .cast))
   ∧ ∀ (s : State) (n k : Nat) (b : Barrier), (s.blocks.find? n).isSome = true → (s.block n).bars = [(k, b)] → b.regs ≠ [] →
     let arrived (g : Nat) : Prop := s.groups.find? g = none ∨ (s.group g).ended = true
       ∨ ∃ m st, b.regs.find? g = some (m, st) ∧ ~~~(s.group g).exited &&& ~~~m = 0 ∧ (s.group g).releasedBefore st = true
     ((∀ g ∈ (s.block n).groups, arrived g) → (barrierOf ((s.settleBlockBars n).block n).bars k) = ⟨b.phase + 1, []⟩)
     ∧ (¬(∀ g ∈ (s.block n).groups, arrived g) → s.settleBlockBars n = s))
  ∧ ((∀ (s : State) (o : PhaseWait), s.Issuing → s.Clear s.cur.mask [rdUlo o.a, rdUlo o.b] → s.grp.lerr = none →
       let addr := (s.grp.ureg o.a.toNat).toNat % 2 ^ 32
       let b := (if o.cw then s.windowPlace addr else (s.grp.cx.blk, addr)).1
       let p := (if o.cw then s.windowPlace addr else (s.grp.cx.blk, addr)).2
       let goesOn : Host.Outcome State Fault Refusal := .next (if o.cw then s.acquireAt s.curCore .cast else s)
       (∀ x y v n, s.spl.woke = some (.phase x y v n) → exec (.bwaitp o) s = goesOn)
       ∧ (s.spl.woke = none → (if o.cw then s.windowFail 8 addr else s.scratchFail 8 addr) = none → (s.block b).poisoned p 8 = false →
         s.settled (if o.cw then .window else .scratch) 8 (mkPiece 0 p b false false 0 0) = true →
         let phase := ((s.block b).readN p 8).testBit 32
         let old := (s.grp.ureg o.b.toNat).getLsbD 0
         (b = s.grp.cx.blk → phase ≠ old → exec (.bwaitp o) s = goesOn)
         ∧ (b = s.grp.cx.blk → phase = old → exec (.bwaitp o) s = .next (s.waitFor (.phase b p old none)))
         ∧ (b ≠ s.grp.cx.blk → Completes (.bwaitp o) s fun t =>
           t = { s with groups := t.groups, uid := s.uid + 1, cur := { s.cur with flow := .stall } }
           ∧ t.spl = { s.spl with st := .waiting (.phase b p old (some s.uid)) } ∧ t.grp.lcnt = s.grp.lcnt ∧ MemoryKept s t
           ∧ t.grp.accs = s.grp.accs.insert s.uid { mkAcc .load .window 8 true .none .cast .phase [mkPiece 0 p b false false 0 0] with
               since := s.spl.since.getD s.uid })))
     ∧ ∀ (s : State) (b p c : Nat) (n : Int), (s.blocks.find? b).isSome = true →
       let w : Word := BitVec.ofNat 64 ((s.block b).readN p 8)
       let expected := wbits w 15 0
       let arrived := (wbits w 31 16 + c) % 2 ^ 16
       let pending := wrapNat 31 (sext 31 (wbits w 63 33) + n)
       let done := expected ≠ 0 ∧ expected ≤ arrived ∧ pending = 0
       let t := s.updatePhase b p c n
       let x := (t.block b).readN p 8
       ((s.block b).poisoned p 8 = true → t = s)
       ∧ ((s.block b).poisoned p 8 = false → bits x 15 0 = expected ∧ bits x 31 16 = (if done then arrived - expected else arrived)
         ∧ bits x 32 32 = (if done then 1 - wbits w 32 32 else wbits w 32 32) ∧ bits x 63 33 = pending
         ∧ (∀ d y, ¬(d = b ∧ p ≤ y ∧ y < p + 8) → (t.block d).byte y = (s.block d).byte y) ∧ t.mem = s.mem))

/-- BCLOSE: the open batch's number goes to sd, BSEQ grows by one, and the batch is among the closed ones until its last command completes; an empty one
completes at once (R237). FENCE and FENCEE: once what they order before them is performed they end, with the release and the acquire of their scope
(of die scope for FENCEE); until then they wait. SLEEP waits until its count of clk has passed, or a mailbox entry has come where it asks for that
(R240, R242, R312). -/
def Obligations.BatchesFencesSleep : Prop :=
  (∀ s : State, s.Issuing →
     let n := s.grp.bseq.toNat
     let closes (i : Instr) (d : UReg) : Prop := s.Clear s.cur.mask [wrU d] →
       let result (f : Group → Group) : Prop := Completes i s fun t => UniWritten (s.modGrp f) t d 2 (BitVec.ofNat 64 n) 0
       (s.grp.batches.getD 0 n ≠ 0 → result fun g => { g with bseq := g.bseq + 1, closed := g.closed ++ [n] })
       ∧ (s.grp.batches.getD 0 n = 0 → s.grp.closed = [] →
         result fun g => { g with bseq := g.bseq + 1, batches := g.batches.erase n, bdone := g.bseq })
       ∧ (s.grp.batches.getD 0 n = 0 → s.grp.closed ≠ [] → n ∉ s.grp.closed →
         result fun g => { g with bseq := g.bseq + 1, batches := g.batches.erase n })
     (∀ o : DestU, closes (.bclose o) o.d) ∧ ∀ o : ShReg, closes (.bcloseShort o) o.d)
  ∧ (∀ s : State, s.Issuing →
       (∀ o : ScopeOnly,
         (s.spl.woke = none → s.grp.performedBefore s.uid true = true →
           exec (.fence o) s = .next ((s.releaseAt s.curCore o.scope).acquireAt s.curCore o.scope)
           ∧ (o.scope = .grp ∨ o.scope = .blk → exec (.fence o) s = .next s))
         ∧ (s.spl.woke = none → s.grp.performedBefore s.uid true = false →
           exec (.fence o) s = .next (s.waitFor (.fence s.uid o.scope true)).bump)
         ∧ ∀ a b c, s.spl.woke = some (.fence a b c) →
           exec (.fence o) s = .next ((s.releaseAt s.curCore o.scope).acquireAt s.curCore o.scope))
       ∧ (s.spl.woke = none → s.grp.performedBefore s.uid false = true →
         exec .fencee s = .next ((s.releaseAt s.curCore .die).acquireAt s.curCore .die))
       ∧ (s.spl.woke = none → s.grp.performedBefore s.uid false = false → exec .fencee s = .next (s.waitFor (.fence s.uid .die false)).bump)
       ∧ ∀ o : Sleep, s.Clear s.cur.mask [rdUlo o.a] →
         (s.spl.woke = none → exec (.sleep o) s = .next (s.waitFor
           (.sleep (s.spl.readyAt + (s.grp.ureg o.a.toNat).toNat % 2 ^ 32) o.mb (s.core s.curCore).mbWakes)))
         ∧ ∀ a b c, s.spl.woke = some (.sleep a b c) → exec (.sleep o) s = .next s)

/-- The mailbox instructions: the operation goes to the mailbox that the instruction names and the split waits for the answer; then SC says whether the
operation found room or an entry, and sd takes the entry (R213, R214, R241). MAILBOX_OPERATION applies the operation that is next at the mailbox and
answers it: a SEND or PUSH puts its value in where fewer than 64 entries are held, RECV and STEAL take the oldest entry, POP the newest, and an empty
or full mailbox answers SC = 0 and is unchanged (R214, R215, R216). -/
def Obligations.Mailboxes : Prop :=
  (∀ s : State, s.Issuing →
     let sends (i : Instr) (uses : List Use) (core m : Nat) (op : MbOp) : Prop := s.spl.answer = none → s.Clear s.cur.mask uses →
       exec i s = .next (({ s with mbreqs := s.mbreqs.insert s.uid ⟨core, m, op, s.cur.gid, s.curCore, s.grp.cx.slot⟩, uid := s.uid + 1 } : State).waitFor
         (.answer s.uid))
     let ends (i : Instr) (dst : Option UReg) : Prop := ∀ sc v, s.answered sc v → s.spl.merged = [] → s.Clear s.cur.mask (wrSc :: dst.toList.map wrU) →
       let u := s.modSpl fun p => { p with sc := sc }
       Completes i s fun t => match dst with
         | some d => if sc then UniformWritten u t d v ∧ UniformFrame u t else t = u
         | none => t = u
     let there (a : UReg) : Nat := s.curDie * 64 + wbits (s.grp.ureg a.toNat) 5 0
     (∀ o : MbSend, sends (.mbsend o) ([rdUlo o.a, rdU o.b] ++ [wrSc]) (there o.a) o.m.toNat (.send (s.grp.ureg o.b.toNat)) ∧ ends (.mbsend o) none)
     ∧ (∀ o : MbPush, sends (.mbpush o) ([rdU o.b] ++ [wrSc]) s.curCore o.m.toNat (.push (s.grp.ureg o.b.toNat)) ∧ ends (.mbpush o) none)
     ∧ (∀ o : MbTake, (sends (.mbrecv o) ([wrSc] ++ [wrU o.d]) s.curCore o.m.toNat .recv ∧ ends (.mbrecv o) (some o.d))
       ∧ sends (.mbpop o) ([wrSc] ++ [wrU o.d]) s.curCore o.m.toNat .pop ∧ ends (.mbpop o) (some o.d))
     ∧ ∀ o : MbSteal, sends (.mbsteal o) ([rdUlo o.a] ++ [wrSc] ++ [wrU o.d]) (there o.a) o.m.toNat .steal ∧ ends (.mbsteal o) (some o.d))
  ∧ (∀ (s : State) (core m n : Nat) (r : MbReq) (e : Nat) (p : Split), s.nextMail core m = some (n, r) → (s.core core).retired = false →
       (s.cluster (clusterOfCore core)).retired = false → (s.groups.find? r.gid).isSome = true → (s.group r.gid).splits = [(e, p)] →
       p.st = .waiting (.answer n) →
       let b := (s.core core).box m
       let result (items : List (Word × Bool)) (top : Nat) (sc : Bool) (v : Word) (x : Bool) : Prop := Completes (.mailboxOperation core m) s fun t =>
         t.mbreqs = s.mbreqs.erase n ∧ (t.core core).box m = ⟨top, items⟩
         ∧ (t.group r.gid).split e = { p with answer := some (sc, v, if x then 1 else 0) }
       (∀ v, r.op = .send v ∨ r.op = .push v →
         if b.items.length < 64 then result (b.items ++ [(v, false)]) b.top true 0 false else result b.items b.top false 0 false)
       ∧ (r.op = .recv ∨ r.op = .steal →
         (b.items = [] → result [] b.top false 0 false)
         ∧ ∀ y rest, b.items = y :: rest → result rest ((b.top + 1) % 64) true y.1 y.2)
       ∧ (r.op = .pop →
         (b.items = [] → result [] b.top false 0 false)
         ∧ ∀ y rest, b.items = rest ++ [y] → result rest b.top true y.1 y.2))

/-! ### The matrix engine -/

/-- MMA, OADD, SPEC, SPCOMMIT and SPDROP that pass their checks enter the engine's queue of their core with the EXEC, the floating-point settings and the
trap enables of their issue, and count in MCNT; an MMA or OADD whose tile flag is 0, or with no lane in EXEC, does nothing; SPEC writes its tag and
opens it, SPCOMMIT and SPDROP close theirs (R257, R260, R261, R264, R272, R273). No operand of an operation whose registers pass their checks is
pending, and none is kept beside it; with SBCHK = 0 an operation takes with it the pending values of its operands, old or new, and marks the rows of
its tile that it writes before what was pending there has landed (R186, R228, R277). The engine takes its queue in order: MATRIX_OP_START starts the
head; MATRIX_OP_COMPLETION, once its time has come, writes the rows of EXEC of an MMA's tile or shadow (each element the rounded sum of the rule, over
all products and the addend) or of an OADD's (each element after every well-formed entry of the list that names its column, in list order, one
rounding each; the first malformed one is recorded as ENGINE_FAULT and skipped), or records FP_EXCEPTION and writes nothing where an enabled flag is
raised; SPCOMMIT copies shadows to tiles and SPEC tiles to shadows; MCNT falls by one (R257, R262 to R265, R273, R278, R279, R281). -/
def Obligations.MatrixEngine : Prop :=
  (∀ s : State, s.Issuing →
     let goes (flag : Option TReg) : Prop := (∀ f, flag = some f → s.grp.tf.getLsbD f.toNat = true) ∧ s.spl.exec ≠ 0
     let mmaUses (o : Mma) : List Use := fragUses o.va ++ fragUses o.vb ++ [useM o.md]
     let oaddUses (o : Oadd) : List Use := fragUses o.va ++ [rdU o.sb, useM o.md]
     let queues (i : Instr) (op : MOp) : Prop := exec i s = .next (s.enqueued (s.matrixEntry op []))
     let takes (i : Instr) (op : MOp) (va : VReg) (vb : Option VReg) (md : TReg) (spec : Bool) : Prop :=
       let marks := s.destMarks md spec
       exec i s = .next ((s.enqueued (s.matrixEntry op (marks.foldl (fun t p => t.insert p.1 p.2) (s.pendingOver va vb md spec)))).clobberRows marks)
     let unchecked (uses : List Use) : Prop := s.grp.sbchk = false ∧ uses.any s.grp.unallocated = false ∧ s.operandHazards uses = []
       ∧ s.firstPoison s.cur.mask uses = none
     (∀ o : Mma,
       ((mmaUses o).any s.grp.unallocated = false → ¬goes o.flag → exec (.mma o) s = .next s)
       ∧ (goes o.flag → s.Clear s.cur.mask (mmaUses o) → (o.spec = true → s.grp.tagged o.md.toNat = true) → s.EngineRoom → queues (.mma o) (.mma o))
       ∧ (goes o.flag → unchecked (mmaUses o) → (o.spec = true → s.grp.tagged o.md.toNat = true) → s.EngineRoom →
         takes (.mma o) (.mma o) o.va (some o.vb) o.md o.spec)
       ∧ (goes o.flag → s.Clear s.cur.mask (mmaUses o) → (o.spec = true → s.grp.tagged o.md.toNat = true) → ¬s.EngineRoom →
         exec (.mma o) s = .next (s.waitFor .engineSlot)))
     ∧ (∀ o : Oadd,
       ((oaddUses o).any s.grp.unallocated = false → ¬goes o.flag → exec (.oadd o) s = .next s)
       ∧ (goes o.flag → s.Clear s.cur.mask (oaddUses o) → (o.spec = true → s.grp.tagged o.md.toNat = true) → s.EngineRoom →
         let list := wbits (s.grp.ureg o.sb.toNat) 31 0
         let n := wbits (s.grp.ureg o.sb.toNat) 40 32
         n ≤ 256 → list % 8 = 0 → list + 8 * n ≤ s.blk.scrSize → queues (.oadd o) (.oadd o list n))
       ∧ (goes o.flag → unchecked (oaddUses o) → (o.spec = true → s.grp.tagged o.md.toNat = true) → s.EngineRoom →
         let d := s.readU o.sb.toNat
         wbits d 40 32 ≤ 256 → wbits d 31 0 % 8 = 0 → wbits d 31 0 + 8 * wbits d 40 32 ≤ s.blk.scrSize →
         takes (.oadd o) (.oadd o (wbits d 31 0) (wbits d 40 32)) o.va none o.md o.spec))
     ∧ (∀ (o : TwoU) (k : Nat), s.Clear s.cur.mask [rdUlo o.a, wrU o.d] → s.EngineRoom → k < 2 → s.grp.tags.find? k = none →
       (∀ j, j < k → s.grp.tags.find? j ≠ none) →
       let ts := (List.range 16).filter fun t => (s.grp.ureg o.a.toNat).getLsbD t
       ts ≠ [] → s.Clear s.cur.mask (ts.map useTile) → (∀ t ∈ ts, t < s.grp.cx.nt ∧ s.grp.tagged t = false) → ts.length + (s.grp.tags.map fun p => p.2.length).sum ≤ s.grp.cx.nh →
       Completes (.spec o) s fun t =>
         UniWritten ((s.enqueued (s.matrixEntry (.spec k ts) [])).modGrp fun g => { g with tags := g.tags.insert k ts }) t o.d 2 (BitVec.ofNat 64 k) 0)
     ∧ ∀ (o : OneU) (ts : List Nat), s.Clear s.cur.mask [rdUlo o.a] → s.EngineRoom → s.grp.tags.find? (wbits (s.grp.ureg o.a.toNat) 0 0) = some ts →
       let closed (e : MEntry) : State := (s.enqueued e).modGrp fun g => { g with tags := g.tags.erase (wbits (s.grp.ureg o.a.toNat) 0 0) }
       (s.Clear s.cur.mask (ts.map useTile) → exec (.spcommit o) s = .next (closed (s.matrixEntry (.commit ts) []))) ∧ exec (.spdrop o) s = .next (closed (s.matrixEntry (.drop ts) [])))
  ∧ (∀ (s : State) (core n : Nat) (e : MEntry) (rest : List (Nat × MEntry)), (s.core core).engine = (n, e) :: rest →
       ((s.core core).running = none → exec (.matrixOpStart core) s = .next (s.modCore core fun k => { k with running := some (s.clk + max 16 e.op.busy) }))
       ∧ ∀ at_ g, (s.core core).running = some at_ → at_ ≤ s.clk → e.tainted = false → s.groups.find? e.gid = some g →
         let done (P : Group → Prop) : Prop := Completes (.matrixOpCompletion core) s fun t =>
           (t.core core).engine = rest ∧ (t.core core).running = none ∧ (t.group e.gid).mcnt = g.mcnt - 1
           ∧ (∀ k, k ≠ e.gid → t.groups.find? k = s.groups.find? k) ∧ MemoryKept s t ∧ P (t.group e.gid)
         (∀ o, e.op = .mma o → (∀ k, 8192 ≤ k → e.overlay.find? k = none) →
           let x (i j : Nat) := s.mmaElem e o i j
           let fl : FpFlags := (lanesOf e.exec).foldl (fun a i => (List.range 32).foldl (fun a j => a ||| (x i j).2) a) 0
           (fl &&& e.te = 0 → done fun h => h.fpst = g.fpst ||| fl ∧ h.merr = g.merr ∧ h.v = g.v ∧ h.u = g.u
             ∧ ∀ (t : TReg) (i j : Nat), i < 32 → j < 32 →
               h.elem t.toNat i j = (if t = o.md ∧ o.spec = false ∧ e.exec.getLsbD i = true then BitVec.ofNat 32 (x i j).1 else g.elem t.toNat i j)
               ∧ h.shadowElem t.toNat i j = (if t = o.md ∧ o.spec = true ∧ e.exec.getLsbD i = true then BitVec.ofNat 32 (x i j).1
                   else g.shadowElem t.toNat i j))
           ∧ (fl &&& e.te ≠ 0 → done fun h => h.fpst = g.fpst ||| fl ∧ h.m = g.m ∧ h.shadow = g.shadow
             ∧ h.merr = some (g.merr.getD (0x0D, fl.setWidth 64))))
         ∧ (∀ o list n, e.op = .oadd o list n → e.overlay = [] →
           let entry (p : Nat) : Nat := (s.block g.cx.blk).readN (list + 8 * p) 8
           let bad (p : Nat) : Bool := bits (entry p) 31 10 != 0 || decide (fragLen o.e ≤ bits (entry p) 9 5)
           let apply (i j : Nat) (x : Nat × FpFlags) (p : Nat) : Nat × FpFlags :=
             if bad p ∨ bits (entry p) 4 0 ≠ j then x
             else
               let sum := Fv.fma e.cx.rm (s.oaddA e o i (bits (entry p) 9 5)) (Fmt.f32.read e.cx.daz (bits (entry p) 63 32)) (Fmt.f32.read e.cx.daz x.1)
               let y := Fmt.f32.round e.cx sum.1
               (y.1, x.2 ||| (sum.2 ||| y.2))
           let x (i j : Nat) : Nat × FpFlags := (List.range n).foldl (apply i j)
             ((if o.spec then g.shadowElem o.md.toNat i j else g.elem o.md.toNat i j).toNat, 0)
           let fl : FpFlags := (lanesOf e.exec).foldl (fun a i => (List.range 32).foldl (fun a j => a ||| (x i j).2) a) 0
           let err : Option (BitVec 8 × Word) := g.merr.or (((List.range n).find? bad).map fun p => (0x1B, BitVec.ofNat 64 (2 ^ 63 + p * 2 ^ 16 + 0x24)))
           (fl &&& e.te = 0 → done fun h => h.fpst = g.fpst ||| fl ∧ h.merr = err ∧ h.v = g.v ∧ h.u = g.u
             ∧ ∀ (t : TReg) (i j : Nat), i < 32 → j < 32 →
               h.elem t.toNat i j = (if t = o.md ∧ o.spec = false ∧ e.exec.getLsbD i = true then BitVec.ofNat 32 (x i j).1 else g.elem t.toNat i j)
               ∧ h.shadowElem t.toNat i j = (if t = o.md ∧ o.spec = true ∧ e.exec.getLsbD i = true then BitVec.ofNat 32 (x i j).1
                   else g.shadowElem t.toNat i j))
           ∧ (fl &&& e.te ≠ 0 → done fun h => h.fpst = g.fpst ||| fl ∧ h.m = g.m ∧ h.shadow = g.shadow
             ∧ h.merr = some (err.getD (0x0D, fl.setWidth 64))))
         ∧ (∀ k ts, e.op = .spec k ts → e.overlay = [] → done fun h => h.m = g.m
           ∧ ∀ t ∈ ts, ∀ i j, i < 32 → j < 32 → h.shadowElem t i j = g.elem t i j)
         ∧ ∀ ts, e.op = .commit ts → e.overlay = [] → done fun h => ∀ t ∈ ts, ∀ i j, i < 32 → j < 32 → h.elem t i j = g.shadowElem t i j)

/-- TFSET replaces the tile flags that sa names by those of sb, and writes the flags before it to sd; MZERO clears the rows of its active lanes; HPACK
packs the signs of each active lane's row; MLD records a load of each row, and MST and MSTS a store of it, of 16 or fewer parts of eight bytes (R266,
R269, R270, R271). -/
def Obligations.TileRows : Prop :=
  ∀ s : State, s.Issuing →
    (∀ o : ThreeU, s.Clear s.cur.mask [rdUlo o.a, rdUlo o.b, wrU o.d] → Completes (.tfset o) s fun t =>
      let a : BitVec 16 := (s.grp.ureg o.a.toNat).setWidth 16
      let b : BitVec 16 := (s.grp.ureg o.b.toNat).setWidth 16
      UniWritten (s.modGrp fun g => { g with tf := (g.tf &&& ~~~a) ||| (b &&& a) }) t o.d 2 (s.grp.tf.setWidth 64) 0)
    ∧ (∀ o : TileOne, s.Clear s.cur.mask [useM o.md] → s.TileFree o.md true → Completes (.mzero o) s fun t =>
      (∀ (r : TReg) (i j : Nat), i < 32 → j < 32 → t.grp.elem r.toNat i j = if r = o.md ∧ s.cur.mask.getLsbD i = true then 0 else s.grp.elem r.toNat i j)
      ∧ OnlyGroup s t ∧ t.grp = { s.grp with m := t.grp.m, mpois := t.grp.mpois, late := t.grp.late, uncov := t.grp.uncov })
    ∧ (∀ o : Hpack, s.Clear s.cur.mask [useM o.ms, wrV o.d] → s.TileFree o.ms false → s.TileClean o.ms → Completes (.hpack o) s fun t =>
      LaneWritten s t o.d s.cur.mask 6 (fun i =>
        let h := hpackWord o.k.toNat fun j => s.grp.elem o.ms.toNat i j
        BitVec.ofNat 64 (if o.hi then h * 2 ^ 32 + (s.grp.vreg o.d.toNat i).toNat % 2 ^ 32 else h)) 0)
    ∧ (∀ o : TileMem,
      let off : Int := o.disp.toInt * 128
      s.Clear s.cur.mask [rdUlo o.c, rdVlo o.a, useM o.md] → s.RowOk o.c o.a 128 off → s.cur.mask ≠ 0 →
      (s.TileFree o.md true → s.grp.lcnt < 127 → Completes (.mld o) s fun t =>
        AccessRecorded s t { mkAcc .load .scratch 8 true .none .blk .tile [] with
          pieces := (lanesOf s.cur.mask).flatMap fun i => (List.range 16).map fun k =>
            { mkPiece i (s.sAddr o.c o.a 1 off i + 8 * k) s.grp.cx.blk false false 0 (mkey o.md.toNat i (2 * k)) with va := s.sAddr o.c o.a 1 off i } } [])
      ∧ (s.TileFree o.md false → s.TileClean o.md → Completes (.mst o) s fun t =>
        AccessRecorded s t { mkAcc .store .scratch 8 false .none .blk .none [] with
          pieces := (lanesOf s.cur.mask).flatMap fun i => rowParts i (s.sAddr o.c o.a 1 off i) s.grp.cx.blk
            ((List.range 32).flatMap fun j => bytesOf 4 (s.grp.elem o.md.toNat i j).toNat) } []))
    ∧ ∀ o : TileSts,
      let n := o.e.w / 8
      let off : Int := o.disp.toInt * (32 * n)
      let c : FpCtx := ⟨s.grp.rmode, .off, s.grp.fpm.getLsbD 4, s.grp.fpm.getLsbD 5⟩
      let el (i j : Nat) : Nat × FpFlags := stsElem c o.e o.sat (s.grp.elem o.md.toNat i j).toNat
      let fl := activeFlags s.cur.mask fun i => (List.range 32).foldl (fun f j => f ||| (el i j).2) 0
      s.Clear s.cur.mask [rdUlo o.c, rdVlo o.a, useM o.md] → s.RowOk o.c o.a (32 * n) off → s.cur.mask ≠ 0 → s.TileFree o.md false →
      s.TileClean o.md → (n = 1 ∨ n = 2 ∨ n = 4) → fl &&& s.grp.enabled = 0 → Completes (.msts o) s fun t =>
        AccessRecorded (s.modGrp fun g => { g with fpst := g.fpst ||| fl }) t { mkAcc .store .scratch 8 false .none .blk .none [] with
          pieces := (lanesOf s.cur.mask).flatMap fun i => rowParts i (s.sAddr o.c o.a 1 off i) s.grp.cx.blk
            ((List.range 32).flatMap fun j => bytesOf n (el i j).1) } []

/-! ### Remote operations -/

/-- An attempt of a packet (R416, R438, R443, R449): within its node a copy goes on the mesh; to another node a frame goes to a usable port; it waits
unsent below level 3 where it leaves the node, and, in host-assisted pacing, until PACE units of 100 ns after the last packet to its home. A first
attempt takes the next name. The model's choices: an attempt with no usable port counts and sends nothing (log 109), and a packet that pacing holds
has made no attempt (log 88). RADD, RMIN, RMAX, ROR, RWO and CRADD whose addresses pass their checks send one packet for each active lane: its opcode
and kind, its target, its data, and where the instruction is bound its line, index, signature and tag (R393 to R397, R399, R402, R403, R406, R461). -/
def Obligations.RemoteSends : Prop :=
  (∀ (s : State) (n d : Nat) (p : Packet), p.sdie = some d →
     let out := nodeOf p.target ≠ s.nodeId d
     let paced := (s.die d).mode.getLsbD 4
     let early := ∃ t, (s.die d).lastSent.find? p.home = some t ∧ s.clk < t + wbits (s.reg d 0x0A0) 63 48 * 400
     let attempt : Packet := { p with attempts := p.attempts + 1, sentAt := s.now }
     let held := { s with packets := s.packets.insert n p }
     let sent (t : State) : Prop :=
       (¬out → t = { s with dies := t.dies, packets := s.packets.insert n { attempt with copies := p.copies + 1, path := none } })
       ∧ (out → (∀ port, port < 32 → s.usablePort port = false) → t = { s with dies := t.dies, packets := s.packets.insert n { attempt with path := none } })
       ∧ (out → (∃ port, port < 32 ∧ s.usablePort port = true) → ∃ port dest src f, port < 32 ∧ s.usablePort port = true ∧ dest < 32 ∧ 0xC000 ≤ src
         ∧ src < 0x10000 ∧ t = { s with dies := t.dies, packets := s.packets.insert n { attempt with path := some (port, dest, src) },
                                        frames := s.frames ++ [(port, f)] })
     let t := s.transmit n p
     (out → s.level ≠ 3 → t = held)
     ∧ (paced = true → early → t = held)
     ∧ ((out → s.level = 3) → (paced = true → ¬early) → sent t ∧ (paced = false → t.dies = s.dies)
       ∧ (paced = true → (t.die d).lastSent.find? p.home = some s.clk))
     ∧ s.send p = ({ s.transmit s.uid p with uid := s.uid + 1 }, s.uid))
  ∧ (∀ (i : Instr) (s : State) (o : Remote) (op unit : Nat) (kinds : Tlb → Bool), remoteOf i = some (o, op, unit, kinds) → s.Issuing →
       s.Clear s.cur.mask ([rdU o.c, rdV o.a, if o.e.w = 64 then rdV o.d else rdVlo o.d]
         ++ match o.bind with | some b => [rdU b, rdU (b + 1)] | none => []) →
       let va (k : Nat) : Word := s.gAddr o.c o.a (o.disp.toInt * unit) k
       (∀ k ∈ lanesOf s.cur.mask, (va k).toNat % unit = 0 ∧ s.Hits .store kinds (va k) ∧ ∀ b, o.bind = some b →
         s.BindOk b sharedOrFabric ∧ s.LineWith (s.hitAddr (s.bindLine b)) (s.hitAddr (va k))) →
       let x (k : Nat) : Nat := (s.grp.vreg o.d.toNat k).toNat % 2 ^ o.e.w
       let packet (k : Nat) : Packet :=
         let data := bytesOf (o.e.w / 8) (x k)
         s.bindPacket (s.groupPacket op (kindByte o.e) (s.hit (va k)).gen (va k).toNat (s.hitAddr (va k)) data) o.bind (fun b => s.laneIndex b k)
           (tagOf op (kindByte o.e) (s.hitAddr (va k)) (if op = 0x24 then [] else data))
       Completes i s fun t => PacketsSent s t ((lanesOf s.cur.mask).map packet) ((lanesOf s.cur.mask).map fun k => (va k, BitVec.ofNat 64 (x k))))

/-- RARR sends an arrival at its line for each active lane; RGET a request for the bytes of each lane's source, which names the mould and the line that
the reply goes to (R395, R396, R404, R405). ARRINIT, CRCLR and DGFOLD send one packet of the whole split, MCLR one for each page of its range;
DGFOLD's holds the digest at the index of its binding exactly, and clears the digest where the instruction asks (R409, R410, R462; one packet for each
page is the model's reading, log 37). -/
def Obligations.ArriveGetAndUniformSends : Prop :=
  (∀ s : State, s.Issuing →
     (∀ o : RemArr, s.Clear s.cur.mask [rdU o.b, rdU (o.b + 1)] → s.BindOk o.b sharedOrFabric →
       let line := s.hitAddr (s.bindLine o.b)
       let packet (k : Nat) : Packet :=
         s.bindPacket (s.groupPacket 0x25 0 (s.hit (s.bindLine o.b)).gen (s.bindLine o.b).toNat line []) (some o.b) (fun b => s.laneIndex b k)
           (tagOf 0x25 0 line [])
       Completes (.rarr o) s fun t => PacketsSent s t ((lanesOf s.cur.mask).map packet) [])
     ∧ ∀ o : RemGet, s.Clear s.cur.mask ([rdU o.c, rdV o.a, rdV o.d] ++ [rdU o.b, rdU (o.b + 1)]) →
       let n := 8 * (o.n.toNat + 1)
       let va (k : Nat) : Word := s.gAddr o.c o.a 0 k
       let mould (k : Nat) : Word := s.grp.vreg o.d.toNat k
       let line := s.hitAddr (s.bindLine o.b)
       s.BindOk o.b (fun t => t.kind = kShared) → nodeOf line = s.nodeId s.curDie → dieOfPa (paOf line) = s.curDie →
       (∀ k ∈ lanesOf s.cur.mask, (va k).toNat % 8 = 0 ∧ (va k).toNat % 64 + n ≤ 64 ∧ (mould k).toNat % 8 = 0
         ∧ s.Hits .load (fun t => t.kind = kShared || t.kind = kMould || t.kind = kImmutable || t.kind = kFabric) (va k)
         ∧ s.Hits .store (fun t => t.kind = kMould && dieOfPa (t.frame % 2 ^ 44) == s.curDie) (mould k)) →
       let packet (k : Nat) : Packet :=
         { s.bindPacket (s.groupPacket 0x66 0 (s.hit (va k)).gen (va k).toNat (s.hitAddr (va k)) []) (some o.b) (fun b => s.laneIndex b k) 0 with
           aux := [n, s.hitAddr (mould k), (mould k).toNat] }
       Completes (.rget o) s fun t => PacketsSent s t ((lanesOf s.cur.mask).map packet) [])
  ∧ (∀ s : State, s.Issuing →
       let shared (t : Tlb) : Bool := t.kind = kShared
       (∀ o : ArrInit, s.Clear s.cur.mask [rdU o.a, rdUlo o.b, rdU o.c] →
         let va := s.grp.ureg o.a.toNat
         let tags := s.grp.ureg o.c.toNat
         va.toNat % 64 = 0 → tags.toNat % 64 = 0 → s.Hits .store shared va → s.Hits .store (fun _ => true) tags →
         Completes (.arrinit o) s fun t => PacketsSent s t [{ s.groupPacket 0xCC 0 (s.hit va).gen va.toNat (s.hitAddr va) [] with
           lineVa := some tags.toNat, aux := [(s.grp.ureg o.b.toNat).toNat % 2 ^ 32, s.hitAddr tags, if (s.hit tags).kind = kShared then 1 else 0] }] [])
       ∧ (∀ o : OneU, s.Clear s.cur.mask [rdU o.a] →
         let va := s.grp.ureg o.a.toNat
         va.toNat % 64 = 0 → s.Hits .store shared va →
         Completes (.crclr o) s fun t => PacketsSent s t [s.groupPacket 0xCD 0 (s.hit va).gen va.toNat (s.hitAddr va) []] [])
       ∧ (∀ o : MClr, s.Clear s.cur.mask [rdU o.a, rdUlo o.b] →
         let va := s.grp.ureg o.a.toNat
         let n := (s.grp.ureg o.b.toNat).toNat % 2 ^ 21
         let page (x : Nat) : Word := BitVec.ofNat 64 x
         va.toNat < 2 ^ 56 → va.toNat % 8 = 0 → n % 8 = 0 → n ≤ 2 ^ 20 →
         (∀ x ∈ pagesOf va.toNat n, s.Hits .store (fun t => t.kind = kMould) (page x.1)) →
         Completes (.mclr o) s fun t => PacketsSent s t ((pagesOf va.toNat n).map fun x =>
           { s.groupPacket 0xCE 0 (s.hit (page x.1)).gen x.1 (s.hitAddr (page x.1)) [] with aux := [x.2] }) [])
       ∧ ∀ o : DgFold, s.Clear s.cur.mask (rdU o.a :: [rdU o.b, rdU (o.b + 1)]) →
         let va := lowBits 56 (s.grp.ureg o.a.toNat)
         let data := bytesOf 8 s.grp.dgst.toNat
         let target := s.hitAddr va
         va.toNat % 8 = 0 → s.Hits .store sharedOrFabric va → s.BindOk o.b sharedOrFabric → s.LineWith (s.hitAddr (s.bindLine o.b)) target →
         Completes (.dgfold o) s fun t => ∃ u,
           PacketsSent s u [s.bindPacket (s.groupPacket 0x20 (kindByte .i64) (s.hit va).gen va.toNat target data) (some o.b) id
             (tagOf 0x20 (kindByte .i64) target data)] []
           ∧ t = if o.clr then u.modGrp fun g => { g with dgst := 0 } else u)

/-- CRRD stalls until a snapshot of each active lane's crucible line has been taken at its home, then writes their rounded values, with both halves
poisoned where the line was; a snapshot is one event of its own. DGCHK goes on where the word at its address equals sb, and raises DIGEST_MISMATCH
with the word in TADDR where it differs (R407, R462; that DGCHK reads and compares in the step of its issue is the model's choice, log 38). WAITA and
ARRST at a line of their own die: WAITA waits until DONE or an error flag is set, then sd takes the flags, SC is DONE, and DONE is an acquire; past
its expiry, which counts from the issue decision at which the WAITA was reached, sd and SC are 0; ARRST takes the line's low 16 bytes as they stand.
At a line elsewhere they send a request and wait for its answer, whose flags WAITA takes, and whose words ARRST writes (R412, R413). -/
def Obligations.CrucibleAndLineWaits : Prop :=
  (∀ s : State, s.Issuing → s.cur.flow = .run →
     let clean (pa n : Nat) : Prop := (s.line (.l1 s.curCore) (pa / 64)).dirty = 0 ∧ (s.line (.cc (clusterOfCore s.curCore)) (pa / 64)).dirty = 0
       ∧ s.grp.touches pa n = false ∧ s.memReady pa = true
     (∀ o : CrRead, s.Clear s.cur.mask [rdU o.c, rdV o.a, wrV o.d] →
       let va (k : Nat) : Word := s.gAddr o.c o.a (o.disp.toInt * 64) k
       let piece (k : Nat) : Piece := { mkPiece k (paOf (s.hitAddr (va k))) 0 true false 0 0 with va := (va k).toNat }
       s.spl.woke = none →
       (∀ k ∈ lanesOf s.cur.mask, (va k).toNat % 64 = 0
         ∧ s.Hits .load (fun t => kindAdmits t.kind (dieOfPa (t.frame % 2 ^ 44) == s.curDie) .load && t.kind != kDevice) (va k)) →
       (lanesOf s.cur.mask = [] → exec (.crrd o) s = .next s)
       ∧ (lanesOf s.cur.mask ≠ [] → Completes (.crrd o) s fun t => ∃ u,
         AccessRecorded s u (mkAcc (.crucible (fmtOf o.e) s.fpCtx) .mem 64 false .none .die .crucible ((lanesOf s.cur.mask).map piece)) []
         ∧ t = u.waitFor (.lines s.uid)))
     ∧ (∀ (o : CrRead) (n : Nat) (a : Acc) (res : Nat → Word × FpFlags × Bool), s.spl.woke = some (.lines n) → s.grp.accs.find? n = some a →
       a.pieces.map (fun p => (p.lane, p.st, p.data)) = (lanesOf s.cur.mask).map (fun k => (k, .ready (res k).1 (res k).2.2, (res k).2.1.setWidth 64)) →
       activeFlags s.cur.mask (fun k => (res k).2.1) &&& s.grp.enabled = 0 →
       Completes (.crrd o) s fun t =>
         LaneWritten (s.modGrp fun g => { g with accs := g.accs.erase n }) t o.d s.cur.mask 5 (fun k => (res k).1) (activeFlags s.cur.mask fun k => (res k).2.1)
         ∧ ∀ k ∈ lanesOf s.cur.mask, (res k).2.2 = true → ∀ h, h < 2 → t.grp.vpois.find? (2 * vkey o.d.toNat k + h) = some true)
     ∧ (∀ (gid n j : Nat) (a : Acc) (p : Piece) (f : Fmt) (c : FpCtx), (s.group gid).accs.find? n = some a → a.pieces[j]? = some p →
       s.pieceReady (s.group gid) n j = true → a.kind = .crucible f c → a.space = .mem → a.order = .none → a.size = 64 → p.home = true →
       (s.line (.l1 (s.group gid).cx.core) (p.addr / 64)).dirty = 0 → (s.line (.cc (clusterOfCore (s.group gid).cx.core)) (p.addr / 64)).dirty = 0 →
       a.dst = .crucible → p.addr % 64 = 0 →
       let r := crucibleRead (BitVec.ofNat 512 (s.homeN p.addr 64)) f c
       ((s.performAt gid n j false).group gid).accs.find? n = some { a with pieces := a.pieces.modify j fun q =>
         { q with st := .ready (BitVec.ofNat 64 r.1) (s.homePois p.addr 64), data := r.2.setWidth 64 } })
     ∧ ∀ o : SrcTwo, s.Clear s.cur.mask [rdU o.a, rdU o.b] →
       let va := lowBits 56 (s.grp.ureg o.a.toNat)
       let pa := ((s.hit va).frame + (va.toNat - (s.hit va).base)) % 2 ^ 44
       va.toNat % 8 = 0 → s.Translates .load 8 false va → clean pa 8 → s.homePois pa 8 = false →
       (BitVec.ofNat 64 (s.homeN pa 8) = s.grp.ureg o.b.toNat → Completes (.dgchk o) s fun t => t.groups = s.groups ∧ t.mem = s.mem ∧ t.cur = s.cur)
       ∧ (BitVec.ofNat 64 (s.homeN pa 8) ≠ s.grp.ureg o.b.toNat → s.MayTrap → Completes (.dgchk o) s fun t => ∃ u, u.groups = s.groups ∧ u.mem = s.mem
         ∧ TrapEntered u t 0x20 s.cur.off (BitVec.ofNat 64 (s.homeN pa 8)) s.spl.exec))
  ∧ (∀ s : State, s.Issuing →
       let here (va : Word) : Prop := (s.hit va).kind ≠ kFabric ∧ dieOfPa (paOf (s.hitAddr va)) = s.curDie
       let writes (s t : State) (d : UReg) (v : Word) (sc : Bool) : Prop :=
         UniformWritten (s.modSpl fun p => { p with sc := sc }) t d v ∧ UniformFrame (s.modSpl fun p => { p with sc := sc }) t
       (∀ (o : WaitLine) (x : Nat) (r e : Option Nat), s.spl.woke = some (.line x r e) →
         (s.spl.answer = none → Completes (.waita o) s fun t => writes s t o.d 0 false)
         ∧ ∀ b lo hi, s.spl.answer = some (b, lo, hi) → Completes (.waita o) s fun t =>
           ∃ u, writes s u o.d (BitVec.ofNat 64 (hi.toNat % 2 ^ 32)) (hi.getLsbD 4) ∧ t = if hi.getLsbD 4 then u.acquireAt s.curCore .die else u)
       ∧ (∀ o : WaitLine, s.spl.woke = none → s.Clear s.cur.mask ([rdU o.a] ++ o.b.toList.map rdUlo ++ [wrU o.d, wrSc]) → s.grp.rerr = none →
         let va := s.grp.ureg o.a.toNat
         let a := paOf (s.hitAddr va)
         let expiry := s.spl.expiry.or (o.b.map fun r => s.spl.readyAt + (s.grp.ureg r.toNat).toNat % 2 ^ 32)
         let v := s.modSpl fun p => { p with expiry := expiry }
         va.toNat % 64 = 0 → s.Hits .load sharedOrFabric va →
         (here va → bits (s.homeN (a + 8) 4) 4 0 ≠ 0 →
           Completes (.waita o) s fun t => ∃ u, writes v u o.d (BitVec.ofNat 64 (s.homeN (a + 8) 4)) ((s.homeN (a + 8) 4).testBit 4)
             ∧ t = if (s.homeN (a + 8) 4).testBit 4 then u.acquireAt s.curCore .die else u)
         ∧ (here va → bits (s.homeN (a + 8) 4) 4 0 = 0 → (∀ e, expiry = some e → s.clk < e) → exec (.waita o) s = .next (v.waitFor (.line a none expiry)))
         ∧ (∀ e, here va → bits (s.homeN (a + 8) 4) 4 0 = 0 → expiry = some e → e ≤ s.clk → Completes (.waita o) s fun t => writes v t o.d 0 false)
         ∧ (¬here va → Completes (.waita o) s fun t => ∃ u, PacketsSent v u [s.groupPacket 0x30 0 (s.hit va).gen va.toNat (s.hitAddr va) []] []
           ∧ t = u.waitFor (.line a (some s.uid) expiry)))
       ∧ ∀ o : TwoU, o.d ≠ 255 →
         let va := s.grp.ureg o.a.toNat
         let a := paOf (s.hitAddr va)
         let status (lo hi : Word) (t : State) : Prop :=
           let u := s.modSpl fun p => { p with sc := hi.getLsbD 4 }
           (∀ r : UReg, t.grp.ureg r.toNat = if r = o.d then lo else if r = o.d + 1 then hi else s.grp.ureg r.toNat) ∧ UniformFrame u t
         (∀ b lo hi, s.spl.answer = some (b, lo, hi) → Completes (.arrst o) s (status lo hi))
         ∧ (s.spl.answer = none → s.Clear s.cur.mask [rdU o.a, wrU o.d, wrU (o.d + 1), wrSc] → va.toNat % 64 = 0 → s.Hits .load sharedOrFabric va →
         (here va → Completes (.arrst o) s (status (BitVec.ofNat 64 (s.homeN a 8)) (BitVec.ofNat 64 (s.homeN (a + 8) 8))))
         ∧ (¬here va → Completes (.arrst o) s fun t => ∃ u, PacketsSent s u [s.groupPacket 0x31 0 (s.hit va).gen va.toNat (s.hitAddr va) []] []
           ∧ t = u.waitFor (.answer s.uid))))

/-! ### Packets at their home and at their sender -/

/-- The arrival of RADD, RMIN, RMAX, ROR, RWO, CRADD, RARR, an RGET reply, a ladle piece, TSEND's signal or a checkpoint's frame or mark, not bound to a
line: the bytes at its target are those of the rule and no other byte of memory changes, and the copy is acknowledged. Write-once data is stored where
no granule written holds something else, and is logged and not stored where one does (the log's code is log 99). A later copy is acknowledged and does
nothing (R401 to R408, R415; log 125). The arrival of the same packets bound to a line: on an empty slot of the tag array the contribution counts, its
tag fills the slot, DONE is set when COUNT reaches TARGET, and the bytes at the target are those of the rule; on a slot with its own tag it counts in
DUPS and the target is unchanged; with another signature, at or past TARGET or on a slot of another tag it counts in REJECTS and the target is
unchanged; so does write-once data on an empty slot or one with its own tag, where a granule written holds something else. The copy is acknowledged
each time, and no other byte of memory changes (R398 to R408, R415). A packet that its home turns away is answered and changes nothing else. One of
another node for which no import entry admits its target, its line and the line's tag array is rejected with reason 2; then one of an address space
that is not valid with reason 4; one of another generation is answered stale; a target that is not memory is rejected with reason 2; a line elsewhere
than its target with reason 1, one that is not memory with 2, and one whose tag array does not lie in memory of the line's die with 3 (R417, R418,
R453). -/
def Obligations.PacketArrival : Prop :=
  (∀ (i : Instr) (s : State) (n : Nat) (ops : List Nat) (p : Packet), arrivalOf i = some (n, ops) → s.Arriving n p ops → s.turnedAway p = none →
     p.line = none → p.op ∉ [0x66, 0xCC, 0xCD, 0xCE, 0x30, 0x31] →
     (p.once = true → p.OnceAligned) →
     (p.op ∈ [0x42, 0x43, 0x44, 0x45] → p.data.length = if p.kind = 0 then 1 else if p.kind = 0x0C then 2 else 4) →
     let pa := paOf p.target
     let bs := s.contributed p
     (p.performed = false → (p.once = true → ¬s.Conflicting p) → Completes i s fun t => t.Answered n { p with performed := true } 0 0
       ∧ (∀ a, t.homeByte a = if pa ≤ a ∧ a < pa + bs.length then bs.getD (a - pa) 0 else s.homeByte a)
       ∧ t.groups = s.groups ∧ t.blocks = s.blocks ∧ (p.once = true → t.mwritten.getD false (pa / 8) = true))
     ∧ (p.performed = false → p.once = true → s.Conflicting p → Completes i s fun t => t.Answered n { p with performed := true } 0 0
       ∧ t.mem = s.mem ∧ t.mwritten = s.mwritten ∧ (t.die (dieOfPa pa)).log = (s.die (dieOfPa pa)).log ++ [⟨0x403, pa, 0, 0, 0, []⟩])
     ∧ (p.performed = true → Completes i s fun t => t = { s with packets := t.packets } ∧ t.Answered n p 0 0))
  ∧ (∀ (i : Instr) (s : State) (n : Nat) (ops : List Nat) (p : Packet) (l : Nat), arrivalOf i = some (n, ops) → s.Arriving n p ops →
       s.turnedAway p = none → p.line = some l → p.op ∉ [0x66, 0xCC, 0xCD, 0xCE, 0x30, 0x31] → (p.op = 0xC5 ∨ p.op = 0xC6 → p.aux = []) → p.tag ≠ 0 →
       p.sig < 2 ^ 28 → (p.op ∈ [0x42, 0x43, 0x44, 0x45] → p.data.length = if p.kind = 0 then 1 else if p.kind = 0x0C then 2 else 4) →
       let pa := paOf p.target
       let bs := s.contributed p
       let line := paOf l
       let ta := s.homeN (line + 24) 8 + 2 * p.idx
       let count := s.homeN line 4
       let target := s.homeN (line + 4) 4
       let mine := p.sig = 0 ∨ s.homeN (line + 20) 4 = 0 ∨ s.homeN (line + 20) 4 = p.sig
       (pa + bs.length ≤ line ∨ line + 64 ≤ pa) → (ta + 2 ≤ line ∨ line + 64 ≤ ta) → (pa + bs.length ≤ ta ∨ ta + 2 ≤ pa) →
       let outside (t : State) (f : Nat → Byte) : Prop := ∀ a, (a < line ∨ line + 64 ≤ a) → a ≠ ta → a ≠ ta + 1 → t.homeByte a = f a
       let acked (t : State) : Prop := t.Answered n { p with performed := true } 0 0
       (p.once = true → p.OnceAligned) →
       (mine → p.idx < target → s.homeN ta 2 = 0 → (p.once = true → ¬s.Conflicting p) → Completes i s fun t => acked t
         ∧ t.homeN ta 2 = p.tag.toNat ∧ t.homeN line 4 = (count + 1) % 2 ^ 32
         ∧ t.homeN (line + 8) 4 = (if (count + 1) % 2 ^ 32 = target then s.homeN (line + 8) 4 ||| 16 else s.homeN (line + 8) 4)
         ∧ outside t fun a => if pa ≤ a ∧ a < pa + bs.length then bs.getD (a - pa) 0 else s.homeByte a)
       ∧ (mine → p.idx < target → s.homeN ta 2 = 0 ∨ s.homeN ta 2 = p.tag.toNat → p.once = true → s.Conflicting p → Completes i s fun t => acked t
         ∧ t.homeN (line + 8) 4 = s.homeN (line + 8) 4 ||| 8 ∧ t.homeN (line + 16) 4 = (s.homeN (line + 16) 4 + 1) % 2 ^ 32
         ∧ t.homeN line 4 = count ∧ t.homeN ta 2 = s.homeN ta 2 ∧ outside t s.homeByte)
       ∧ (mine → p.idx < target → s.homeN ta 2 = p.tag.toNat → (p.once = true → ¬s.Conflicting p) → Completes i s fun t => acked t
         ∧ t.homeN (line + 12) 4 = (s.homeN (line + 12) 4 + 1) % 2 ^ 32 ∧ t.homeN line 4 = count ∧ t.homeN ta 2 = p.tag.toNat ∧ outside t s.homeByte)
       ∧ (¬mine ∨ target ≤ p.idx ∨ (s.homeN ta 2 ≠ 0 ∧ s.homeN ta 2 ≠ p.tag.toNat) → Completes i s fun t => acked t
         ∧ t.homeN (line + 16) 4 = (s.homeN (line + 16) 4 + 1) % 2 ^ 32 ∧ t.homeN line 4 = count ∧ t.homeN ta 2 = s.homeN ta 2 ∧ outside t s.homeByte))
  ∧ (∀ (i : Instr) (s : State) (n : Nat) (ops : List Nat) (p : Packet), arrivalOf i = some (n, ops) → s.Reaching n p ops →
       let pa := paOf p.target
       let d := dieOfPa pa
       let turned (code : Nat) : Prop := Completes i s fun t => (∀ k, k ≠ n → t.packets.find? k = s.packets.find? k)
         ∧ (p.sdie ≠ none → t = { s with packets := t.packets } ∧ t.Answered n p code 0)
         ∧ (p.sdie = none → ∀ o, p.origin = some o → p.copies = 1 → t.packets.find? n = none ∧ t = { s.putFrame (s.choosePath n)
           [wireWord0 o.1 (s.nodeId d) o.2.1 code p.op o.2.2 true, p.wire.1, p.wire.2.1, p.wire.2.2] [] with packets := t.packets })
       let admits (k : Nat) : Prop :=
         let e := s.reg d (0x3100 + 16 * k)
         let base := wbits (s.reg d (0x3108 + 16 * k)) 43 16 * 65536
         e.getLsbD 63 = true ∧ e.getLsbD (if p.reads then 61 else 62) = true ∧ wbits e 47 32 = p.asid.toNat
           ∧ ∀ r ∈ s.packetRanges p, base ≤ r.1 ∧ r.1 + r.2 ≤ base + wbits e 31 0 * 65536
       let valid := astValid (s.astEntry d p.asid.toNat) = true
       let tags (l : Nat) : Nat × Nat := (s.homeN (paOf l + 24) 8, 2 * s.homeN (paOf l + 4) 4)
       (p.sdie = none → (∀ k, k < 64 → ¬admits k) → turned 18)
       ∧ ((p.sdie ≠ none ∨ ∃ k, k < 64 ∧ admits k) →
         (¬valid → turned 20)
         ∧ (valid → p.gen ≠ s.sliceGen d p.asid → turned 2)
         ∧ (valid → p.gen = s.sliceGen d p.asid → s.isMemory pa p.span = false → turned 18)
         ∧ (valid → p.gen = s.sliceGen d p.asid → s.isMemory pa p.span = true → p.op ≠ 0x66 → ∀ l, p.line = some l →
           (dieOfPa (paOf l) ≠ d ∨ nodeOf l ≠ nodeOf p.target → turned 17)
           ∧ (dieOfPa (paOf l) = d → nodeOf l = nodeOf p.target → s.isMemory (paOf l) 64 = false → turned 18)
           ∧ (dieOfPa (paOf l) = d → nodeOf l = nodeOf p.target → s.isMemory (paOf l) 64 = true →
             dieOfPa (tags l).1 ≠ d ∨ s.isMemory (tags l).1 (max (tags l).2 1) = false → turned 19))))

/-- A contribution to an arrival line: with another signature it sets SIGNATURE, past TARGET it sets OVERRUN, on a slot of the tag array that holds
another tag it sets COLLISION, and counts in REJECTS; on a slot with its own tag it counts in DUPS; on an empty slot it puts its tag there and counts
in COUNT, and DONE is set when COUNT reaches TARGET (R398, R400). The arrival of ARRINIT's, CRCLR's and MCLR's packets, of an RGET request, and of the
requests to watch or read a line: what each leaves at its home, and its answer; a later copy of one of the first three does nothing (R405, R410, R412
to R414; log 125). -/
def Obligations.LineArrivals : Prop :=
  (∀ (s : State) (line i sig : Nat) (u : BitVec 16), u ≠ 0 →
     let ta := s.homeN (line + 24) 8 + 2 * i
     let t := s.contribute line i sig u false fun s => ⟨false, s⟩
     let count := s.homeN line 4
     let target := s.homeN (line + 4) 4
     let flags := s.homeN (line + 8) 4
     let rejects (k : Nat) : Prop := t.homeN (line + 8) 4 = flags ||| 2 ^ k ∧ t.homeN (line + 16) 4 = (s.homeN (line + 16) 4 + 1) % 2 ^ 32
       ∧ t.homeN line 4 = count
     let others : Prop := ∀ a, (a < line ∨ line + 64 ≤ a) → a ≠ ta → a ≠ ta + 1 → t.homeByte a = s.homeByte a
     (ta + 2 ≤ line ∨ line + 64 ≤ ta) → sig < 2 ^ 28 →
     others ∧ t.groups = s.groups ∧ t.blocks = s.blocks
     ∧ (sig ≠ 0 → s.homeN (line + 20) 4 ≠ 0 → s.homeN (line + 20) 4 ≠ sig → rejects 2)
     ∧ ((sig = 0 ∨ s.homeN (line + 20) 4 = 0 ∨ s.homeN (line + 20) 4 = sig) →
       (target ≤ i → rejects 0)
       ∧ (i < target → s.homeN ta 2 ≠ 0 → s.homeN ta 2 ≠ u.toNat → rejects 1)
       ∧ (i < target → s.homeN ta 2 = u.toNat → t.homeN (line + 12) 4 = (s.homeN (line + 12) 4 + 1) % 2 ^ 32 ∧ t.homeN line 4 = count
         ∧ t.homeN (line + 8) 4 = flags)
       ∧ (i < target → s.homeN ta 2 = 0 → t.homeN ta 2 = u.toNat ∧ t.homeN line 4 = (count + 1) % 2 ^ 32
         ∧ t.homeN (line + 8) 4 = if (count + 1) % 2 ^ 32 = target then flags ||| 16 else flags)))
  ∧ (∀ (s : State) (n : Nat) (p : Packet), s.turnedAway p = none →
       let pa := paOf p.target
       let acked (t : State) : Prop := t.Answered n { p with performed := true } 0 0
       let answered (t : State) : Prop := t.Answered n { p with performed := true } 3 (BitVec.ofNat 128 (s.homeN pa 16))
       (p.performed = true → (s.Arriving n p [0xCC] ∨ s.Arriving n p [0xCD] ∨ s.Arriving n p [0xCE]) → Completes (if p.op = 0xCC then .arrinitPacket n else
         if p.op = 0xCD then .crclrPacket n else .mclrPacket n) s fun t => t = { s with packets := t.packets } ∧ t.Answered n p 0 0)
       ∧ (s.Arriving n p [0xCC] → p.performed = false → ∀ target tags, p.aux = [target, tags, 1] → nodeOf tags = nodeOf p.target → target < 2 ^ 32 →
         s.tagRangeOk (dieOfPa pa) (paOf tags) (2 * target) = true → (paOf tags + 2 * target ≤ pa ∨ pa + 64 ≤ paOf tags) →
         Completes (.arrinitPacket n) s fun t => acked t ∧ t.homeN pa 4 = 0 ∧ t.homeN (pa + 4) 4 = target
           ∧ t.homeN (pa + 8) 4 = (if target = 0 then 16 else 0) ∧ t.homeN (pa + 12) 4 = 0 ∧ t.homeN (pa + 16) 4 = 0 ∧ t.homeN (pa + 20) 4 = 0
           ∧ t.homeN (pa + 24) 8 = paOf tags ∧ (∀ i, i < target → t.homeN (paOf tags + 2 * i) 2 = 0)
           ∧ ∀ a, (a < pa ∨ pa + 64 ≤ a) → (a < paOf tags ∨ paOf tags + 2 * target ≤ a) → t.homeByte a = s.homeByte a)
       ∧ (s.Arriving n p [0xCD] → p.performed = false → Completes (.crclrPacket n) s fun t => acked t
           ∧ ∀ a, t.homeByte a = if pa ≤ a ∧ a < pa + 64 then 0 else s.homeByte a)
       ∧ (s.Arriving n p [0xCE] → p.performed = false → ∀ len, p.aux = [len] → Completes (.mclrPacket n) s fun t => acked t ∧ t.mem = s.mem
           ∧ ∀ g, t.mwritten.getD false g = if pa ≤ 8 * g ∧ 8 * g < pa + len then false else s.mwritten.getD false g)
       ∧ (s.Arriving n p [0x66] → n ≠ s.uid → ∀ len mould va, p.aux = [len, mould, va] → (∀ k, k < len / 8 → s.homePois (pa + 8 * k) 8 = false) →
           Completes (.rgetRequest n) s fun t => acked t ∧ t.mem = s.mem ∧ ∃ q, t.packets.find? s.uid = some q
             ∧ q.op = 0x26 ∧ q.data = bytesOf len (s.homeN pa len) ∧ q.target = mould ∧ q.va = some va ∧ q.line = p.line ∧ q.lineVa = p.lineVa ∧ q.idx = p.idx ∧ q.sig = p.sig
             ∧ q.tag = tagOf 0x26 0 mould [] ∧ q.sdie = some (dieOfPa pa) ∧ q.aux = [0] ∧ q.pour = p.pour ∧ q.grp = p.grp
             ∧ (nodeOf mould = s.nodeId (dieOfPa pa) → (s.die (dieOfPa pa)).mode.getLsbD 4 = false → q.copies = 1 ∧ q.attempts = 1 ∧ q.sentAt = s.now))
       ∧ (s.Arriving n p [0x30] → (s.lineEnds pa = true → Completes (.waitaWatch n) s fun t => answered t ∧ t.mem = s.mem)
           ∧ (s.lineEnds pa = false → exec (.waitaWatch n) s = .next s))
       ∧ (s.Arriving n p [0x31] → Completes (.arrstRead n) s fun t => answered t ∧ t.mem = s.mem))

/-- What a response does at the sender of a packet that is still kept: an acknowledgement ends it; retry-later doubles its wait, up to 64 times; stale
translates it again and sends it again as one more attempt, or rejects it where the translation fails (log 108); a rejection records REMOTE_REJECT
with its reason for the group, where no record is held; and the timeout sends it again, or after LIMIT attempts records REMOTE_UNREACHABLE. A request
to watch or read a line is sent again without limit, which is the model's reading (log 17). The mesh may drop a copy or a response of a packet that
crosses it (R391, R392, R415 to R418). The answer of a line elsewhere reaches the WAITA or ARRST that waits for it, and ends its request (R412, R413). -/
def Obligations.ResponsesAtSender : Prop :=
  (∀ (s : State) (n d g : Nat) (p : Packet), s.packets.find? n = some p → p.status = none → p.sdie = some d → p.gid = some g → p.owner = none →
     p.stream = none → p.launch = none → (∃ x, s.groups.find? g = some x ∧ x.ended = false) →
     let ended (t : State) (code : Nat) : Prop := t.packets.find? n = if p.copies = 0 then none else some { p with status := some code, resps := [] }
     let recorded (t : State) (cause reason : Nat) : Prop := (s.group g).rerr = none →
       (t.group g).rerr = some (BitVec.ofNat 8 cause, BitVec.ofNat 8 reason, BitVec.ofNat 64 p.target)
         ∧ (cause = 0x19 → (t.group g).rreason = BitVec.ofNat 8 reason)
     let limit := wbits (s.reg d 0x080) 20 16
     let wait := p.mult * (wbits (s.reg d 0x080) 15 0 * 400)
     (∀ x, p.resps = [⟨0, x⟩] → Completes (.responseAcknowledged n) s fun t => ended t 0 ∧ t.groups = s.groups ∧ t.mem = s.mem)
     ∧ (∀ x, p.resps = [⟨1, x⟩] → Completes (.responseRetryLater n) s fun t =>
         t = { s with packets := s.packets.insert n { p with resps := [], mult := min 64 (2 * p.mult) } })
     ∧ (∀ x, p.resps = [⟨2, x⟩] → p.stales < 15 → p.attempts < limit ∨ p.op = 0x30 ∨ p.op = 0x31 →
         (∀ q, s.renewed d { p with resps := [] } = some q → q.gen = astGen (s.astEntry d p.asid.toNat) ∧ q.data = p.data ∧ q.idx = p.idx ∧ q.tag = p.tag
           ∧ exec (.responseStale n) s = .next (s.transmit n { q with stales := p.stales + 1 }))
         ∧ (s.renewed d { p with resps := [] } = none → Completes (.responseStale n) s fun t =>
           recorded t 0x19 (if astValid (s.astEntry d p.asid.toNat) then 2 else 4) ∧ t.mem = s.mem))
     ∧ (∀ x, p.resps = [⟨2, x⟩] → p.stales < 15 → limit ≤ p.attempts → p.op ≠ 0x30 → p.op ≠ 0x31 → Completes (.responseStale n) s fun t => ended t 256 ∧ recorded t 0x18 0)
     ∧ (∀ x, p.resps = [⟨2, x⟩] → 15 ≤ p.stales → Completes (.responseStale n) s fun t => ended t 21 ∧ recorded t 0x19 5)
     ∧ (∀ code x, p.resps = [⟨16 + code, x⟩] → Completes (.responseReject n) s fun t => ended t (16 + code) ∧ recorded t 0x19 code ∧ t.mem = s.mem)
     ∧ (p.attempts ≠ 0 → s.clk < p.sentAt + wait → exec (.retransmitTimeout n) s = .next s)
     ∧ (p.attempts = 0 ∨ p.sentAt + wait ≤ s.clk → p.attempts < limit ∨ p.op = 0x30 ∨ p.op = 0x31 →
         exec (.retransmitTimeout n) s = .next (s.transmit n { p with stales := 0 }))
     ∧ (p.attempts = 0 ∨ p.sentAt + wait ≤ s.clk → limit ≤ p.attempts → p.op ≠ 0x30 → p.op ≠ 0x31 → Completes (.retransmitTimeout n) s fun t =>
         ended t 256 ∧ recorded t 0x18 0 ∧ t.mem = s.mem)
     ∧ (d = dieOfPa (paOf p.target) → nodeOf p.target = s.nodeId d → ∀ r, exec (.meshPacketDrop n r) s = .next s)
     ∧ (d ≠ dieOfPa (paOf p.target) ∨ nodeOf p.target ≠ s.nodeId d →
         exec (.meshPacketDrop n false) s = .next { s with packets := s.packets.insert n { p with copies := p.copies - 1 } }
         ∧ exec (.meshPacketDrop n true) s = .next { s with packets := s.packets.insert n { p with resps := p.resps.drop 1 } }))
  ∧ (∀ (s : State) (n g e : Nat) (p : Packet) (q : Split) (x : BitVec 128), s.packets.find? n = some p → p.status = none → p.gid = some g →
       p.owner = none → p.stream = none → p.launch = none → p.resps = [⟨3, x⟩] → (s.groups.find? g).isSome = true → (s.group g).splits = [(e, q)] →
       (q.st = .waiting (.answer n) ∨ ∃ a ex, q.st = .waiting (.line a (some n) ex)) →
       Completes (.responseLineAnswer n) s fun t =>
         (t.group g).split e = { q with answer := some ((x >>> 64).getLsbD 4, x.setWidth 64, (x >>> 64).setWidth 64) } ∧ t.mem = s.mem
         ∧ (p.copies = 0 → t.packets.find? n = none))

/-! ### The ladle -/

/-- LTILE, LGATH, LSCAT, TSEND and LCBLD read their record at issue and enter the core's queue for the batch or the phase barrier that it names; a record
at fault raises ENGINE_FAULT with the number of its first word at fault, to which log 44 says which rule belongs; a full queue holds the split, where
a command keeps its place until it completes (log 112; R243 to R245, R253, R457). LADLE_PIECE of a load: piece p of a memory row, which LTILE.ld takes
in order and LGATH from its list, is decoded into its scratchpad row: each element unscaled, under its block's scale, or as a lattice weight of the
codebook version that the command has taken; with no version resident, the error of code 3 is recorded. No other byte changes (R28 to R32, R244, R246
to R250, R253; one event performs a whole piece, log 12). LADLE_PIECE of a store: each element of piece p of a row goes into memory in its format, or
is combined there as REDUCE says; no other byte changes. A piece of LSCAT waits while an earlier position that names its row has the same piece still
to do (R244, R246, R249). LADLE_PIECE of a list position whose word is poisoned, or whose entry is out of range: the position's error is recorded, and
nothing is moved; with `.z`, LGATH fills the position's columns with zeros and both write the entry as 0xFFFFFFFF (R221, R250; the poisoned word is
log 124). LADLE_PIECE of an LSCAT bound to a line, and of a TSEND: each piece of a row, or each element of a crucible addition, goes out as one
contribution to the line, at its index, with its tag; TSEND sends row k of its tile to each rank that MASK selects, or, without REDUCE, one arrival to
the rank's line (R399, R408, R457; the number of pieces is each row's own, log 127). LADLE_PIECE of an LCBLD: the version stands in its own place, or
in a free one, or in that of the version used longest ago, with the 1024 bytes of its page; it waits behind an earlier load of its version and while a
command has taken the place (R253). -/
def Obligations.LadleCommands : Prop :=
  (∀ s : State, s.Issuing →
     (∀ (i : Instr) (a : UReg) (op : LOp), ladleOf i = some (a, op) → s.Clear s.cur.mask ((List.range 8).map fun k => rdU (a + BitVec.ofNat 8 k)) →
       let w := s.record a 8
       (s.recordFault op w = none → (s.core s.curCore).ladle.length < 32 → exec i s = .next (s.ladled op w ((Rec.of w).ckind != 1)))
       ∧ (s.recordFault op w = none → 32 ≤ (s.core s.curCore).ladle.length → exec i s = .next (s.waitFor .ladleSlot))
       ∧ ∀ k, s.recordFault op w = some k → s.MayTrap → Completes i s fun t =>
         TrapEntered s t 0x1B s.cur.off (BitVec.ofNat 64 (2 ^ 63 + k)) s.spl.exec)
     ∧ ∀ o : LcBld, s.Clear s.cur.mask [rdU o.a] →
       let a := wbits (s.grp.ureg o.a.toNat) 55 0
       (a % 64 = 0 → (s.core s.curCore).ladle.length < 32 → exec (.lcbld o) s = .next (s.ladled (.codebook o.v a) [] true))
       ∧ (a % 64 ≠ 0 → s.MayTrap → Completes (.lcbld o) s fun t => TrapEntered s t 0x1B s.cur.off (BitVec.ofNat 64 (2 ^ 63)) s.spl.exec))
  ∧ (∀ (s u : State) (core n j k x p : Nat) (m m0 : LCmd), s.RowSource core n j m false k x p u m0 →
       let r := Rec.of m.words
       let cols := r.colsOf p
       let ranges := r.ranges x cols ++ if r.scaled then cols.map fun c => ((r.scaleVa x c).1, 4) else []
       let loads (v : State) (m1 : LCmd) (book : Option Book) : Prop := ∀ pages, v.PagesAt core m .ladleRead ranges pages →
         (∀ c ∈ cols, ∀ d ∈ cols, c < d → r.scrAt k c + r.cs ≤ r.scrAt k d ∨ r.scrAt k d + r.cs ≤ r.scrAt k c) →
         Completes (.ladlePiece core n j) s fun t =>
           (∀ c ∈ cols, (t.block m.blk).readN (r.scrAt k c) r.cs = v.loadedElem r book pages x c % 2 ^ (8 * r.cs))
           ∧ (∀ a, (∀ c ∈ cols, a < r.scrAt k c ∨ r.scrAt k c + r.cs ≤ a) → (t.block m.blk).byte a = (s.block m.blk).byte a)
           ∧ t.mem = s.mem ∧ (t.core core).ladle.find? n = some { m1 with done := m.done ++ [j] }
       (r.sf ≠ 0x09 → loads u m0 none)
       ∧ (r.sf = 0x09 → (∀ q ∈ (s.core core).ladle, q.1 < n → ∀ v a, q.2.op = .codebook v a → v.toNat ≠ r.cbver) →
         (∀ b, m.book = some b → loads u m0 ((s.core core).books.find? b))
         ∧ (∀ b, m.book = none → (s.core core).bookOf (BitVec.ofNat 8 r.cbver) = some b →
           loads (u.modCore core fun c => { c with books := c.books.modify b (fun k => { k with used := s.tick }),
                                                   ladle := c.ladle.modify n fun m => { m with book := some b } })
             { m0 with book := some b } ((s.core core).books.find? b))
         ∧ (m.book = none → (s.core core).bookOf (BitVec.ofNat 8 r.cbver) = none → s.PieceFails core n j m m0 0x1B (2 ^ 63 + 3))))
  ∧ (∀ (s u : State) (core n j k x p : Nat) (m m0 : LCmd), s.RowSource core n j m true k x p u m0 →
       let r := Rec.of m.words
       let cols := r.colsOf p
       let at_ (c i : Nat) : Nat := (r.vaBit x c).1 + i
       let bit (c : Nat) : Nat := 8 * (r.vaBit x c).1 + (r.vaBit x c).2
       let held : Prop := ∃ z, m.op = .scatter z ∧ ∃ i, i < k ∧ u.listEntry m i = u.listEntry m k ∧ m.done.contains (i * r.piecesPerRow + p) = false
       (held → exec (.ladlePiece core n j) s = .next u)
       ∧ (¬held → ∀ pages, u.PagesAt core m .ladleWrite (r.ranges x cols) pages →
         (∀ c ∈ cols, ∀ d ∈ cols, ∀ i h, i < r.accBytes → h < r.accBytes → physOf pages (at_ c i) = physOf pages (at_ d h) → at_ c i = at_ d h) →
         (∀ c ∈ cols, ∀ d ∈ cols, c < d → bit c + r.sb ≤ bit d ∨ bit d + r.sb ≤ bit c) →
         let elem (t : State) (c : Nat) : Nat := t.pageN pages (r.vaBit x c).1 r.accBytes / 2 ^ (r.vaBit x c).2 % 2 ^ r.sb
         Completes (.ladlePiece core n j) s fun t =>
           (∀ c ∈ cols, elem t c = combineElem r.reduce r.sf r.cf (elem s c) ((s.block m.blk).readN (r.scrAt k c) r.cs))
           ∧ (∀ a, (∀ c ∈ cols, ∀ i, i < r.accBytes → a ≠ physOf pages (at_ c i)) → t.homeByte a = s.homeByte a)
           ∧ t.blocks = s.blocks ∧ (t.core core).ladle.find? n = some { m0 with done := m.done ++ [j] }))
  ∧ (∀ (s : State) (core n j : Nat) (m : LCmd) (z gather : Bool), s.PieceWaits core n j m → m.op = (if gather then .gather z else .scatter z) →
       let r := Rec.of m.words
       let per := if gather = false ∧ r.ckind = 2 then (if r.reduce = 1 then r.cols else r.maxLines) else r.piecesPerRow
       let k := j / per
       let a := r.ilist + 4 * k
       let x := s.listEntry m k
       let m0 : LCmd := { m with entries := m.entries.insert k x }
       (r.sf = 0x09 → ∀ q ∈ (s.core core).ladle, q.1 < n → ∀ v a, q.2.op = .codebook v a → v.toNat ≠ r.cbver) →
       (m.entries.find? k = none → (s.block m.blk).poisoned a 4 = true → s.PieceFails core n j m m 0x16 a)
       ∧ (s.listPoison m k = none → r.outOfRange x = true → z = false →
         s.PieceFails core n j m m0 0x15 (k + m.batch.getD 0xFFFFFFFF * 2 ^ 32))
       ∧ (s.listPoison m k = none → r.outOfRange x = true → z = true → Completes (.ladlePiece core n j) s fun t =>
         (t.block m.blk).readN a 4 = 0xFFFFFFFF ∧ t.mem = s.mem ∧ (t.core core).ladle.find? n = some { m0 with done := m.done ++ [j] }
         ∧ (∀ c ∈ r.colsOf (j % per), gather = true → r.scrAt k c + r.cs ≤ a ∨ a + 4 ≤ r.scrAt k c → (t.block m.blk).readN (r.scrAt k c) r.cs = 0)
         ∧ ∀ y, (y < a ∨ a + 4 ≤ y) → (∀ c ∈ r.colsOf (j % per), gather = false ∨ y < r.scrAt k c ∨ r.scrAt k c + r.cs ≤ y) →
           (t.block m.blk).byte y = (s.block m.blk).byte y))
  ∧ (∀ (s u : State) (core n j k row line p : Nat) (m m0 : LCmd), s.DeliverySource core n j m k row line p u m0 →
       let r := Rec.of m.words
       let d := dieOfCore core
       let sends (dest idx : Nat) (data : List Byte) : Prop := ∀ lpa lt pa pt, u.translateWith core m.asid line .ladleWrite sharedOrFabric = (u, .ok lpa lt) →
         u.translateWith core m.asid dest .ladleWrite (fun t => if r.reduce = 6 then t.kind = kMould || t.kind = kFabric else sharedOrFabric t) = (u, .ok pa pt) →
         (nodeOf pa = nodeOf lpa ∧ (nodeOf pa = s.nodeId d → dieOfPa (paOf pa) = dieOfPa (paOf lpa))) →
         Completes (.ladlePiece core n j) s fun t => t.mem = s.mem ∧ t.blocks = s.blocks
           ∧ (t.core core).ladle.find? n = some { m0 with packets := m.packets ++ [s.uid], done := m.done ++ [j] }
           ∧ ∃ q, t.packets.find? s.uid = some q ∧ q.op = 0x40 + r.reduce ∧ q.kind = (if r.reduce = 0 then 0 else r.sf) ∧ q.target = pa ∧ q.line = some lpa
             ∧ q.idx = idx % 2 ^ 32 ∧ q.sig = r.sig ∧ q.data = data ∧ q.sdie = some d ∧ q.gid = some m.gid ∧ q.asid = m.asid ∧ q.gen = pt.gen
             ∧ q.tag = tagOf (0x40 + r.reduce) q.kind pa (if r.reduce = 6 then [] else data)
       let source (a : Nat) : Byte := (s.block m.blk).byte (r.scrAt k ((a - row) / r.cs) + (a - row) % r.cs)
       (r.reduce = 0 → sends line r.bound [])
       ∧ (r.reduce = 1 → sends (row + 64 * p) (r.bound + k * r.cols + p) (bytesOf r.cs ((s.block m.blk).readN (r.scrAt k p) r.cs)))
       ∧ (2 ≤ r.reduce →
         let first := max row (row / 64 * 64 + 64 * p)
         let last := min (row + r.rowBytes) (row / 64 * 64 + 64 * p + 64)
         (first < last → sends first (r.bound + k * ((row + r.rowBytes + 63) / 64 - row / 64) + p) ((List.range (last - first)).map fun i => source (first + i)))
         ∧ (last ≤ first → Completes (.ladlePiece core n j) s fun t => t.packets = s.packets ∧ t.mem = s.mem ∧ t.blocks = s.blocks
           ∧ (t.core core).ladle.find? n = some { m0 with done := m.done ++ [j] })))
  ∧ (∀ (s : State) (core n : Nat) (m : LCmd) (v : BitVec 8) (addr : Nat), s.PieceWaits core n 0 m → m.op = .codebook v addr →
       let books := (s.core core).books
       let held (place : Nat) : Prop := (∃ q ∈ (s.core core).ladle, q.1 < n ∧ q.2.done = [] ∧ ∃ a, q.2.op = .codebook v a)
         ∨ ∃ q ∈ (s.core core).ladle, q.2.book = some place
       (∀ b ∈ books, b.1 < 4 ∧ b.2.used < 2 ^ 64) → ∃ place, place < 4
         ∧ (∀ b, (s.core core).bookOf v = some b → place = b)
         ∧ ((s.core core).bookOf v = none → books.find? place = none
           ∨ ((∀ k, k < 4 → (books.find? k).isSome = true) ∧ ∀ b c, books.find? place = some b → ∀ k, books.find? k = some c → b.used ≤ c.used))
         ∧ (held place → exec (.ladlePiece core n 0) s = .next s)
         ∧ (¬held place → ∀ pages, s.PagesAt core m .ladleRead [(addr, 1024)] pages → Completes (.ladlePiece core n 0) s fun t =>
           (∃ b, (t.core core).books.find? place = some b ∧ b.v = v ∧ b.used = s.tick ∧ b.pois = ((List.range 128).any fun i => s.homePois (physOf pages (addr + 8 * i)) 8)
             ∧ b.data = (List.range 1024).map fun i => s.homeByte (physOf pages (addr + i)))
           ∧ (∀ k, k ≠ place → (t.core core).books.find? k = books.find? k) ∧ t.mem = s.mem ∧ t.blocks = s.blocks
           ∧ (t.core core).ladle.find? n = some { m with done := m.done ++ [0] }))

/-! ### Retrieval tables -/

/-- HPROBE, HINS and HDEL on a slot in the right state, with a well-formed record and a completion word of kind 0 or 1, are in flight with the slot's
descriptor as sampled, or, without a query or an entry, complete at once; an unbound slot, one of another address space or one in the wrong state
raises TABLE_STATE with its reason, and a record or completion word at fault ENGINE_FAULT, code 0x30 before code 0x31 (log 46; R372, R374, R376, R378,
R383). RIDDLE_COMMAND_COMPLETION: a command whose steps are done leaves the riddle, with one command fewer in its batch; HADV, once its group's
earlier updates are applied, moves the cursor, at most to ROWS, and answers it (R374, R379). -/
def Obligations.RiddleCommands : Prop :=
  (∀ (i : Instr) (s : State) (f : RiddleForm), riddleOf i s = some f → s.Issuing → f.uses.any s.grp.unallocated = false →
     let kind := wbits f.cw 1 0
     let addr := wbits f.cw 63 2 * 4
     let bad := f.bad = true ∨ (kind = 1 ∧ (addr % 8 ≠ 0 ∨ s.blk.scrSize < addr + 8))
     let traps (cause : Nat) (detail : Nat) : Prop := s.MayTrap → Completes i s fun t => TrapEntered s t cause s.cur.off (BitVec.ofNat 64 detail) s.spl.exec
     ((s.tslot s.curDie f.n.toNat).bound = false → traps 0x1A (f.n.toNat + 256))
     ∧ ((s.tslot s.curDie f.n.toNat).bound = true → (s.tslot s.curDie f.n.toNat).asid ≠ s.grp.cx.asid → traps 0x1A (f.n.toNat + 512))
     ∧ (s.SlotOk f.n → s.Clear s.cur.mask f.uses → (∀ r, f.reason = some r → traps 0x1A (f.n.toNat + r * 256))
       ∧ (f.reason = none → bad → traps 0x1B (2 ^ 63 + 0x30))
       ∧ (f.reason = none → ¬bad → 2 ≤ kind → traps 0x1B (2 ^ 63 + 0x31))
       ∧ (f.reason = none → ¬bad → kind = 0 → f.empty = false → exec i s = .next (s.riddled f.n f.op f.words (some s.grp.bseq.toNat) none))
       ∧ (f.reason = none → ¬bad → kind = 1 → f.empty = false → exec i s = .next (s.riddled f.n f.op f.words none (some addr)))
       ∧ (f.reason = none → ¬bad → kind = 0 → f.empty = true → s.grp.closed.contains s.grp.bseq.toNat = false → Completes i s fun t =>
         t = { s with groups := t.groups } ∧ t.grp.issueSeq = s.grp.issueSeq + 1 ∧ t.grp.bseq = s.grp.bseq
         ∧ t.grp.batches.getD 0 s.grp.bseq.toNat = s.grp.batches.getD 0 s.grp.bseq.toNat)
       ∧ (f.reason = none → ¬bad → kind = 1 → f.empty = true → exec i s =
         .next ((s.modGrp fun g => { g with issueSeq := g.issueSeq + 1 }).updatePhase s.grp.cx.blk addr 0 0))))
  ∧ (∀ (s : State) (d n : Nat) (c : RCmd), (s.die d).riddle.find? n = some c →
       (∀ b, (∀ k, c.op ≠ .advance k) → c.total ≤ c.step → c.batch = some b → (∃ g, s.groups.find? c.gid = some g ∧ 1 < g.batches.getD 0 b) →
         Completes (.riddleCommandCompletion d n) s fun t => (t.die d).riddle.find? n = none ∧ t.mem = s.mem
           ∧ (t.group c.gid).batches.getD 0 b = (s.group c.gid).batches.getD 0 b - 1)
       ∧ (∀ k, c.op = .advance k →
         let t0 := s.tslot d c.slot
         let cur := min (cursorOf t0.desc + k) (rowsOf t0.desc)
         (∀ p ∈ (s.die d).riddle, p.2.gid = c.gid → p.1 < n → p.2.op.isUpdate = true → p.2.applied = true) → t0.bind = c.bind → t0.version = c.version →
         t0.desc.length = 16 → k < 2 ^ 32 → Completes (.riddleCommandCompletion d n) s fun t =>
           (t.die d).riddle.find? n = none ∧ cursorOf (t.tslot d c.slot).desc = cur ∧ t.mem = s.mem
           ∧ ∀ e p, s.groups.find? c.gid ≠ none → (s.group c.gid).splits = [(e, p)] → p.st = .waiting (.answer n) →
             (t.group c.gid).split e = { p with answer := some (false, BitVec.ofNat 64 cur, 0) }))

/-- HADV is in flight and its split waits for the cursor that it answers; HSWAP on a finished rehash makes family B family A, ends the rehash and adds one
to VERSION; HFENCE waits for its group's updates and, with DRAIN, for the slot's old versions; HSTAT stores the descriptor's live words at its
address; on a slot that is unbound or of another address space, HADV on one that is not rehashing and HSWAP on one whose rehash is not finished, they
raise TABLE_STATE with the reason (R379 to R383). HBIND binds its slot to the descriptor of 128 bytes that its address names and writes the new
VERSION; with 0 it unbinds; a slot bound by another address space, an address or field that breaks its alignment, a field that breaks its rule, or an
address that cannot be read is refused with its reason, and the slot is unchanged. Buckets are undefined where updates came after the last HSTAT that
read the state bound again (R361, R363, R375; log 113). -/
def Obligations.RetrievalTables : Prop :=
  (∀ s : State, s.Issuing →
     (∀ (i : Instr) (n : BitVec 3) (uses : List Use), slotForm i = some (n, uses) → uses.any s.grp.unallocated = false → s.MayTrap →
       (isHadv i = true → s.spl.answer = none) → (isHfence i = true → s.spl.woke = none) →
       let t0 := s.tslot s.curDie n.toNat
       let traps (reason : Nat) : Prop := Completes i s fun t =>
         TrapEntered s t 0x1A s.cur.off (BitVec.ofNat 64 (n.toNat + reason * 256)) s.spl.exec
       (t0.bound = false → traps 1)
       ∧ (t0.bound = true → t0.asid ≠ s.grp.cx.asid → traps 2)
       ∧ (s.SlotOk n → isHadv i = true → rehashing t0.desc = false → traps 3)
       ∧ (s.SlotOk n → isHswap i = true → rehashing t0.desc = false ∨ cursorOf t0.desc < rowsOf t0.desc → traps 4))
     ∧ (∀ o : HslotTwo,
       (s.spl.answer = none → s.Clear s.cur.mask [rdUlo o.a, wrU o.d] → s.SlotOk o.n → rehashing (s.tslot s.curDie o.n.toNat).desc = true →
         exec (.hadv o) s = .next ((s.riddled o.n (.advance (wbits (s.grp.ureg o.a.toNat) 31 0)) [] none none).waitFor (.answer s.uid)))
       ∧ ∀ sc v x, s.spl.answer = some (sc, v, x) → Completes (.hadv o) s fun t => UniformWritten s t o.d v ∧ UniformFrame s t)
     ∧ (∀ o : Hswap,
       let t0 := s.tslot s.curDie o.n.toNat
       let d := t0.desc
       s.Clear s.cur.mask [wrU o.d] → s.SlotOk o.n → rehashing d = true → rowsOf d ≤ cursorOf d → Completes (.hswap o) s fun t => ∃ desc : List Word,
         desc.length = 16 ∧ rehashing desc = false ∧ bits (dword desc 0) 1 0 = 0 ∧ cursorOf desc = 0 ∧ rowsOf desc = rowsOf d
         ∧ (∀ k, 6 ≤ k → k < 10 → desc.getD k 0 = d.getD (k + 4) 0) ∧ (∀ k, 10 ≤ k → k < 14 → desc.getD k 0 = 0)
         ∧ (∀ k, k < 16 → k ≠ 0 → k ≠ 2 → (k < 6 ∨ 14 ≤ k) → desc.getD k 0 = d.getD k 0)
         ∧ (let u := s.modSlot s.curDie o.n.toNat fun x => { x with desc := desc, version := x.version + 1 }
            UniformWritten u t o.d ((t0.version + 1).setWidth 64) ∧ UniformFrame u t))
     ∧ (∀ o : Hfence, (∀ n, o.drain = some n → s.SlotOk n) →
       (s.spl.woke = none → s.riddleFenced s.cur.gid s.uid (o.drain.map (·.toNat)) = true → exec (.hfence o) s = .next s)
       ∧ (s.spl.woke = none → s.riddleFenced s.cur.gid s.uid (o.drain.map (·.toNat)) = false →
         exec (.hfence o) s = .next (s.bump.waitFor (.hfence s.uid (o.drain.map (·.toNat)))))
       ∧ ∀ a b, s.spl.woke = some (.hfence a b) → exec (.hfence o) s = .next s)
     ∧ ∀ o : Hstat,
       let t0 := s.tslot s.curDie o.n.toNat
       let a := (s.grp.ureg o.a.toNat).toNat % 2 ^ 32
       s.Clear s.cur.mask [rdUlo o.a] → s.SlotOk o.n → (s.blocks.find? s.grp.cx.blk).isSome = true → t0.desc.length = 16 → s.grp.touchesScr a 128 = false →
       (a % 16 = 0 → a + 128 ≤ s.blk.scrSize → Completes (.hstat o) s fun t =>
         (∀ k, k < 16 → k ≠ 3 → t.blk.readN (a + 8 * k) 8 = (t0.desc.getD k 0).toNat)
         ∧ t.blk.readN (a + 24) 4 = t0.version.toNat
         ∧ (∀ b x, ¬(b = s.grp.cx.blk ∧ a ≤ x ∧ x < a + 128) → (t.block b).byte x = (s.block b).byte x)
         ∧ let noted : List Snap := ⟨t0.asid, t0.desc, false, false⟩ :: t0.stats.filter fun k => k.lost || k.asid != t0.asid || k.desc != t0.desc
           t = { s.modSlot s.curDie o.n.toNat fun x => { x with stats := noted } with blocks := t.blocks })
       ∧ (a % 16 ≠ 0 → s.MayTrap → Completes (.hstat o) s fun t => TrapEntered s t 0x13 s.cur.off (BitVec.ofNat 64 a) s.spl.exec)
       ∧ (a % 16 = 0 → s.blk.scrSize < a + 128 → s.MayTrap → Completes (.hstat o) s fun t =>
         TrapEntered s t 0x14 s.cur.off (BitVec.ofNat 64 a) s.spl.exec))
  ∧ (∀ (s : State) (o : HslotTwo), s.Issuing → s.spl.answer = none → s.spl.woke = none → s.Clear s.cur.mask [rdU o.a, wrU o.d] →
       let t0 := s.tslot s.curDie o.n.toNat
       let x := s.grp.ureg o.a.toNat
       let va := wbits x 55 0
       let mine := t0.bound = false ∨ t0.asid = s.grp.cx.asid
       let refuses (reason : Nat) : Prop := Completes (.hbind o) s fun t =>
         UniformWritten s t o.d (BitVec.ofNat 64 (2 ^ 63 + reason * 2 ^ 32)) ∧ UniformFrame s t
       let binds (asid : BitVec 16) (desc : List Word) : Prop := Completes (.hbind o) s fun t =>
         let t1 := t.tslot s.curDie o.n.toNat
         t1.bound = !desc.isEmpty ∧ t1.asid = asid ∧ t1.version = t0.version + 1 ∧ t1.desc = desc
         ∧ (t0.undef = false → (∀ k ∈ t0.stats, k.stale = false ∧ k.lost = false) → t1.undef = false)
         ∧ (t0.undef = false → ∀ k ∈ t0.stats, k.stale = true → (∀ e ∈ t0.stats, e.stale = true) → k.asid = asid → sharesArrays k.desc desc = true →
           cursorOf k.desc = cursorOf desc → poolNext k.desc = poolNext desc → desc ≠ [] → t1.undef = true)
         ∧ (∀ k, k < 8 → k ≠ o.n.toNat → t.tslot s.curDie k = s.tslot s.curDie k) ∧ t.mem = s.mem
         ∧ UniformWritten s t o.d ((t0.version + 1).setWidth 64)
       let pa := paOf (s.hitAddr (BitVec.ofNat 64 va))
       let words : List Word := (List.range 16).map fun k => BitVec.ofNat 64 (s.homeN (pa + 8 * k) 8)
       let readable := s.Hits .load (fun t => kindAdmits t.kind (dieOfPa (t.frame % 2 ^ 44) == s.curDie) .load && t.kind != kDevice) (BitVec.ofNat 64 va)
         ∧ s.grp.touches pa 128 = false ∧ s.memReady pa = true
       (¬mine → refuses 3)
       ∧ (mine → x = 0 → binds 0 [])
       ∧ (mine → x ≠ 0 → va % 128 ≠ 0 → refuses 2)
       ∧ (mine → x ≠ 0 → va % 128 = 0 → readable →
         (s.homePois pa 128 = true → refuses 4)
         ∧ (s.homePois pa 128 = false → alignFault words = true → refuses 2)
         ∧ (s.homePois pa 128 = false → alignFault words = false → fieldFault words = true → refuses 1)
         ∧ (s.homePois pa 128 = false → alignFault words = false → fieldFault words = false → binds s.grp.cx.asid words)))

/-- BUCKET_INSERT of a row: one that the bucket holds already changes nothing; on a bucket with a free slot of its own the first takes the row and the
count grows by one; on a full bucket under the policy that drops, the count grows, DROPPED is flagged and counted, and the row is not kept. Under RING
the row replaces that at HEAD, which moves on; under RESERVOIR it replaces the row that Mix64 chooses, or is dropped; under CHAIN it takes the first
free chain slot, or that of a new pool line linked at the chain's end, or is dropped where the pool is used up. BUCKET_DELETE empties every slot that
holds the row. BUCKET_SNAPSHOT adds one hit for each row of the bucket that the query may see, and the last one of a query writes the rows by hits and
then by number, filled up to CAP, with their count (R43, R369 to R371, R377, R385). -/
def Obligations.BucketSteps : Prop :=
  ∀ (s u : State) (d n : Nat) (c : RCmd) (b : Bucket),
    let st := c.stepAt c.step
    let x := s.inputWord c (st.words - 4)
    let h := b.own.headD 0
    let count := min (u.homeN h 2 + 1) 65535
    let free (a : Nat) : Prop := u.homeN a 4 = 0xFFFFFFFF
    let stepped (t : State) : Prop := ∃ ids, (t.die d).riddle.find? n =
      some { c with step := c.step + 1, applied := (if c.total ≤ c.step + 1 then true else c.applied), ids := ids, rejects := 0 }
    (∀ l ∈ b.own ++ b.chain, l % 64 = 0) → b.own.Nodup →
    ((∃ f, c.op = .insert f) → s.Stepping u d n c .atomic b → x ≠ 0xFFFFFFFF → b.own ≠ [] →
      ((∃ a ∈ b.slots ++ b.chainSlots, u.homeN a 4 = x) → Completes (.bucketInsert d n) s fun t => stepped t ∧ t.mem = u.mem)
      ∧ ((∀ a ∈ b.slots ++ b.chainSlots, u.homeN a 4 ≠ x) →
        (∀ a, b.slots.find? (fun a => u.homeN a 4 == 0xFFFFFFFF) = some a → Completes (.bucketInsert d n) s fun t => stepped t
          ∧ t.homeN a 4 = x ∧ t.homeN h 2 = count
          ∧ ∀ y, ¬(a ≤ y ∧ y < a + 4) → y ≠ h → y ≠ h + 1 → t.homeByte y = u.homeByte y)
        ∧ ((∀ a ∈ b.slots, ¬free a) → bits (dword c.desc 0) 5 4 = 0 → Completes (.bucketInsert d n) s fun t => stepped t
          ∧ t.homeN h 2 = count ∧ t.homeN (h + 3) 1 = u.homeN (h + 3) 1 ||| 1
          ∧ (∀ y, y ≠ h → y ≠ h + 1 → y ≠ h + 3 → t.homeByte y = u.homeByte y)
          ∧ ((s.tslot d c.slot).bind = c.bind → (t.tslot d c.slot).desc = countDropped (s.tslot d c.slot).desc))
        ∧ ((∀ a ∈ b.slots, ¬free a) → (s.tslot d c.slot).bind = c.bind →
          let cap := b.slots.length
          let d0 := (s.tslot d c.slot).desc
          let others (t : State) (more : List Nat) : Prop := ∀ y, y ≠ h → y ≠ h + 1 → y ≠ h + 2 → y ≠ h + 3 → (∀ a ∈ more, ¬(a ≤ y ∧ y < a + 4)) →
            t.homeByte y = u.homeByte y
          let left (t : State) (head flags : Nat) (desc : List Word) : Prop := t.homeN h 2 = count ∧ t.homeN (h + 2) 1 = head
            ∧ t.homeN (h + 3) 1 = u.homeN (h + 3) 1 ||| flags ∧ (t.tslot d c.slot).desc = desc
          let takes (k head : Nat) : Prop := ∀ a, b.slots[k]? = some a → Completes (.bucketInsert d n) s fun t => stepped t
            ∧ t.homeN a 4 = x ∧ left t head 2 (countReplaced d0) ∧ others t [a]
          let drops (flags : List Word → List Word) : Prop := Completes (.bucketInsert d n) s fun t => stepped t
            ∧ left t (u.homeN (h + 2) 1) 1 (countDropped (flags d0)) ∧ others t []
          let r := (mix64 (c.desc.getD 1 0 ^^^ BitVec.ofNat 64 x ^^^ BitVec.ofNat 64 count)).toNat % count
          let pool := bits (dword c.desc 4) 55 0 + 64 * poolNext d0
          (bits (dword c.desc 0) 5 4 = 1 → takes (u.homeN (h + 2) 1 % cap) ((u.homeN (h + 2) 1 % cap + 1) % cap))
          ∧ (bits (dword c.desc 0) 5 4 = 2 → (r < cap → takes r (u.homeN (h + 2) 1)) ∧ (cap ≤ r → drops id))
          ∧ (bits (dword c.desc 0) 5 4 = 3 →
            (∀ a, b.chainSlots.find? (fun a => u.homeN a 4 == 0xFFFFFFFF) = some a → Completes (.bucketInsert d n) s fun t => stepped t
              ∧ t.homeN a 4 = x ∧ t.homeN h 2 = count ∧ (∀ y, ¬(a ≤ y ∧ y < a + 4) → y ≠ h → y ≠ h + 1 → t.homeByte y = u.homeByte y))
            ∧ ((∀ a ∈ b.chainSlots, ¬free a) → poolSize c.desc ≤ poolNext d0 → drops poolEmpty)
            ∧ ((∀ a ∈ b.chainSlots, ¬free a) → poolNext d0 < poolSize c.desc → ∀ pa, u.lineOf c .atomic pool = (u, .ok pa) → pa % 64 = 0 →
              pa ∉ b.own ++ b.chain → (∀ l ∈ b.chain, l ∉ b.own) →
              let link := b.chain.getLast?.getD (h + 4)
              Completes (.bucketInsert d n) s fun t => left t (u.homeN (h + 2) 1) 4 (countLinked d0)
                ∧ t.homeN link 4 = poolNext d0 ∧ t.homeN pa 4 = 0xFFFFFFFF ∧ t.homeN (pa + 4) 4 = x
                ∧ (∀ k, 2 ≤ k → k < 16 → t.homeN (pa + 4 * k) 4 = 0xFFFFFFFF) ∧ others t (link :: (List.range 16).map fun k => pa + 4 * k)
                ∧ ∃ e, (t.die d).riddle.find? n = some e ∧ e.step = c.step + 1 ∧ e.linked = c.linked ++ [poolNext d0])))))
    ∧ ((∃ f, c.op = .delete f) → s.Stepping u d n c .atomic b → x ≠ 0xFFFFFFFF → Completes (.bucketDelete d n) s fun t => stepped t
      ∧ (∀ a ∈ b.slots ++ b.chainSlots, t.homeN a 4 = if u.homeN a 4 = x then 0xFFFFFFFF else u.homeN a 4)
      ∧ ∀ y, (∀ a ∈ b.slots ++ b.chainSlots, ¬(a ≤ y ∧ y < a + 4)) → t.homeByte y = u.homeByte y)
    ∧ (c.op = .probe → s.Stepping u d n c .load b →
      (c.step + 1) % max ((Fam.of c.desc false).l + if rehashing c.desc then (Fam.of c.desc true).l else 0) 1 ≠ 0 →
      let sees (y : Nat) : Bool := !rehashing c.desc || (if st.famB then decide (y < cursorOf c.desc) else decide (cursorOf c.desc ≤ y))
      Completes (.bucketSnapshot d n) s fun t => t.mem = u.mem ∧ ∃ e, (t.die d).riddle.find? n = some e
        ∧ e = { c with step := c.step + 1, hits := e.hits, ids := e.ids, rejects := 0 }
        ∧ ∀ y, e.hits.getD 0 y = c.hits.getD 0 y + if (u.idsOf b).contains y && sees y then 1 else 0)
    ∧ (c.op = .probe → s.Stepping u d n c .load b →
      (c.step + 1) % max ((Fam.of c.desc false).l + if rehashing c.desc then (Fam.of c.desc true).l else 0) 1 = 0 →
      c.hits.Pairwise (fun p q => p.1 < q.1) → (∀ p ∈ c.hits, p.2 ≠ 0 ∧ p.1 < 2 ^ 32) → (s.blocks.find? c.blk).isSome = true →
      let sees (y : Nat) : Bool := !rehashing c.desc || (if st.famB then decide (y < cursorOf c.desc) else decide (cursorOf c.desc ≤ y))
      let hits (y : Nat) : Nat := c.hits.getD 0 y + if (u.idsOf b).contains y && sees y then 1 else 0
      let p := Probe.of c.words
      let out := p.oaddr + 4 * p.cap * st.item
      let at_ := p.caddr + 4 * st.item
      out + 4 * p.cap ≤ at_ ∨ at_ + 4 ≤ out → Completes (.bucketSnapshot d n) s fun t => t.mem = u.mem
        ∧ (∃ ids, (t.die d).riddle.find? n = some { c with step := c.step + 1, hits := [], ids := ids, rejects := 0 })
        ∧ (∃ rows : List Nat, rows.Pairwise (fun y z => hits z < hits y ∨ (hits y = hits z ∧ y < z)) ∧ (∀ y, y ∈ rows ↔ hits y ≠ 0)
          ∧ (∀ j, j < p.cap → (t.block c.blk).readN (out + 4 * j) 4 = rows.getD j 0xFFFFFFFF)
          ∧ (t.block c.blk).readN at_ 4 = min rows.length p.cap + if p.cap < rows.length then 2 ^ 31 else 0)
        ∧ ∀ y, (y < out ∨ out + 4 * p.cap ≤ y) → (y < at_ ∨ at_ + 4 ≤ y) → (t.block c.blk).byte y = (s.block c.blk).byte y)

/-! ### Storage, checkpoints and frames -/

/-- SLOAD and SSTORE to a pair that has room, with buffer pages and a line that pass translation: a command is outstanding for the pair under a new
identifier, which sd takes, SC is 1, its entry stands in the ring and names up to two pages itself and a list for more, the ring's tail moves on and
its doorbell is written; a pair that is not enabled or is full answers SC = 0 (R434 to R436; the identifier is left open, log 5, and the entry's
layout is that of the standard, log 31). NVME_COMPLETION writes the entry at the head of the pair's completion ring, where the PCIe link of the pair's
endpoint is up (R426); one with the phase tag expected is taken, and the arrival of its command is contributed to the command's line (R437; the
entry's layout is that of the standard, log 31). -/
def Obligations.StorageCommands : Prop :=
  (∀ (s : State) (o : Storage) (write : Bool), s.Issuing →
     s.Clear s.cur.mask ([rdU o.a, rdU (o.a + 1), rdU (o.a + 2), wrU o.d, wrSc] ++ [rdU o.b, rdU (o.b + 1)]) →
     let i : Instr := if write then .sstore o else .sload o
     let q := o.q.toNat
     let va := s.grp.ureg o.a.toNat
     let w := s.grp.ureg (o.a + 2).toNat
     let c := s.sqcfg q
     let p := s.nvPair q
     wbits va 63 56 = 0 → wbits w 31 16 = 0 → va.toNat % 4096 = 0 → (wbits w 15 0 + 1) * lbaBytes c ≤ 2 ^ 21 → s.BindOk o.b sharedOrFabric →
     let pages : List Word := (List.range (((wbits w 15 0 + 1) * lbaBytes c + 4095) / 4096)).map fun k => BitVec.ofNat 64 (va.toNat + 4096 * k)
     let bufs := pages.map s.hitAddr
     let entry := sqBase c + 64 * p.tail
     let prp (k : Nat) : Nat := (s.busAddr (endpointOf (pairDie q).1) (paOf (bufs.getD k 0))).toNat
     (∀ x ∈ pages, s.Hits (if write then .load else .store) (bufferKind write) x) → (write = true → s.grp.performedBefore s.uid true = true) →
     let u := if write then s.releaseAt s.curCore .die else s
     ((c.getLsbD 0 = false ∨ sqDepth c ≤ p.cmds.length + 1) → exec i s = .next (u.modSpl fun x => { x with sc := false }))
     ∧ (c.getLsbD 0 = true → p.cmds.length + 1 < sqDepth c → s.memReady (sqBase c) = true → p.cmds.length < 65536 → Completes i s fun t => ∃ id,
       p.cmds.find? id = none ∧ t.spl.sc = true ∧ t.grp.ureg o.d.toNat = BitVec.ofNat 64 id
       ∧ (∀ r : UReg, r ≠ o.d → t.grp.ureg r.toNat = s.grp.ureg r.toNat)
       ∧ (t.nvPair q).tail = (p.tail + 1) % sqDepth c ∧ (t.nvPair q).chead = p.chead
       ∧ (t.nvPair q).cmds.find? id = some ⟨write, s.cur.gid, s.grp.cx.pourid.toNat, s.grp.cx.grpid.toNat, bufs.headD 0, (s.bindLine o.b).toNat,
           s.hitAddr (s.bindLine o.b), s.bindBase o.b, s.bindSig o.b, s.grp.cx.asid, bufs⟩
       ∧ t.homeN entry 4 = (if write then 1 else 2) + id * 65536 ∧ t.homeN (entry + 24) 8 = prp 0
       ∧ (bufs.length ≤ 2 → t.homeN (entry + 32) 8 = if bufs.length = 2 then prp 1 else 0)
       ∧ (2 < bufs.length → t.homeN (entry + 32) 8 = (s.busAddr (endpointOf (pairDie q).1) (Config.prpPage q id * 4096)).toNat)
       ∧ t.homeN (entry + 40) 8 = (s.grp.ureg (o.a + 1).toNat).toNat ∧ t.homeN (entry + 48) 4 = wbits w 15 0
       ∧ HostMsg.write (endpointOf (pairDie q).1) (s.sqdb q) (BitVec.ofNat 64 ((p.tail + 1) % sqDepth c)) ∈ t.hostMsgs))
  ∧ (∀ (s : State) (q : Nat) (e : BitVec 128) (m : NvCmd), q < 128 →
       let a := s.cqHead q
       let c := s.sqcfg q
       let p := s.nvPair q
       let head := (p.chead + 1) % sqDepth c
       (s.links.contains (endpointOf (pairDie q).1) = false → exec (.nvmeCompletion q e) s = .next s)
       ∧ (s.links.contains (endpointOf (pairDie q).1) = true → s.isMemory a 16 = true → s.memReady a = true → c.getLsbD 0 = true →
       (e.getLsbD 112 = !p.phase → Completes (.nvmeCompletion q e) s fun t =>
         (∀ y, t.homeByte y = if a ≤ y ∧ y < a + 16 then byteAt e.toNat (y - a) else s.homeByte y) ∧ t.packets = s.packets ∧ t.nvPair q = p)
       ∧ (e.getLsbD 112 = p.phase → bits e.toNat 127 113 = 0 → p.cmds.find? (bits e.toNat 111 96) = some m →
         Completes (.nvmeCompletion q e) s fun t =>
           t.nvPair q = { p with chead := head, phase := (if head = 0 then !p.phase else p.phase), cmds := p.cmds.erase (bits e.toNat 111 96) }
           ∧ ∃ k, t.packets.find? s.uid = some k ∧ k.op = (if m.write then 0xC6 else 0xC5) ∧ k.line = some m.line ∧ k.idx = m.idx ∧ k.sig = m.sig
             ∧ k.target = m.line ∧ k.data = []
             ∧ (nodeOf m.line = s.nodeId (pairDie q).1 → (s.die (pairDie q).1).mode.getLsbD 4 = false → k.copies = 1))))

/-- CKPT starts a stream on each die that it names (but one whose checkpoints the host streams) and waits for their cuts; CHECKPOINT_CUT of a die waits
while a block of another launch is live there; then every dirty byte of the die's caches is written back to its home, the frames that are dirty are
taken and their bits cleared, and the last cut answers the split with the number of frames; CHECKPOINT_STREAM takes the next frame: a frame that the
checkpoint holds goes out whole and another as a mark, at its index (R463 to R466). -/
def Obligations.Checkpoints : Prop :=
  (∀ (s : State) (o : Ckpt), s.Issuing → s.spl.answer = none → s.Clear s.cur.mask [rdU o.a, rdU (o.a + 1), rdU (o.a + 2), rdU (o.a + 3), wrU o.d] →
    let a := s.grp.ureg o.a.toNat
    let b := s.grp.ureg (o.a + 1).toNat
    let c := s.grp.ureg (o.a + 2).toNat
    let w := s.grp.ureg (o.a + 3).toNat
    let ds := (List.range 24).filter fun d => w.getLsbD d && !(s.die d).mode.getLsbD 5
    (ckptFault a b c w = true → s.MayTrap → Completes (.ckpt o) s fun t =>
      TrapEntered s t 0x1B s.cur.off (BitVec.ofNat 64 (2 ^ 63 + 0x50)) s.spl.exec)
    ∧ (ckptFault a b c w = false → ds ≠ [] → Completes (.ckpt o) s fun t =>
      t.spl.st = .waiting (.answer s.uid) ∧ t.mem = s.mem ∧ t.grp.u = s.grp.u
      ∧ t.grp.batches.getD 0 s.grp.bseq.toNat = s.grp.batches.getD 0 s.grp.bseq.toNat + 1
      ∧ (∀ d ∈ ds, ∃ x, (t.die d).streams.find? s.uid = some x ∧ x.data = a.toNat + d * b.toNat ∧ x.line = wbits c 55 0 + 64 * d
        ∧ x.sig = wbits w 59 32 ∧ x.dirty = o.dirty ∧ x.cut = false ∧ x.next = 0)
      ∧ ∀ d, d ∉ ds → t.die d = s.die d))
  ∧ (∀ (s : State) (d req : Nat) (x : Stream), d < 24 → (s.die d).streams.first? (fun _ y => !y.cut) = some (req, x) →
    ((∃ b ∈ s.blocks, dieOfCore b.2.core = d ∧ b.2.launch ≠ x.issuer ∧ s.blockLive b.2 = true) → exec (.checkpointCut d) s = .next s)
    ∧ ((∀ b ∈ s.blocks, dieOfCore b.2.core = d → s.blockLive b.2 = true → b.2.launch = x.issuer) →
      let l1 (c a : Nat) : Prop := dieOfCore c = d ∧ (s.line (.l1 c) (a / 64)).dirty.getLsbD (a % 64) = true
      let cc (k a : Nat) : Prop := k / 8 = d ∧ (s.line (.cc k) (a / 64)).dirty.getLsbD (a % 64) = true
      let holds (a : Nat) : Prop := (∃ c, l1 c a) ∨ ∃ k, cc k a
      let dirty (k : Nat) : Prop := s.mdirty.getD false k = true ∨ ∃ a, a / 4096 = k ∧ holds a
      Completes (.checkpointCut d) s fun t =>
        (∀ c n, dieOfCore c = d → (t.line (.l1 c) n).dirty = 0) ∧ (∀ k n, k / 8 = d → (t.line (.cc k) n).dirty = 0)
        ∧ (∀ a, ¬holds a → t.homeByte a = s.homeByte a)
        ∧ (∀ c a, l1 c a → (∀ e, l1 e a → e = c) → (∀ k, cc k a → k = clusterOfCore c ∧ s.noSet k (a / 64) = false) → t.homeByte a = (s.line (.l1 c) (a / 64)).byte (a % 64))
        ∧ (∀ k a, cc k a → (∀ c, ¬l1 c a) → (∀ e, cc e a → e = k) → t.homeByte a = (s.line (.cc k) (a / 64)).byte (a % 64))
        ∧ (∀ k, dieOfPa (4096 * k) = d → t.mdirty.getD false k = false) ∧ (∀ k, dieOfPa (4096 * k) ≠ d → (t.mdirty.getD false k = true ↔ dirty k))
        ∧ ∃ y, (t.die d).streams.find? req = some y ∧ y.cut = true ∧ y.total = 16777216 + 4096 * wbits (s.reg d 0x010) 4 0 ∧ y.next = x.next
          ∧ y.dirty = x.dirty
          ∧ ((∀ p ∈ s.mdirty, p.2 = true ∧ s.isMemory (4096 * p.1) 4096 = true) → (∀ a, holds a → s.isMemory (a / 4096 * 4096) 4096 = true) →
            ∀ f, f ∈ y.frames ↔ f < y.total ∧ dirty (frameAddr d f / 4096))
          ∧ (s.dies.Pairwise (fun p q => p.1 < q.1) → (∀ e, e ≠ d → (s.die e).streams.find? req = none) →
            ∀ e p, (s.groups.find? x.gid).isSome = true → (s.group x.gid).splits = [(e, p)] → p.st = .waiting (.answer req) →
              (t.group x.gid).split e = { p with answer := some (true, BitVec.ofNat 64 (if x.dirty then y.frames.length else y.total), 0) })))
  ∧ ∀ (s : State) (d req : Nat) (x : Stream) (target line : Nat), (s.die d).streams = [(req, x)] → x.cut = true → x.next < x.total →
    let f := x.next
    let full := x.dirty = false ∨ f ∈ x.frames
    let u := s.modDie d fun y => { y with streams := y.streams.modify req fun x => { x with next := f + 1 } }
    s.memReady (frameAddr d f) = true → s.walkWaits d x.asid (x.data + 4096 * f) = false → s.walkWaits d x.asid x.line = false → (u.plainWalk d x.asid (x.data + 4096 * f) true fun t => t.kind = kMould || t.kind = kFabric) = (u, some target) →
    u.plainWalk d x.asid x.line true sharedOrFabric = (u, some line) →
    Completes (.checkpointStream d) s fun t => ∃ p, t.packets.find? s.uid = some p ∧ p.op = (if full then 0x48 else 0x49) ∧ p.target = target
      ∧ p.line = some line ∧ p.idx = f ∧ p.sig = x.sig ∧ p.data.length = (if full then 4096 else 0) ∧ p.stream = some (d, req)
      ∧ (nodeOf target = s.nodeId d → (s.die d).mode.getLsbD 4 = false → p.copies = 1)
      ∧ (t.die d).streams.find? req = some { x with next := f + 1, outstanding := x.outstanding ++ [s.uid] }

/-- FRAME_RECEIVE at a port in use with its link up: a frame with an error, for another address or with a wrong check is dropped and counted in the port's
register; a good request enters as a packet of its home; a response joins the packet that it answers; a malformed request is answered with reason 7
(R447, R450, R451, R453). -/
def Obligations.FrameReceived : Prop :=
  ∀ (s : State) (port : Nat) (f : Frame), port < 32 →
    let d := (portReg port).1
    let off := (portReg port).2
    let c := s.reg d off
    (c.getLsbD 0 = false ∨ c.getLsbD 2 = false ∨ c.getLsbD 3 = true → exec (.frameReceive port f) s = .next s)
    ∧ (c.getLsbD 0 = true → c.getLsbD 2 = true → c.getLsbD 3 = false →
      (f.fcsOk = false ∨ f.fecOk = false ∨ wbits f.w0 63 44 ≠ wbits (s.reg d 0x3010) 19 0
        ∨ crc32c (bytesOf 8 f.w0.toNat ++ bytesOf 8 f.w1.toNat ++ bytesOf 8 f.w2.toNat ++ bytesOf 8 f.w3.toNat ++ f.payload) ≠ f.check →
        Completes (.frameReceive port f) s fun t => t = s.setReg d off (BitVec.ofNat 64 ((wbits c 63 32 + 1) % 2 ^ 32 * 2 ^ 32 + wbits c 31 0)))
      ∧ (s.frameBad port f = false → f.w0.getLsbD 1 = false →
        (∀ p, requestOf f = some p → Completes (.frameReceive port f) s fun t =>
          t = { s with packets := s.packets.insert s.uid p, uid := s.uid + 1 } ∧ p.sdie = none ∧ p.op = wbits f.w0 13 6
            ∧ p.target = wbits f.w0 63 44 * 2 ^ 44 + wbits f.w1 63 22 * 4 ∧ p.idx = wbits f.w3 63 32 ∧ p.copies = 1)
        ∧ (requestOf f = none → exec (.frameReceive port f) s = .next (s.putFrame (s.choosePath s.uid)
          [wireWord0 (wbits f.w0 43 24) (wbits f.w0 63 44) (wbits f.w0 23 19) 23 (wbits f.w0 13 6) (wbits f.w0 5 2) true, f.w1.toNat, f.w2.toNat, f.w3.toNat]
          []).bump))
      ∧ ∀ n p code, s.frameBad port f = false → f.w0.getLsbD 1 = true → respCode f = some code → s.matchResp f = some (n, p) →
        exec (.frameReceive port f) s =
          .next { s with packets := s.packets.insert n { p with resps := p.resps ++ [⟨code, BitVec.ofNat 128 (ofBytes f.payload)⟩] } })

/-! ### Launch queues, the dispatcher and placement -/

/-- POUR, once every earlier access of its group has been performed: it appends the record's address to its queue, moves the ring's tail on, gives sd the
group's number of calls and SC = 1; a queue that is not open to it or has no room answers SC = 0, and so does one whose ring lies in no memory, which
is the model's reading (log 84). Before that it waits, with the address that it then appends kept; while the ring's memory is not served the issue is
held (R346, R438). QDOOR_WRITE, which needs a PCIe link, reads the tail of an open queue, or waits until queues and the ring's memory are served; a
tail that makes the ring hold more than its size does not count until the head has moved on. LAUNCH_TAKE takes the record at the head of a queue that
has one, moves the head on, counts the pour and checks the record: a record that names no other memory is refused for exactly the cases of R341 that
hold, and kept otherwise; an entry that names no record is dropped and logged; an empty queue changes nothing (R341, R344, R345, R426, R438; log 126). -/
def Obligations.PourQueues : Prop :=
  (∀ (s : State) (o : Pour), s.Issuing → s.Clear s.cur.mask [rdU o.a, wrU o.d, wrSc] →
     let q := o.q.toNat
     let u := s.releaseAt s.curCore .die
     let c := s.qcfg q
     let base := queueBase c
     let tail := u.homeN (base + 8) 8
     let slot := queueEntry c tail
     let opened := c.getLsbD 0 = true ∧ c.getLsbD 8 = true ∧ s.isMemory base 64 = true
     let ready := s.memReady base = true
     let full := queueSize c ≤ tail - u.homeN base 8
     let room := opened ∧ ready ∧ ¬full
     let appended (sa : Word) : Prop := (¬opened ∨ (ready ∧ full) → exec (.pour o) s = .next (u.modSpl fun p => { p with sc := false }))
       ∧ (opened → ¬ready → exec (.pour o) s = .next u.holdReady)
       ∧ (room → Completes (.pour o) s fun t =>
       t.spl.sc = true ∧ (∀ r : UReg, t.grp.ureg r.toNat = if r = o.d then s.grp.calls.setWidth 64 else s.grp.ureg r.toNat)
       ∧ t.grp.calls = s.grp.calls + 1 ∧ t.grp.v = s.grp.v ∧ t.homeN slot 8 = sa.toNat ∧ t.homeN (base + 8) 8 = (tail + 1) % 2 ^ 64
       ∧ (∀ y, ¬(slot ≤ y ∧ y < slot + 8) → ¬(base + 8 ≤ y ∧ y < base + 16) → t.homeByte y = u.homeByte y) ∧ t.tails.getD 0 q = tail + 1
       ∧ t.children.find? (q * 2 ^ 64 + tail) = some (s.grp.cx.pourid.toNat, s.grp.cx.blkid.toNat, s.grp.cx.grpid.toNat, s.grp.calls.toNat))
     (s.spl.woke = none → s.grp.performedBefore s.uid true = false → Completes (.pour o) s fun t => t.spl.st = .waiting (.fence s.uid .die true)
       ∧ t.spl.answer = some (false, s.grp.ureg o.a.toNat, 0) ∧ MemoryKept s t ∧ t.grp.u = s.grp.u)
     ∧ (s.spl.woke = none → s.grp.performedBefore s.uid true = true → appended (s.grp.ureg o.a.toNat))
     ∧ ∀ st sc ld a sa b, s.spl.woke = some (.fence st sc ld) → s.spl.answer = some (a, sa, b) → appended sa)
  ∧ (∀ (s : State) (q : Nat),
       let d := s.watchDie
       let c := s.qcfg q
       let base := queueBase c
       let head := s.homeN base 8
       let tail := s.tailOf q head
       let tl := s.homeN (base + 8) 8
       let slot := queueEntry c head
       let a := s.homeN slot 8
       let u := s.homeWrite base (bytesOf 8 (head + 1))
       let waits := c.getLsbD 0 = true ∧ 2 ≤ s.level ∧ s.isMemory base 64 = true ∧ s.memReady base = true ∧ head < tail ∧ tail - head ≤ queueSize c
       let moved (t : State) : Prop := t.homeN base 8 = (head + 1) % 2 ^ 64 ∧ ∀ y, ¬(base ≤ y ∧ y < base + 8) → t.homeByte y = s.homeByte y
       (s.links = [] → exec (.qdoorWrite q) s = .next s)
       ∧ (s.links ≠ [] → c.getLsbD 0 = true → s.isMemory base 64 = true → s.level < 2 ∨ s.memReady base = false →
         exec (.qdoorWrite q) s = .next { s with doorWaits := s.doorWaits ++ [q] })
       ∧ (s.links ≠ [] → c.getLsbD 0 = true → s.isMemory base 64 = true → 2 ≤ s.level → s.memReady base = true → Completes (.qdoorWrite q) s fun t =>
         t = { s with tails := t.tails } ∧ (∀ r, r ≠ q → r ≠ 32 + q → t.tails.getD 0 r = s.tails.getD 0 r)
         ∧ (tl ≤ head + queueSize c → t.tails.getD 0 q = tl ∧ t.tails.getD 0 (32 + q) = 0)
         ∧ (head + queueSize c < tl → t.tails.getD 0 q = tail ∧ t.tails.getD 0 (32 + q) = tl))
       ∧ (¬waits → exec (.launchTake q) s = .next s)
       ∧ (waits → (a % 256 ≠ 0 ∨ nodeOf a ≠ s.nodeId d) → Completes (.launchTake q) s fun t =>
         moved t ∧ t.launches = s.launches ∧ t.pourCount = s.pourCount ∧ ∃ e, (t.die d).log = (s.die d).log ++ [e])
       ∧ (waits → a % 256 = 0 → nodeOf a = s.nodeId d → s.isMemory (paOf a) 256 = true → s.homePois slot 8 = false → s.memReady (paOf a) = true →
         s.homePois (paOf a) 256 = false → s.children.find? (q * 2 ^ 64 + head) = none →
         let id := if s.pourCount + 1 < 2 ^ 32 then s.pourCount + 1 else 1
         let l := Launch.fresh (BitVec.ofNat 32 id) a (s.readRecord (paOf a)) q none
         l.constCnt = 0 → l.statusVa = 0 → l.doneVa = 0 → (∀ k, k < 4 → l.depVa k = 0) → Completes (.launchTake q) s fun t =>
           moved t ∧ t.pourCount = id ∧ ∃ m, t.launches.find? s.uid = some { l with refused := m, ended := m != 0 }
           ∧ m.testBit 16 = (l.badRecord || !astValid (u.astEntry d l.asid.toNat)) ∧ m.testBit 17 = l.badCode ∧ m.testBit 19 = l.badPool
           ∧ m.testBit 20 = l.badSave
           ∧ m.testBit 21 = (!l.badRecord && astValid (u.astEntry d l.asid.toNat) && !l.badCode && !l.badPool && !l.badSave && s.tooLarge l)
           ∧ (∀ k, k < 16 ∨ k = 18 ∨ 22 ≤ k → m.testBit k = false)))

/-- PRIORITY_AGING counts the whole ms that a launch has waited eligible. LAUNCH_START starts the eligible launch of the highest effective priority, of
the next queue in turn and of the earliest record, with that priority, and gives each die of its mask its range of casts; without an eligible launch
it changes nothing (R348, R349; no die drained). -/
def Obligations.LaunchStarted : Prop :=
  (∀ (s : State) (n : Nat) (l : Launch) (e : Nat), s.launches.find? n = some l → l.started = false → l.eligibleAt = some e →
    Completes (.priorityAging n) s fun t => t = { s with launches := t.launches }
      ∧ t.launches.find? n = some { l with aged := max l.aged ((s.clk - e) / 4000000) } ∧ ∀ m, m ≠ n → t.launches.find? m = s.launches.find? m)
  ∧ ∀ s : State, (∀ p ∈ s.launches, p.2.started = true ∨ p.2.refused ≠ 0 ∨ p.2.eligibleAt.isSome = true) →
    let can (l : Launch) : Prop := l.eligibleAt.isSome = true ∧ l.started = false ∧ l.refused = 0
    let aged (l : Launch) : Nat := max l.aged ((s.clk - l.eligibleAt.getD 0) / 4000000)
    let eff (l : Launch) : Nat := min 7 (l.prio0 + aged l)
    let turn (l : Launch) : Nat := (l.queue + 32 - (s.lastQueue + 1) % 32) % 32
    ((∀ p ∈ s.launches, ¬can p.2) → exec .launchStart s = .next s)
    ∧ ((s.launches.map (·.1)).Nodup → (∃ p ∈ s.launches, can p.2) → (∀ d, s.draining d = false) → Completes .launchStart s fun t =>
      ∃ n l, s.launches.find? n = some l ∧ can l
        ∧ (∀ m k, s.launches.find? m = some k → can k → eff k ≤ eff l ∧ (eff k = eff l → turn l ≤ turn k ∧ (turn k = turn l → n ≤ m)))
        ∧ (let given := l.dies.zipIdx.filterMap fun p =>
            let first := p.2 * l.casts / l.dies.length
            let last := (p.2 + 1) * l.casts / l.dies.length
            if first < last then some (p.1, first, last) else none
          let order := (s.launches.filter fun p => p.2.started).length
          t.launches.find? n = some { l with
            aged := aged l, started := true, prio := eff l, startedAt := s.clk, startOrder := order, ranges := given })
        ∧ t.lastQueue = l.queue ∧ (∀ m k, m ≠ n → s.launches.find? m = some k → ∃ j, t.launches.find? m = some { k with aged := j })
        ∧ t.mem = s.mem ∧ t.groups = s.groups)

/-- DIE_END_REPORT: a die with nothing of a launch left to run sets its status bits; once they are acknowledged it reports, and the last report ends the
launch, whose dispatcher sets ENDED. COMPLETION_ARRIVAL: once every status bit is acknowledged, each die contributes the arrival of its rank to the
completion line. Before their time the two change nothing (R343). -/
def Obligations.LaunchEnds : Prop :=
  ∀ (s : State) (d n : Nat) (l : Launch), s.launches.find? n = some l → l.dies.contains d = true →
    let status (t : State) (sdie v : Nat) : Prop := ∀ a, l.status = some a → ∃ p, t.packets.find? s.uid = some p ∧ p.op = 0x23 ∧ p.target = a
      ∧ p.data = bytesOf 8 v ∧ p.sdie = some sdie ∧ p.line = none ∧ p.launch.isSome = true
      ∧ (nodeOf a = s.nodeId sdie → (s.die sdie).mode.getLsbD 4 = false → p.copies = 1)
    let rest := l.dies.all fun k => k == d || l.reported.contains k
    (l.started = true → l.ended = false → l.reported.contains d = false →
      (s.workLeft n d = true ∨ (l.sent.contains d = true ∧ s.statusDone n (· == d) = false) → exec (.dieEndReport d n) s = .next s)
      ∧ (s.workLeft n d = false → l.sent.contains d = false → Completes (.dieEndReport d n) s fun t =>
        t.launches.find? n = some { l with sent := l.sent ++ [d], owed := l.owed.erase d } ∧ t.mem = s.mem ∧ t.groups = s.groups
        ∧ (l.owed.getD 0 d = 0 → t.packets = s.packets) ∧ (l.owed.getD 0 d ≠ 0 → status t d (l.owed.getD 0 d)))
      ∧ (s.workLeft n d = false → l.sent.contains d = true → s.statusDone n (· == d) = true → Completes (.dieEndReport d n) s fun t =>
        t.launches.find? n = some { l with reported := l.reported ++ [d], ended := rest } ∧ t.mem = s.mem ∧ t.groups = s.groups
        ∧ (rest = false → t.packets = s.packets) ∧ (rest = true → status t s.watchDie 4)))
    ∧ (l.ended = false ∨ l.arrived.contains d = true ∨ s.statusDone n (fun _ => true) = false → exec (.completionArrival d n) s = .next s)
    ∧ (l.ended = true → l.arrived.contains d = false → s.statusDone n (fun _ => true) = true → Completes (.completionArrival d n) s fun t =>
      t.launches.find? n = some { l with arrived := l.arrived ++ [d] } ∧ t.mem = s.mem ∧ t.groups = s.groups
      ∧ (l.line = none → t.packets = s.packets)
      ∧ ∀ a, l.line = some a → ∃ p, t.packets.find? s.uid = some p ∧ p.op = 0x25 ∧ p.target = a ∧ p.line = some a ∧ p.data = []
        ∧ (∀ k, p.sdie = some k → nodeOf a = s.nodeId k → (s.die k).mode.getLsbD 4 = false → p.copies = 1)
        ∧ p.idx = (l.doneBase + (l.dies.filter fun k => k < d).length) % 2 ^ 32 ∧ p.sig = 0)

/-- PLACEMENT_DECISION places the first pending work of a die that fits, on the lowest cluster that takes it, and passes over work that does not; a
drained die and one whose host places do not decide. A saved cast goes back to cores with its blocks. A co-resident pour at the head is placed whole,
on every die of its mask, or not at all. PLCORE_WRITE, which needs a PCIe link, places the head of pending work on cores of the mask, and ignores a
mask that names another number of cores, which is the model's reading (log 78), or none that take it (R200, R204, R350, R352, R359, R426, R440, R443). -/
def Obligations.PlacementResult : Prop :=
  (∀ (s : State) (d : Nat), s.draining d = true ∨ (s.die d).mode.getLsbD 2 = true → exec (.placementDecision d) s = .next s)
  ∧ (∀ (s : State) (d : Nat) (w : Work) (pre post : List Work), d < 24 → s.draining d = false → (s.die d).mode.getLsbD 2 = false →
    s.pending d = pre ++ w :: post → (∀ u ∈ pre, (s.launch u.launch).coRes = false ∧ (s.dieTakes u d fun _ => true) = none) →
    (s.launch w.launch).coRes = false →
    ((s.dieTakes w d fun _ => true) = none → post = [] → exec (.placementDecision d) s = .next s)
    ∧ ∀ cores, (s.dieTakes w d fun _ => true) = some cores →
      (w.saved = none → Completes (.placementDecision d) s fun t => s.CastPlaced t w d cores ∧ cores.length = (s.launch w.launch).castSize ∧ cores.Nodup
        ∧ ∃ k ∈ clustersOf d, (∀ c ∈ cores, c ∈ coresOf k ∧ s.coreRetired c = false ∧ (s.launch w.launch).parts.sum ≤ (s.freeGranules c).length)
          ∧ (s.launch w.launch).onCluster k = true ∧ ∀ j ∈ clustersOf d, j < k → s.clusterTakes w j (fun _ => true) = none)
      ∧ ∀ n v, w.saved = some n → s.saved.find? n = some v → (v.blocks.map (·.1)).Nodup →
        (v.slots.any fun j => s.slotWaits w.launch v.home j.2) = false → Completes (.placementDecision d) s fun t =>
        t.saved.find? n = none ∧ ∀ p ∈ v.blocks.zip cores, ∃ y, t.blocks.find? p.1.1 = some y ∧ y.core = p.2 ∧ y.rank = p.1.2.rank
          ∧ y.blkid = p.1.2.blkid ∧ y.groups = p.1.2.groups ∧ y.slot = none ∧ y.asked = false ∧ y.stopping = false)
  ∧ (∀ (s : State) (d : Nat) (w : Work) (ws : List Work), d < 24 → s.draining d = false → (s.die d).mode.getLsbD 2 = false →
    s.pending d = w :: ws → (s.launch w.launch).coRes = true →
    let n := w.launch
    let ds := (s.launch n).dies.filter fun e => !(s.workOf n e).isEmpty
    ((∃ e ∈ ds, s.draining e = true ∨ n ∈ (s.die e).held ∨ ∃ x xs, s.pending e = x :: xs ∧ x.launch ≠ n ∧ (s.launch x.launch).coRes = true) →
      exec (.placementDecision d) s = .next s)
    ∧ (∃ t, exec (.placementDecision d) s = .next t ∧ (t = s ∨ ∀ e ∈ (s.launch n).dies, t.workOf n e = []))
    ∧ ((∀ e ∈ ds, s.draining e = false ∧ n ∉ (s.die e).held ∧ ∀ x xs, s.pending e = x :: xs → x.launch = n ∨ (s.launch x.launch).coRes = false) →
      ds = [d] → s.workOf n d = [w] → w.saved = none →
      (s.dieTakes w d (s.mayPlace d) = none → exec (.placementDecision d) s = .next s)
      ∧ ∀ cores, s.dieTakes w d (s.mayPlace d) = some cores → Completes (.placementDecision d) s fun t => s.CastPlaced t w d cores))
  ∧ ∀ (s : State) (d : Nat) (v : Word),
    let u := s.setReg d 0x0C8 v
    let chosen := ((List.range 64).filter fun c => v.getLsbD c).length
    (24 ≤ d ∨ s.links = [] → exec (.plcoreWrite d v) s = .next s)
    ∧ (d < 24 → s.links ≠ [] → (s.die d).mode.getLsbD 2 = false ∨ s.draining d = true ∨ u.pending d = [] → exec (.plcoreWrite d v) s = .next u)
    ∧ ∀ w ws, d < 24 → s.links ≠ [] → (s.die d).mode.getLsbD 2 = true → s.draining d = false → u.pending d = w :: ws → (u.launch w.launch).coRes = false →
      (chosen ≠ (u.needs w).length ∨ u.dieTakes w d (fun c => v.getLsbD (c % 64)) = none → exec (.plcoreWrite d v) s = .next u)
      ∧ ∀ cores, w.saved = none → chosen = (u.needs w).length → u.dieTakes w d (fun c => v.getLsbD (c % 64)) = some cores →
        Completes (.plcoreWrite d v) s fun t => u.CastPlaced t w d cores ∧ ∀ c ∈ cores, v.getLsbD (c % 64) = true

/-- DRAIN_RESERVATION: each cast in turn that has waited 100 µs without a reservation reserves, of the clusters that it may use and that are not reserved,
the one with the most cores that have granules for one of its blocks, and the lowest of those; one that finds them all reserved waits for them, and a
reservation that ends passes to the first that waits. BLOCK_PREEMPT: a block with a reason is asked to stop with all the blocks of its cast, and is
stopped with them once they have save slots; a stopped cast whose work in flight is done leaves its cores with its context, of a SLEEP.MB with the
mailbox wakes that it had not seen; a request whose reason has gone is dropped (R292, R353, R356, R357, R360). -/
def Obligations.ReservationAndPreemption : Prop :=
  (∀ (s : State) (d : Nat),
    let since (w : Work) : Nat := match w.saved.bind s.saved.find? with
      | some v => v.at_
      | none => (s.launch w.launch).startedAt
    let holds (w : Work) : Bool := (clustersOf d).any fun k => (s.cluster k).reserved == some (w.launch, w.castId)
    let due := (s.pending d).filter fun w => decide (since w + 400000 ≤ s.clk) && !holds w && !((s.die d).claims.any fun c => c.1 == (w.launch, w.castId))
    let may (w : Work) (k : Nat) : Prop := k ∈ clustersOf d ∧ (s.launch w.launch).onCluster k = true
      ∧ (s.needs w).length ≤ ((coresOf k).filter fun c => !s.coreRetired c).length
    let usable (u : State) (w : Work) (k : Nat) : Prop := may w k ∧ (u.cluster k).reserved = none
    let count (w : Work) (k : Nat) : Nat :=
      ((coresOf k).filter fun c => !s.coreRetired c && decide ((s.launch w.launch).parts.sum ≤ (s.freeGranules c).length)).length
    let reserves (w : Work) (u t : State) : Prop := ((∀ k, ¬may w k) → t = u)
      ∧ ((∃ k, may w k) → (∀ k, ¬usable u w k) → ∃ ks : List Nat, (∀ k, k ∈ ks ↔ may w k)
        ∧ t = u.modDie d fun x => { x with claims := x.claims ++ [((w.launch, w.castId), ks)] })
      ∧ ((∃ k, usable u w k) → ∃ k, usable u w k ∧ (∀ j, usable u w j → count w j ≤ count w k ∧ (count w j = count w k → k ≤ j))
        ∧ t = u.modCluster k fun c => { c with reserved := some (w.launch, w.castId) })
    Completes (.drainReservation d) s fun t => State.Chain reserves due s t)
  ∧ (∀ (s : State) (d k : Nat) (a : (Nat × Nat) × List Nat) (pre post : List ((Nat × Nat) × List Nat)),
    let waits (c : (Nat × Nat) × List Nat) : Prop := k ∈ c.2 ∧ ∃ w ∈ s.pending d, (w.launch, w.castId) = c.1
    (s.die d).claims = pre ++ a :: post → a ∉ pre → (∀ c ∈ pre, ¬waits c) → waits a →
      ((s.release d k).cluster k).reserved = some a.1 ∧ ((s.release d k).die d).claims = pre ++ post
      ∧ ∀ j, j ≠ k → (s.release d k).cluster j = s.cluster j)
  ∧ ∀ (s : State) (b : Nat) (x : Block), s.blocks.find? b = some x → s.blockLive x = true →
    let cs := s.together x.cast
    let quiet := cs.all s.castQuiesced
    let d := dieOfCore x.core
    let u := if x.asked then s else s.ask fun n _ => n == b
    (x.stopping = true → quiet = false → exec (.blockPreempt b) s = .next s)
    ∧ (x.stopping = false → s.mustStop b x = false →
      exec (.blockPreempt b) s = .next (if x.asked then s.modBlock b fun y => { y with asked := false } else s))
    ∧ (x.stopping = false → s.mustStop b x = true → u.slotsFor cs = none → exec (.blockPreempt b) s = .next u)
    ∧ (x.asked = false → u.mem = s.mem ∧ u.groups = s.groups
      ∧ ∀ c ∈ cs, ∀ y ∈ s.liveBlocks c, ∃ z, u.blocks.find? y.1 = some z ∧ z.asked = true)
    ∧ (x.stopping = false → s.mustStop b x = true → (u.slotsFor cs).isSome = true → Completes (.blockPreempt b) s fun t =>
      t.mem = s.mem ∧ t.groups = s.groups
      ∧ (∀ c ∈ cs, ∀ y ∈ s.liveBlocks c, ∃ z, t.blocks.find? y.1 = some z ∧ z.stopping = true)
      ∧ (x.cast ∈ cs → (t.block b).slot.isSome = true ∧ (t.block b).core = x.core))
    ∧ (x.stopping = true → quiet = true → cs = [x.cast] → s.liveBlocks x.cast = [(b, x)] →
      ((s.releaseAt x.core .die).slotPages x.launch d (x.slot.getD 0) true).2.isSome = true → Completes (.blockPreempt b) s fun t =>
      t.blocks.find? b = none ∧ (∀ g ∈ x.groups, t.groups.find? g = none)
      ∧ ∃ v, t.saved.find? s.uid = some v ∧ v.cast = x.cast ∧ v.home = d ∧ v.blocks = [(b, x)] ∧ v.slots = [(b, x.slot.getD 0)]
        ∧ ∀ g ∈ x.groups, v.groups.find? g = (s.groups.find? g).map fun y => { y with splits := y.splits.map fun p => (p.1, match p.2.st with
          | .waiting (.sleep k m n) => { p.2 with st := .waiting (.sleep k m ((s.core y.cx.core).mbWakes - n)) }
          | _ => p.2) })

/-! ### The pool and the clock -/

/-- GROUP_UNPARK moves a group whose event has fired into free space, once what moves out of it has done so, and makes room with the parkable group whose
event fired longest ago. FORCED_PARK, after 4,096 clk of waiting with no parkable group, parks the group that issued least recently of those that meet
every other condition of R206. PARKS of the parked group rises by 1, and registers and memory are unchanged (R206, R207). The model's choices: a
parkable group for which no event has fired counts as the one whose event fired longest ago (log 114), and which waits park, and that forced parking
takes the group that issued least recently (log 75). -/
def Obligations.ParkingResult : Prop :=
  ∀ (s : State) (gid : Nat) (g : Group), s.groups.find? gid = some g →
    let rs := s.residents g.cx.blk
    let parked (t : State) (q : Nat) : Prop :=
      ∃ z, t.groups.find? q = some z ∧ z = { s.group q with
        resident := false, parks := (s.group q).parks + 1, firedAt := none, stuckAt := none, movedAt := s.clk + 64 * (s.group q).room.lehr }
    let back (u t : State) : Prop :=
      let at_ := u.movedOut g.cx.blk + 64 * g.room.lehr
      ∃ z, t.groups.find? gid = some z ∧ z = { g with resident := true, movedAt := at_, stuckAt := none, splits := z.splits }
      ∧ ∀ e p, g.splits.find? e = some p → z.splits.find? e = some { p with readyAt := max p.readyAt at_, candAt := at_, promoted := false }
    let only (t : State) (l : List Nat) : Prop := t = { s with groups := t.groups } ∧ ∀ h, h ∉ l → t.groups.find? h = s.groups.find? h
    (g.resident = true ∨ g.ended = true ∨ g.firedAt = none → exec (.groupUnpark gid) s = .next s)
    ∧ (g.resident = false → g.ended = false → g.firedAt.isSome = true →
      (s.roomFor g = true → Completes (.groupUnpark gid) s fun t => only t [gid] ∧ back s t)
      ∧ (s.roomFor g = false → (∀ p ∈ rs, s.parkable p.2 = false) → exec (.groupUnpark gid) s = .next s)
      ∧ (s.roomFor g = false → (∃ p ∈ rs, s.parkable p.2 = true) → (∀ p ∈ rs, p.1 ≠ gid) → Completes (.groupUnpark gid) s fun t =>
        ∃ q ∈ rs, s.parkable q.2 = true ∧ (∀ p ∈ rs, s.parkable p.2 = true → q.2.eventAt ≤ p.2.eventAt) ∧ only t [gid, q.1]
          ∧ parked t q.1 ∧ ((s.park q.1).roomFor g = true → back (s.park q.1) t) ∧ ((s.park q.1).roomFor g = false → t.groups.find? gid = some g)))
    ∧ (g.stuckAt = none → exec (.forcedPark gid) s = .next s)
    ∧ ∀ f, g.resident = false → g.ended = false → g.stuckAt = some f →
      (s.clk < f + 4096 ∨ s.roomFor g = true ∨ (∃ p ∈ rs, s.parkable p.2 = true) ∨ (∀ p ∈ rs, s.quietGroup p.2 = false) →
        exec (.forcedPark gid) s = .next s)
      ∧ (f + 4096 ≤ s.clk → s.roomFor g = false → (∀ p ∈ rs, s.parkable p.2 = false) → (∃ p ∈ rs, s.quietGroup p.2 = true) →
        Completes (.forcedPark gid) s fun t =>
          ∃ q ∈ rs, s.quietGroup q.2 = true ∧ (∀ p ∈ rs, s.quietGroup p.2 = true → q.2.lastIssue ≤ p.2.lastIssue) ∧ only t [q.1] ∧ parked t q.1)

/-- CORE_CLOCK_GATE gates a core that has been idle for 16 clk, and no other. CORE_WAKE wakes a gated core with its reasons: WAKES rises by 1 and no issue
follows for 32 clk; reasons that arrive before the first issue add up. A write to a core's DBELL, at offset 8 of its block, is DBELL_WRITE: it wakes
with the reason DOORBELL and changes nothing else, and reads of the register return zero. MAILBOX_CLR empties the mailbox. Both are writes of the
host, which need a PCIe link (R209, R210, R217, R426, R427; log 126). -/
def Obligations.ClockAndDoorbell : Prop :=
  ∀ (s : State) (c : Nat) (why : BitVec 8),
    let k := s.core c
    let only (t : State) (x : Core) : Prop := t = { s with cores := t.cores } ∧ t.core c = x ∧ ∀ e, e ≠ c → t.core e = s.core e
    let wakes (i : Instr) (y : BitVec 8) : Prop :=
      (k.gated = true → Completes i s fun t =>
        only t { k with gated := false, wakes := k.wakes + 1, why := y, woken := true, wakeAt := s.clk + 32, idleFrom := s.clk })
      ∧ (k.gated = false → k.woken = true → Completes i s fun t => only t { k with why := k.why ||| y })
      ∧ (k.gated = false → k.woken = false → exec i s = .next s)
    (k.gated = false → s.coreIdle c = true → k.idleFrom + 16 ≤ s.clk → Completes (.coreClockGate c) s fun t =>
      only t { k with gated := true, woken := false })
    ∧ (k.gated = true ∨ s.coreIdle c = false ∨ s.clk < k.idleFrom + 16 → exec (.coreClockGate c) s = .next s)
    ∧ wakes (.coreWake c why) why
    ∧ (24 ≤ dieOfCore c ∨ s.links = [] → exec (.dbellWrite c) s = .next s ∧ ∀ m, exec (.mailboxClr c m) s = .next s)
    ∧ (dieOfCore c < 24 → s.links ≠ [] → wakes (.dbellWrite c) 0x80)
    ∧ (dieOfCore c < 24 → s.links ≠ [] → ∀ m, Completes (.mailboxClr c m) s fun t => t = { s with cores := t.cores } ∧ (t.core c).box m = ⟨0, []⟩
      ∧ (∀ j, j ≠ m → (t.core c).box j = k.box j) ∧ t.core c = { k with mbox := (t.core c).mbox } ∧ ∀ e, e ≠ c → t.core e = s.core e)
    ∧ ∀ d j, j < 64 → s.mmioRead d (0x100008 + 0x1000 * j) = some 0
      ∧ ∀ v, d < 24 → s.links ≠ [] → exec (.registerWrite d (0x100008 + 0x1000 * j) v) s = exec (.dbellWrite (64 * d + j)) s

/-! ### Splits, waits and accesses -/

/-- TRAP_ENTRY: the split that trapped first enters the free handler once its fixed-latency results are written. SPLIT_MERGE: two splits at one
instruction with one loop stack become one with the lanes of both, in the entry of the one whose lowest lane is lower, unless a wait of one of them is
over, or both are READY at an RCV or RCVW that they first reach (R177; log 24). SPLIT_PROMOTION: a candidate that has waited 256 clk. Otherwise
nothing changes (R62, R191, R195, R198). -/
def Obligations.SplitEvents : Prop :=
  ∀ (s : State) (gid e f : Nat) (g : Group) (p q : Split), s.groups.find? gid = some g → g.splits.find? e = some p → g.splits.find? f = some q →
    (∀ x, g.handler = none → g.firstTrapped = some (e, x) → g.latePending s.clk p.owned = false → Completes (.trapEntry gid e) s fun t =>
      s.OnlyGroupOf t gid ∧ ∃ z, t.groups.find? gid = some z
      ∧ z.tcause = BitVec.ofNat 64 (x.cause.toNat + (if p.sc then 2 ^ 8 else 0) + 2 ^ 15 + x.rpl.toNat <<< 16)
      ∧ z.toff = BitVec.ofNat 64 (x.toff % 2 ^ 26) ∧ z.taddr = x.taddr ∧ z.tmask = BitVec.ofNat 64 (p.exec.toNat <<< 32 + x.blame.toNat)
      ∧ z.svpl0 = g.planeWord 0 ∧ z.svpl1 = g.planeWord 16 ∧ z.handler = some e ∧ z.aside = p.loops
      ∧ (∀ k, k < 32 → z.plane k = if p.owned.getLsbD k then 0 else g.plane k) ∧ z.v = g.v ∧ z.u = g.u ∧ z.m = g.m
      ∧ ∃ y, z.splits.find? e = some y ∧ y.st = .ready ∧ y.off = g.cx.trapOff ∧ y.owned = p.owned ∧ y.exec = p.owned ∧ y.hlp = 0 ∧ y.sc = false
        ∧ y.loops = [])
    ∧ (g.handler.isSome = true ∨ (∀ x, g.firstTrapped ≠ some (e, x)) ∨ g.latePending s.clk p.owned = true → exec (.trapEntry gid e) s = .next s)
    ∧ (g.sameSpot e f = true → p.st = .ready → q.st = .ready → p.atStart = true → q.atStart = true → s.atReceive g p = false → g.defCount = 0 → Completes (.splitMerge gid e f) s fun t =>
      let keep := if lowest p.owned ≤ lowest q.owned then e else f
      let drop := if lowest p.owned ≤ lowest q.owned then f else e
      s.OnlyGroupOf t gid ∧ ∃ z, t.groups.find? gid = some z ∧ z = { g with splits := z.splits } ∧ z.splits.find? drop = none
      ∧ (∀ k, k ≠ e → k ≠ f → z.splits.find? k = g.splits.find? k)
      ∧ ∃ m, z.splits.find? keep = some m ∧ m.owned = p.owned ||| q.owned ∧ m.exec = p.exec ||| q.exec ∧ m.origin = p.origin ||| q.origin
        ∧ m.hlp = p.hlp ||| q.hlp ∧ m.rcvf = (p.rcvf || q.rcvf) ∧ m.sc = (if keep = e then p.sc else q.sc) ∧ m.off = p.off ∧ m.loops = p.loops
        ∧ m.st = .ready)
    ∧ (g.sameSpot e f = false ∨ (p.st = .ready ∧ q.st = .ready ∧ ((p.atStart && q.atStart) = false ∨ s.atReceive g p = true)) → exec (.splitMerge gid e f) s = .next s)
    ∧ (p.st = .ready → g.resident = true → p.candAt + 256 ≤ s.clk → Completes (.splitPromotion gid e) s fun t =>
      s.OnlyGroupOf t gid ∧ ∃ z, t.groups.find? gid = some z ∧ z = { g with splits := z.splits }
      ∧ z.splits.find? e = some { p with promoted := true } ∧ ∀ k, k ≠ e → z.splits.find? k = g.splits.find? k)
    ∧ (p.st ≠ .ready ∨ g.resident = false ∨ s.clk < p.candAt + 256 → exec (.splitPromotion gid e) s = .next s)

/-- RCVW_TIMEOUT, SLEEP_EXPIRY and WAITA_TIMEOUT end the wait whose time has come, and no other; an RCVW that expires lets a split that has reached it in
the same clk, or waits there, merge first, and one whose lanes have all come ends for that reason. FIXED_LATENCY_RESULT: a result whose clk has come
is no longer pending (R177, R178, R185, R242, R412). -/
def Obligations.TimedWaits : Prop :=
  ∀ (s : State) (gid e : Nat) (g : Group) (p : Split), s.groups.find? gid = some g →
    (∀ k l, g.late[k]? = some l →
      (l.land ≤ s.clk → Completes (.fixedLatencyResult gid k) s fun t => s.OnlyGroupOf t gid
        ∧ t.groups.find? gid = some { g with late := g.late.eraseIdx k })
      ∧ (s.clk < l.land → exec (.fixedLatencyResult gid k) s = .next s))
    ∧ (g.splits.find? e = some p → p.readyAt ≤ s.clk → ∀ (w : Wait) (i : Instr) (end_ : Nat), p.st = .waiting w →
      ((∃ m, w = .rcv (some end_) m ∧ i = .rcvwTimeout gid e) ∨ (∃ b n, w = .sleep end_ b n ∧ i = .sleepExpiry gid e)
        ∨ ∃ a r, w = .line a r (some end_) ∧ i = .waitaTimeout gid e) →
      (s.clk < end_ ∨ s.mergesFirst gid e w = true → exec i s = .next s)
      ∧ (end_ ≤ s.clk → s.mergesFirst gid e w = false → Completes i s fun t => s.WaitEnded t gid e
        (match w with | .rcv x m => .rcv (if s.reconverged gid p m then none else x) m | _ => w)))

/-- LOAD_COMPLETION of an access whose parts have all been performed writes each destination with its value, takes one from LCNT and ends the access; LDF
also writes its mask. CAST_WINDOW_MESSAGE serves a part at the bank of the other block once no earlier message of its core to that core is on its way
and the owning core has no access of its own to serve there or still to issue in that clk, and CAST_WINDOW_REPLY brings its value back, once no
earlier message from that core, be it a request or a reply, is on its way; the reply to a look at a phase answers the split that waits for it where
the phase has changed, and is sent again where it has not. Otherwise nothing changes (R228, R230, R239, R294, R295). -/
def Obligations.AccessEvents : Prop :=
  ∀ (s : State) (gid n : Nat) (g : Group) (a : Acc), s.groups.find? gid = some g → g.accs.find? n = some a →
    let done := ∀ p ∈ a.pieces, ∃ v x, p.st = .ready v x
    (¬done ∨ a.dst = .none ∨ a.dst = .phase ∨ a.dst = .crucible → exec (.loadCompletion gid n) s = .next s)
    ∧ (done → a.dst = .vec → (∀ p ∈ a.pieces, p.dst < 128 ∧ g.wasClobbered n .vec p.dst p.lane = false) →
      (a.pieces.map fun p => (p.dst, p.lane)).Nodup → Completes (.loadCompletion gid n) s fun t => s.LoadDone t gid n
        ∧ (∀ p ∈ a.pieces, ∀ v x, p.st = .ready v x → (t.group gid).vreg p.dst p.lane = if a.ldf.isSome && x then 0 else v)
        ∧ (∀ r k, r < 128 → (∀ p ∈ a.pieces, (p.dst, p.lane) ≠ (r, k)) → (t.group gid).vreg r k = g.vreg r k)
        ∧ (a.ldf = none → (t.group gid).u = g.u)
        ∧ ∀ r exec m failed, a.ldf = some (r, exec, m, failed) → g.wasClobbered n .uni r 0 = false → ∀ k, (t.group gid).ureg k =
            if k = r then ((maskLow (g.ureg r) &&& exec &&& ~~~m) ||| (m &&& ldfMask failed a.pieces)).setWidth 64 else g.ureg k)
    ∧ (∀ p v x, a.dst = .uni → a.ldf = none → a.pieces = [p] → p.st = .ready v x → g.wasClobbered n .uni p.dst 0 = false →
      Completes (.loadCompletion gid n) s fun t => s.LoadDone t gid n ∧ (t.group gid).v = g.v
        ∧ ∀ k, (t.group gid).ureg k = if k = p.dst then v else g.ureg k)
    ∧ (∀ p v x, a.dst = .tile → a.ldf = none → a.pieces = [p] → p.st = .ready v x → p.data = 0 →
      g.wasClobbered n .tile (p.dst / 1024) p.lane = false → Completes (.loadCompletion gid n) s fun t => s.LoadDone t gid n
        ∧ (t.group gid).v = g.v ∧ (t.group gid).u = g.u
        ∧ ∀ k, (t.group gid).m.getD 0 k = if k = p.dst then v.setWidth 32 else if k = p.dst + 1 then (v >>> 32).setWidth 32 else g.m.getD 0 k)
    ∧ ∀ j p, a.pieces[j]? = some p →
      let served := remotePiece g a p = true ∧ s.behind gid n j = false ∧ s.ownFirst p = false ∧ s.issuesLeft (s.block p.blk).core = false
        ∧ ¬(a.dst = .phase ∧ (s.block g.cx.blk).stopping = true)
      (¬served → exec (.castWindowMessage gid n j) s = .next s)
      ∧ (served → s.pieceReady g n j = true → a.order = .none → a.dst ≠ .none → a.kind = .load →
        let v := extLoad a.size a.zext ((s.block p.blk).readN p.addr a.size)
        let x := (s.block p.blk).poisoned p.addr a.size
        Completes (.castWindowMessage gid n j) s fun t => MemoryKept s t
          ∧ (t.group gid).accs.find? n = some { a with pieces := a.pieces.modify j fun q => { q with st := .served v x s.uid } })
      ∧ (served → s.pieceReady g n j = true → a.order = .none → a.kind = .store →
        (s.blocks.find? p.blk).isSome = true → Completes (.castWindowMessage gid n j) s fun t =>
          (∀ b x, (t.block b).byte x = if b = p.blk ∧ p.addr ≤ x ∧ x < p.addr + a.size then byteAt (p.data.toNat % 2 ^ (8 * a.size)) (x - p.addr)
            else (s.block b).byte x)
          ∧ (∀ y, t.homeByte y = s.homeByte y) ∧ ∀ c l, t.line c l = s.line c l)
      ∧ ∀ v x k, p.st = .served v x k →
        (s.replyBehind g p.blk k = true → exec (.castWindowReply gid n j) s = .next s)
        ∧ (s.replyBehind g p.blk k = false → a.dst ≠ .phase → Completes (.castWindowReply gid n j) s fun t => s.OnlyGroupOf t gid
          ∧ t.groups.find? gid = some { g with accs := (t.group gid).accs }
          ∧ (t.group gid).accs.find? n = some { a with pieces := a.pieces.modify j fun q => { q with st := .ready v x } })
        ∧ (s.replyBehind g p.blk k = false → a.dst = .phase → (g.splits.map (·.1)).Nodup →
          let looks (q : Split) (old : Bool) : Prop := ∃ b ad, q.st = .waiting (.phase b ad old (some n))
          ∀ e q old, g.splits.find? e = some q → looks q old → (∀ f r o, g.splits.find? f = some r → looks r o → f = e) →
            Completes (.castWindowReply gid n j) s fun t => s.OnlyGroupOf t gid
              ∧ (v.getLsbD 32 = old → t.groups.find? gid = some { g with accs := (t.group gid).accs }
                ∧ (t.group gid).accs.find? n = some { a with pieces := a.pieces.map fun y => { y with st := .sent, msg := none } })
              ∧ (v.getLsbD 32 ≠ old → (t.group gid).accs.find? n = none
                ∧ (t.group gid).splits.find? e = some { q with answer := some (true, v, 0) }))

/-! ### Translation, caches and publication -/

/-- PAGE_WALK installs, on the core and its cluster, the leaf that the tables give in place of what they hold and sets its bit A; the leaf of a HOST page
is not kept (log 104), and a walk that fails installs nothing. STALE_ACCESS_RETRY does so for an entry of another generation, and only for one (R323
to R325). FAULT_QUEUE_APPEND lets a split that found the ring full ask again once there is room (R332); the ring is full when its next tail would
equal its head (log 51). FLTDONE_WRITE answers a pending entry of a die of the package: resolved, every split that waits on it retries; otherwise the
split enters its handler with the cause of R334 (R330, R334); after the migration of a HOST page the cores that waited drop their clean copies (R328,
R430). -/
def Obligations.TranslationEvents : Prop :=
  (∀ (s : State) (core asid va : Nat), va < 2 ^ 56 → (s.reg (dieOfCore core) 0x000).getLsbD 0 = true →
    let a := BitVec.ofNat 16 asid
    let d := dieOfCore core
    let ast := s.astEntry d a.toNat
    let walked (u t : State) (la e sh : Nat) : Prop := t.tlbFind core a va = some (Tlb.ofLeaf a (astGen ast) va la e sh)
      ∧ (∀ y, t.homeByte y = if y = la + 1 ∧ e.testBit 8 = false ∧ la ≠ noLeaf then byteAt e 1 ||| 1 else u.homeByte y) ∧ t.groups = u.groups
    let ready := s.memReady (wbits (s.reg d 0x000) 43 20 * 2 ^ 20 + 16 * a.toNat) = true
    let fails := ¬ready ∨ astValid ast = false ∨ s.hostWalk d = true ∨ ∀ la e sh, s.walk d ast va ≠ .leaf la e sh
    (∀ la e sh, ready → astValid ast = true → s.hostWalk d = false → s.walk d ast va = .leaf la e sh →
      ((Tlb.ofLeaf a (astGen ast) va la e sh).kind ≠ kHost → Completes (.pageWalk core asid va) s fun t => walked s t la e sh)
      ∧ ((Tlb.ofLeaf a (astGen ast) va la e sh).kind = kHost → exec (.pageWalk core asid va) s = .next (s.tlbDrop core a va)))
    ∧ (fails → exec (.pageWalk core asid va) s = .next (s.tlbDrop core a va))
    ∧ (s.tlbDrop core a va).tlbFind core a va = none ∧ MemoryKept s (s.tlbDrop core a va)
    ∧ (s.tlbFind core a va = none → exec (.staleAccessRetry core asid va) s = .next s)
    ∧ ∀ x, s.tlbFind core a va = some x →
      (x.kind = kFabric ∨ x.gen = s.sliceGen (dieOfPa (x.frame % 2 ^ 44)) a → exec (.staleAccessRetry core asid va) s = .next s)
      ∧ (x.kind ≠ kFabric → x.gen ≠ s.sliceGen (dieOfPa (x.frame % 2 ^ 44)) a →
        exec (.staleAccessRetry core asid va) s = exec (.pageWalk core asid va) s))
  ∧ (∀ (s : State) (d gid e : Nat) (g : Group) (p : Split) (r : Mask) (st : Nat) (fetch : Bool) (held : Option Trap) (va : Word), e < 4 →
    s.groups.find? gid = some g → g.splits.find? e = some p → p.st = .faulted r [] st fetch held va → dieOfCore g.cx.core = d →
    let ptr := s.reg d 0x020
    let full := (wbits ptr 31 0 + 1) % s.fqSize d = wbits ptr 63 32 % s.fqSize d
    (full → exec (.faultQueueAppend d (4 * gid + e)) s = .next s)
    ∧ (¬full → Completes (.faultQueueAppend d (4 * gid + e)) s fun t => ∃ y, (t.group gid).splits.find? e = some y ∧ y.st = .ready
      ∧ y.off = p.off ∧ y.exec = p.exec ∧ y.owned = p.owned ∧ (fetch = false → y.retry = some r ∧ y.held = held) ∧ MemoryKept s t))
  ∧ ∀ (s : State) (d : Nat) (v : Word),
    let k := wbits v 31 0
    let verdict := wbits v 33 32
    (24 ≤ d ∨ (s.die d).faults.find? k = none ∨ verdict = 3 → exec (.fltdoneWrite d v) s = .next s)
    ∧ ∀ f, d < 24 → (s.die d).faults.find? k = some f →
      (verdict = 0 → f.reason ≠ 3 → Completes (.fltdoneWrite d v) s fun t => (t.die d).faults.find? k = none ∧ t.mem = s.mem
        ∧ ∀ gid g e p r es st fetch held va, s.groups.find? gid = some g → g.splits.find? e = some p → p.st = .faulted r es st fetch held va →
          es.contains k = true → dieOfCore g.cx.core = d → ∃ y, (t.group gid).splits.find? e = some y ∧ y.st = .ready ∧ y.off = p.off
            ∧ y.exec = p.exec ∧ (fetch = false → y.retry = some r ∧ y.held = held)
            ∧ (f.reason = 2 → ∀ n b, ((t.line (.l1 g.cx.core) n).valid.getLsbD b = true → (t.line (.l1 g.cx.core) n).dirty.getLsbD b = true)
              ∧ ((t.line (.cc (clusterOfCore g.cx.core)) n).valid.getLsbD b = true → (t.line (.cc (clusterOfCore g.cx.core)) n).dirty.getLsbD b = true)))
      ∧ (verdict = 1 ∨ verdict = 2 → ∀ gid g e p r es st va, s.groups.find? gid = some g → g.splits.find? e = some p →
        p.st = .faulted r es st false none va → p.woke = none → s.waiters d k = [(gid, e)] → g.handler = none → g.firstTrapped = none →
        g.latePending s.clk p.owned = false → Completes (.fltdoneWrite d v) s fun t => (t.die d).faults.find? k = none
          ∧ ∃ z, t.groups.find? gid = some z ∧ z.handler = some e ∧ z.taddr = va ∧ z.toff = BitVec.ofNat 64 (p.off % 2 ^ 26)
          ∧ z.tcause = BitVec.ofNat 64 ((if verdict = 1 then 0x10 else 0x17) + (if p.sc then 2 ^ 8 else 0) + 2 ^ 15)
          ∧ z.tmask = BitVec.ofNat 64 (p.exec.toNat <<< 32 + r.toNat) ∧ (z.split e).off = g.cx.trapOff ∧ (z.split e).st = .ready)

/-- The traffic of a cache: a fetch takes the bytes that are not dirty from the level above and keeps the dirty ones; a drop forgets clean bytes alone; a
write-back of a dirty byte moves it up and leaves it clean, alone where it was written alone, and else with the dirty bytes that the same store wrote
in its word (R315). No fetch or drop changes memory, and a write-back changes no byte but the dirty ones that it moves. An instruction cache takes its
line from home. A retired set of a cluster cache allocates nothing, and the LLC serves its lines (R97, R301, R309). -/
def Obligations.CacheTraffic : Prop :=
  ∀ (s : State) (c k n w : Nat), w < 64 →
    let lc := s.line (.cc k) n
    let ll := s.line (.l1 c) n
    let cl := clusterOfCore c
    let up := s.line (.cc cl) n
    let ready := s.isMemory (64 * n) 64 = true ∧ s.memReady (64 * n) = true
    (¬ready → exec (.cacheLineFetch (.cc k) n) s = .next s ∧ exec (.cacheLineFetch (.l1 c) n) s = .next s
      ∧ exec (.cacheLineFetch (.ic c) n) s = .next s)
    ∧ (ready → s.noSet k n = true → exec (.cacheLineFetch (.cc k) n) s = .next s)
    ∧ (ready → s.noSet k n = false → (∃ b, b < 64 ∧ lc.dirty.getLsbD b = false) → Completes (.cacheLineFetch (.cc k) n) s fun t => t.mem = s.mem
      ∧ (t.line (.cc k) n).dirty = lc.dirty ∧ ∀ b, b < 64 → (lc.dirty.getLsbD b = true ∧ (t.line (.cc k) n).byte b = lc.byte b)
        ∨ (lc.dirty.getLsbD b = false ∧ (t.line (.cc k) n).valid.getLsbD b = true ∧ (t.line (.cc k) n).byte b = s.homeByte (64 * n + b)))
    ∧ (ready → Completes (.cacheLineFetch (.ic c) n) s fun t => t.mem = s.mem ∧ (∀ y m, (y, m) ≠ (.ic c, n) → t.line y m = s.line y m)
      ∧ ∀ b, b < 64 → (t.line (.ic c) n).valid.getLsbD b = true ∧ (t.line (.ic c) n).byte b = s.homeByte (64 * n + b))
    ∧ (ready → s.noSet cl n = false → (∃ b, b < 64 ∧ ll.dirty.getLsbD b = false) → up.holds 0 64 = true → Completes (.cacheLineFetch (.l1 c) n) s fun t => t.mem = s.mem
      ∧ t.clusters = s.clusters
      ∧ (t.line (.l1 c) n).dirty = ll.dirty ∧ ∀ b, b < 64 → (ll.dirty.getLsbD b = true ∧ (t.line (.l1 c) n).byte b = ll.byte b)
        ∨ (ll.dirty.getLsbD b = false ∧ (t.line (.l1 c) n).valid.getLsbD b = true ∧ (t.line (.l1 c) n).byte b = up.byte b))
    ∧ (∀ x : CacheId, Completes (.cacheLineDrop x n) s fun t => t.mem = s.mem
      ∧ (∀ b, b < 64 → (t.line x n).valid.getLsbD b = ((s.line x n).valid.getLsbD b && (s.line x n).dirty.getLsbD b)
        ∧ ((t.line x n).valid.getLsbD b = true → (t.line x n).byte b = (s.line x n).byte b ∧ (t.line x n).dirty.getLsbD b = true))
      ∧ ∀ y m, (y, m) ≠ (x, n) → t.line y m = s.line y m)
    ∧ (∀ l : Line, ((∀ j, j / 8 = w / 8 → l.sizes.getD 1 j = 1) → ∀ b, b < 64 → (l.unit w).getLsbD b = (b == w && l.dirty.getLsbD b))
      ∧ ((∀ j, j / 8 = w / 8 → l.sizes.getD 1 j = 8) → ∀ b, b < 64 → (l.unit w).getLsbD b = (b / 8 == w / 8 && l.dirty.getLsbD b)))
    ∧ (let cleaned (l m : Line) : Prop := ∀ b, b < 64 → ((l.unit w).getLsbD b = true → m.dirty.getLsbD b = false)
        ∧ ((l.unit w).getLsbD b = false → l.valid ≠ 0 → m.dirty.getLsbD b = l.dirty.getLsbD b)
      let home (l : Line) (t : State) : Prop := ∀ y, t.homeByte y =
        if 64 * n ≤ y ∧ y < 64 * n + 64 ∧ (l.unit w).getLsbD (y - 64 * n) = true then l.byte (y - 64 * n) else s.homeByte y
      (Completes (.cacheWriteBack (.cc k) (64 * n + w)) s fun t => cleaned lc (t.line (.cc k) n) ∧ home lc t)
      ∧ Completes (.cacheWriteBack (.l1 c) (64 * n + w)) s fun t => cleaned ll (t.line (.l1 c) n)
        ∧ (s.noSet cl n = true → home ll t)
        ∧ (s.noSet cl n = false → t.mem = s.mem ∧ ∀ b, b < 64 → (ll.unit w).getLsbD b = true →
          (t.line (.cc cl) n).dirty.getLsbD b = true ∧ (t.line (.cc cl) n).byte b = ll.byte b))

/-- GENSET_WRITE publishes a generation at every slice and in the AST entry, at once or, of memory that is not served yet, when it is; GENSET_COMPLETE,
once the entry is served and every earlier access of the address space has been performed, drops every translation of another generation, and the
instruction caches' copies, and ends BUSY. HFLUSH_WRITE and HFLUSH_COMPLETE leave no dirty byte in any L1 or cluster cache, and no copy in those of
the cores that run a group of the address space. When the generation lands, what ends BUSY and which copies go is log 86. A write while BUSY is
ignored, and one to no die of the package, or with no link up, has no effect (log 126). HSLOT_UNBIND unbinds a slot under its next version (R326,
R362, R431, R438). -/
def Obligations.PublicationAndFlush : Prop :=
  ∀ (s : State) (d : Nat) (v : Word),
    let asid := wbits v 15 0
    let a := BitVec.ofNat 16 asid
    let gen := BitVec.ofNat 16 (wbits v 31 16)
    let entry := wbits (s.reg d 0x000) 43 20 * 2 ^ 20 + 16 * asid + 8
    let host := d < 24 ∧ s.links ≠ []
    let clean (t : State) (x : BitVec 16) : Prop := (∀ c n, (t.line (.l1 c) n).dirty = 0) ∧ (∀ k n, (t.line (.cc k) n).dirty = 0)
      ∧ ∀ g ∈ s.groups, g.2.cx.asid = x → g.2.ended = false →
        ∀ n, (t.line (.l1 g.2.cx.core) n).valid = 0 ∧ (t.line (.cc (clusterOfCore g.2.cx.core)) n).valid = 0
    (¬host → exec (.gensetWrite d v) s = .next s ∧ exec (.hflushWrite d v) s = .next s ∧ ∀ n, exec (.hslotUnbind d n) s = .next s)
    ∧ ((s.die d).genset.isSome = true → exec (.gensetWrite d v) s = .next s)
    ∧ (host → (s.die d).genset = none → Completes (.gensetWrite d v) s fun t => (∀ k, k < 24 → t.sliceGen k a = gen)
      ∧ (∀ k b, b ≠ a → t.sliceGen k b = s.sliceGen k b) ∧ (t.die d).genset = some (a, gen, s.uid)
      ∧ (s.isMemory entry 8 = true → s.memReady entry = true → t.homeN entry 2 = gen.toNat ∧ t.hostWaits = s.hostWaits)
      ∧ (s.isMemory entry 8 = true → s.memReady entry = false → t.mem = s.mem ∧ t.hostWaits = s.hostWaits ++ [⟨0, entry, bytesOf 2 gen.toNat⟩])
      ∧ ∀ y, ¬(entry ≤ y ∧ y < entry + 2) → t.homeByte y = s.homeByte y)
    ∧ ((s.die d).genset = none → exec (.gensetComplete d) s = .next s)
    ∧ (∀ x y st, (s.die d).genset = some (x, y, st) →
      let busy := s.memReady (wbits (s.reg d 0x000) 43 20 * 2 ^ 20 + 16 * x.toNat) = false
        ∨ ∃ g ∈ s.groups, g.2.cx.asid = x ∧ ∃ k ∈ g.2.accs, k.1 < st ∧ k.2.pending = true
      (busy → exec (.gensetComplete d) s = .next s)
      ∧ (¬busy → Completes (.gensetComplete d) s fun t => (t.die d).genset = none ∧ t.mem = s.mem ∧ t.groups = s.groups
        ∧ (∀ c, (t.core c).tlb = ((s.core c).tlb.filter fun e => e.asid != x || e.gen == y) ∧ (t.core c).ic = [])
        ∧ ∀ k, (t.cluster k).tlb = (s.cluster k).tlb.filter fun e => e.asid != x || e.gen == y))
    ∧ ((s.die d).hflush.isSome = true → exec (.hflushWrite d v) s = .next s)
    ∧ (host → (s.die d).hflush = none → Completes (.hflushWrite d v) s fun t => (t.die d).hflush = some a ∧ clean t a ∧ t.groups = s.groups)
    ∧ ((s.die d).hflush = none → exec (.hflushComplete d) s = .next s)
    ∧ (∀ x, (s.die d).hflush = some x → Completes (.hflushComplete d) s fun t => (t.die d).hflush = none ∧ clean t x ∧ t.groups = s.groups)
    ∧ ∀ n, (8 ≤ n → exec (.hslotUnbind d n) s = .next s)
      ∧ (host → n < 8 → Completes (.hslotUnbind d n) s fun t => t.mem = s.mem ∧ (∀ e, e ≠ d → t.die e = s.die e)
        ∧ (t.tslot d n).bound = false ∧ (t.tslot d n).asid = 0 ∧ (t.tslot d n).version = (s.tslot d n).version + 1
        ∧ ∀ m, m ≠ n → t.tslot d m = s.tslot d m)

/-! ### Registers of a die -/

/-- PREEMPT: GO names every live block of the launch on the die (on every die for a co-resident pour), which are asked to stop, and releases the launch's
drain reservations there, each to nobody or to a cast of another launch that waits to reserve that cluster; HOLD also holds the launch off the die,
RELEASE ends that; a GO while one is in progress is ignored (R292, R355, R356). DIE_DRAIN sets DRAIN, passes each unplaced range and each saved cast
of a launch that is not co-resident to the next die of the launch's DIEMASK that is not drained (log 128), in ascending order and wrapping, and asks
the die's blocks to stop; DIE_UNDRAIN clears it (R440). FIRMWARE_SWITCH of a drained die takes the staged image or logs that its check failed (R441;
log 19). LINK_WITHDRAW sets LINKWD. SPLIT_MODE_WRITE changes the bits of MODE whose functions are idle and leaves the others to MODE_CHANGE_EFFECT,
which changes a bit whose function is idle; MODE reads as written while a bit waits (R443; log 88). ERRVERD_WRITE is logged in host-assisted
classification and ends the suspicion of one of the die's suspect units, with its low bits as the verdict (R443; log 20). None has an effect on no die
of the package, or while no link is up (log 126). -/
def Obligations.ControllerRequests : Prop :=
  ∀ (s : State) (d : Nat) (pour : BitVec 32) (v : Word),
    let x := s.die d
    let named (t : State) (n : Nat) : Prop := ∀ b, b ∈ (t.die d).preempting ↔ ∃ y, (b, y) ∈ s.blocks ∧ y.launch = n ∧ s.blockLive y = true
      ∧ ((s.launch n).coRes = true ∨ dieOfCore y.core = d)
    let quiet (t : State) : Prop := t = { s with dies := t.dies } ∧ (t.die d).reg 0x030 = pour.setWidth 64 ∧ ∀ e, e ≠ d → t.die e = s.die e
    let asked (t : State) (n : Nat) : Prop := t = { s with dies := t.dies, clusters := t.clusters, blocks := t.blocks, cores := t.cores }
      ∧ (t.die d).reg 0x030 = pour.setWidth 64 ∧ (∀ e, e ≠ d → t.die e = s.die e) ∧ s.Asked t (fun b _ => b ∈ (t.die d).preempting)
      ∧ (∀ k, if k ∈ clustersOf d ∧ (s.cluster k).reserved.any (·.1 == n) = true then
          (t.cluster k = { s.cluster k with reserved := none }
            ∨ ∃ c ∈ x.claims, c.1.1 ≠ n ∧ k ∈ c.2 ∧ t.cluster k = { s.cluster k with reserved := some c.1 })
        else t.cluster k = s.cluster k)
      ∧ ∀ c ∈ (t.die d).claims, c ∈ x.claims ∧ c.1.1 ≠ n
    let host := d < 24 ∧ s.links ≠ []
    let heir (l : Launch) (e : Nat) : Prop :=
      ((l.dies.filter fun k => decide (d < k)) ++ l.dies.filter fun k => decide (k < d)).find? (fun k => !s.draining k) = some e
    (¬host → ∀ i ∈ ([.preemptGo d pour, .preemptHold d pour, .preemptRelease d pour, .dieDrain d, .dieUndrain d, .firmwareSwitch d, .splitModeWrite d v,
      .errverdWrite d v] : List Instr), exec i s = .next s)
    ∧ (¬host → ∀ w, exec (.linkWithdraw d w) s = .next s)
    ∧ (∀ n, n < 7 → (x.pend.getLsbD n = false ∨ s.functionIdle d n = false → exec (.modeChangeEffect d n) s = .next s)
      ∧ (x.pend.getLsbD n = true → s.functionIdle d n = true → Completes (.modeChangeEffect d n) s fun t => t = { s with dies := t.dies }
        ∧ t.die d = { x with mode := (t.die d).mode, pend := (t.die d).pend } ∧ ∀ k, k < 7 →
          (t.die d).mode.getLsbD k = (if k = n then !x.mode.getLsbD k else x.mode.getLsbD k)
          ∧ (t.die d).pend.getLsbD k = (if k = n then false else x.pend.getLsbD k)))
    ∧ (host → (s.preemptBusy d = true → exec (.preemptGo d pour) s = .next s ∧ exec (.preemptHold d pour) s = .next s)
    ∧ (∀ n l, s.launchOf pour.toNat = some (n, l) →
      (s.preemptBusy d = false → (Completes (.preemptGo d pour) s fun t => asked t n ∧ named t n ∧ (t.die d).held = x.held)
        ∧ Completes (.preemptHold d pour) s fun t => asked t n ∧ named t n ∧ ∀ m, m ∈ (t.die d).held ↔ m = n ∨ m ∈ x.held)
      ∧ Completes (.preemptRelease d pour) s fun t => quiet t ∧ (t.die d).preempting = x.preempting ∧ ∀ m, m ∈ (t.die d).held ↔ m ≠ n ∧ m ∈ x.held)
    ∧ (s.launchOf pour.toNat = none → (s.preemptBusy d = false → Completes (.preemptGo d pour) s quiet ∧ Completes (.preemptHold d pour) s quiet)
      ∧ Completes (.preemptRelease d pour) s quiet)
    ∧ (s.draining d = true → exec (.dieDrain d) s = .next s)
    ∧ (s.draining d = false → Completes (.dieDrain d) s fun t => t.draining d = true ∧ t.mem = s.mem ∧ t.groups = s.groups
      ∧ s.Asked t (fun _ y => dieOfCore y.core = d)
      ∧ (∀ n l, s.launches.find? n = some l →
        (l.coRes = true ∨ (∀ e, ¬heir l e) → (t.launch n).ranges = l.ranges)
        ∧ ∀ e, l.coRes = false → heir l e → (t.launch n).ranges = l.ranges.map fun r => (if r.1 = d then e else r.1, r.2))
      ∧ ∀ k w, s.saved.find? k = some w → (∀ y, (k, y) ∈ s.saved → y = w) →
        let l := s.launch (s.castOf w.cast).launch
        (w.die ≠ d ∨ l.coRes = true ∨ (∀ e, ¬heir l e) → t.saved.find? k = some w)
        ∧ ∀ e, w.die = d → l.coRes = false → heir l e → t.saved.find? k = some { w with die := e })
    ∧ (s.draining d = false → exec (.dieUndrain d) s = .next s)
    ∧ (s.draining d = true → Completes (.dieUndrain d) s fun t => t.draining d = false ∧ t.mem = s.mem ∧ t.launches = s.launches
      ∧ t.blocks = s.blocks)
    ∧ (s.draining d = false ∨ s.placedOn d = true → exec (.firmwareSwitch d) s = .next s)
    ∧ (s.draining d = true → s.placedOn d = false → Completes (.firmwareSwitch d) s fun t =>
      s.OnlyLogged t d ∨ (t = { s with dies := t.dies } ∧ t.die d = { x with firmware := x.firmware + 1 } ∧ ∀ e, e ≠ d → t.die e = s.die e))
    ∧ (∀ w : BitVec 4, Completes (.linkWithdraw d w) s fun t => s.OnlyRegister t d 0x090 (t.reg d 0x090)
      ∧ ∀ k, k < 64 → (t.reg d 0x090).getLsbD k = if 32 ≤ k ∧ k < 36 then w.getLsbD (k - 32) else (s.reg d 0x090).getLsbD k)
    ∧ (Completes (.splitModeWrite d v) s fun t => t = { s with dies := t.dies } ∧ (∀ e, e ≠ d → t.die e = s.die e)
      ∧ (∀ k, k < 7 → (t.die d).mode.getLsbD k = (if s.functionIdle d k then v.getLsbD k else x.mode.getLsbD k)
        ∧ (t.die d).pend.getLsbD k = if s.functionIdle d k then false else v.getLsbD k ^^ x.mode.getLsbD k)
      ∧ wbits (t.reg d 0x0A0) 63 48 = wbits v 63 48 ∧ wbits (t.reg d 0x0A0) 42 32 = wbits v 42 32 ∧ wbits (t.reg d 0x0A0) 6 0 = wbits v 6 0)
    ∧ (x.mode.getLsbD 6 = false → Completes (.errverdWrite d v) s fun t => s.OnlyRegister t d 0x0D0 v)
    ∧ (x.mode.getLsbD 6 = true →
      let u := (s.setReg d 0x0D0 v).logErr d ⟨0x443, v.toNat, 0, 0, 0, []⟩
      (s.suspectUnits d = [] → exec (.errverdWrite d v) s = .next u)
      ∧ (s.suspectUnits d ≠ [] → Completes (.errverdWrite d v) s fun t => ∃ e ∈ s.suspectUnits d, t = u.settleUnit e (wbits v 1 0))))

/-- REGISTER_WRITE, of a die of the package and while a link is up, and otherwise without effect: a register without behaviour of its own takes the bits
that it has; RTCFG stores LIMIT 16 for a value outside 1 to 16 and TIMEOUT 1 for 0; the doorbell offset of a core is its doorbell; POOLRET and
reserved offsets are not written; an LLC slice's window stops, since the spec does not describe its registers (log 9; R223, R307, R416, R426, R427).
WATCH_ARM of a slot, while a link is up (log 126): an unarmed slot keeps its fields, an arming that breaks R432 clears ARM, an armed slot whose memory
is served and whose condition holds fires at once, and another stays armed (R432, R433, R438). HOST_APERTURE_ACCESS through a link that is up reads
the aligned 8-byte word or writes its bytes at home where they are memory that is served, and is held until memory that is not served yet is;
elsewhere a read completes with zeros and a write is dropped (log 90; R426, R428, R438). -/
def Obligations.RegisterWrites : Prop :=
  (∀ (s : State) (d o : Nat) (v : Word), 24 ≤ d ∨ s.links = [] → exec (.registerWrite d o v) s = .next s)
  ∧ (∀ (s : State) (d o : Nat) (v : Word), d < 24 → s.links ≠ [] →
    (∀ m, o % 8 = 0 → o < 0x10000 → plainMask d o = some m → Completes (.registerWrite d o v) s fun t => s.OnlyRegister t d o (v &&& m))
    ∧ (Completes (.registerWrite d 0x080 v) s fun t => ∃ x, s.OnlyRegister t d 0x080 x
      ∧ wbits x 20 16 = (if wbits v 20 16 = 0 ∨ 16 < wbits v 20 16 then 16 else wbits v 20 16) ∧ wbits x 15 0 = max 1 (wbits v 15 0)
      ∧ wbits x 63 21 = 0)
    ∧ (∀ i, i < 64 → exec (.registerWrite d (0x100008 + 0x1000 * i) v) s = exec (.dbellWrite (64 * d + i)) s
      ∧ exec (.registerWrite d (0x100000 + 0x1000 * i) v) s = .next s)
    ∧ (mmioAt d o = .reserved → exec (.registerWrite d o v) s = .next s)
    ∧ (0x200000 ≤ o → o < 0x210000 → exec (.registerWrite d o v) s = .fault .llcSliceRegister))
  ∧ (∀ (s : State) (w : Nat) (v : Word),
    let d := s.watchDie
    let base := 0x1000 + 32 * w
    let a := wbits v 43 3 * 8
    let isLine := v.getLsbD 62
    let cond := s.reg d (base + 8)
    let bad := (wbits cond 2 0 = 7) ≠ (isLine = true) ∨ (isLine = true ∧ a % 64 ≠ 0) ∨ s.isMemory a (if isLine then 64 else 8) = false
    let x : Word := if isLine then BitVec.ofNat 64 (s.homeN (a + 8) 4) else BitVec.ofNat 64 (s.homeN a 8)
    let holds := s.memReady a = true ∧ if isLine then wbits x 4 0 ≠ 0 else watchHolds (wbits cond 2 0) x (s.reg d (base + 16)) = true
    let fields := v &&& 0x40000FFFFFFFFFF8#64
    let armed := v &&& 0xC0000FFFFFFFFFF8#64
    (256 ≤ w ∨ s.links = [] → exec (.watchArm w v) s = .next s)
    ∧ (w < 256 → s.links ≠ [] →
      ((v.getLsbD 63 = false ∨ bad) → Completes (.watchArm w v) s fun t => s.OnlyRegister t d base fields)
      ∧ (v.getLsbD 63 = true → ¬bad → ¬holds → Completes (.watchArm w v) s fun t => s.OnlyRegister t d base armed)
      ∧ (v.getLsbD 63 = true → ¬bad → holds → Completes (.watchArm w v) s fun t => t.reg d base = fields ∧ t.reg d (base + 8) = cond ||| 0x100
        ∧ (∀ k, k ≠ base → k ≠ base + 8 → t.reg d k = s.reg d k) ∧ t.mem = s.mem ∧ ∃ m, t.hostMsgs = s.hostMsgs ++ [m])))
  ∧ ∀ (s : State) (e off : Nat) (data : List Byte),
    let pa := wbits (s.reg (if e = 0 then 0 else 23) 0x0E0) 43 30 * 2 ^ 30 + if data = [] then off / 8 * 8 else off
    let len := if data = [] then 8 else data.length
    let linked := e < 2 ∧ s.links.contains e = true
    let i : Instr := .hostApertureAccess e off data
    (¬linked → exec i s = .next s)
    ∧ (linked → s.isMemory pa len = false → (data ≠ [] → exec i s = .next s)
      ∧ (data = [] → exec i s = .next { s with hostMsgs := s.hostMsgs ++ [.read e (List.replicate 8 0)] }))
    ∧ (linked → s.isMemory pa len = true →
      (s.memReady pa = false → exec i s = .next { s with hostWaits := s.hostWaits ++ [⟨e, pa, data⟩] })
      ∧ (s.memReady pa = true → Completes i s fun t => s.HostServed t ⟨e, pa, data⟩))

/-- LINK_STATE_CHANGE shows in PCTL of the port, PCIE_LINK_STATE_CHANGE in the trained links, and SERVICE_LEVEL_RISE in SVCLVL, up to 3. What waits for
memory that the new level serves is then performed: the hosts' accesses in order, the rest waiting on, then the reads of TAIL that doorbells asked
for, and an armed watch of memory now served fires where its condition holds (R426, R428, R433, R438, R447). DIE_RESET ends the die's groups and
returns its cores, clusters and registers to their reset state, with memory, packets, other dies, the generations of its slices and the record of what
is retired or suspect unchanged (log 81; R222, R223, R301, R326, R338). PACKAGE_RESET leaves what reset leaves, empty memory among it (log 82; R326,
R345). -/
def Obligations.LinksLevelsResets : Prop :=
  ∀ s : State,
    (∀ (port : Nat) (up : Bool), (32 ≤ port → exec (.linkStateChange port up) s = .next s)
      ∧ (port < 32 → let d := (portReg port).1
        let o := (portReg port).2
        Completes (.linkStateChange port up) s fun t => s.OnlyRegister t d o (t.reg d o)
        ∧ ∀ k, k < 64 → (t.reg d o).getLsbD k = if k = 2 then up else (s.reg d o).getLsbD k))
    ∧ (∀ (e : Nat) (up : Bool), (1 < e → exec (.pcieLinkStateChange e up) s = .next s)
      ∧ (e ≤ 1 → Completes (.pcieLinkStateChange e up) s fun t => t = { s with links := t.links }
        ∧ ∀ k, k ∈ t.links ↔ if k = e then up = true else k ∈ s.links))
    ∧ (Completes .serviceLevelRise s fun t =>
      let a := { s with level := min 3 (s.level + 1) }
      ∃ u, State.Chain (fun x y z => State.HostServed y z x) (s.hostWaits.filter fun x => a.memReady x.pa)
          { a with doorWaits := [], hostWaits := s.hostWaits.filter fun x => !a.memReady x.pa } u
        ∧ let v := s.doorWaits.foldl (fun t q => t.readTail q) u
          let d := v.watchDie
          t = { v with dies := t.dies, hostMsgs := t.hostMsgs } ∧ (∀ e, e ≠ d → t.die e = v.die e) ∧ t.die d = { v.die d with regs := (t.die d).regs }
          ∧ ∀ w, w < 256 →
            let base := 0x1000 + 32 * w
            let r := v.reg d base
            let p := wbits r 43 3 * 8
            let isLine := r.getLsbD 62
            let x : Word := if isLine then BitVec.ofNat 64 (v.homeN (p + 8) 4) else BitVec.ofNat 64 (v.homeN p 8)
            let holds := r.getLsbD 63 = true ∧ v.memReady p = true
              ∧ if isLine then wbits x 4 0 ≠ 0 else watchHolds (wbits (v.reg d (base + 8)) 2 0) x (v.reg d (base + 16)) = true
            (¬holds → t.reg d base = r ∧ t.reg d (base + 8) = v.reg d (base + 8))
            ∧ (holds → s.memReady p = false → t.reg d base = r &&& ~~~(1#64 <<< 63) ∧ t.reg d (base + 8) = v.reg d (base + 8) ||| 0x100))
    ∧ (∀ d, (24 ≤ d → exec (.dieReset d) s = .next s)
      ∧ (d < 24 → Completes (.dieReset d) s fun t => t.mem = s.mem ∧ t.launches = s.launches ∧ t.packets = s.packets
        ∧ (∀ c, dieOfCore c = d → t.core c = { Core.reset with
            poolret := (s.core c).poolret, suspect := (s.core c).suspect, retired := (s.core c).retired, doubted := (s.core c).doubted })
        ∧ (∀ k, k / 8 = d → t.cluster k = { Cluster.reset with
            setsRet := (s.cluster k).setsRet, suspect := (s.cluster k).suspect, retired := (s.cluster k).retired })
        ∧ (t.die d).rowsRet = (s.die d).rowsRet ∧ (t.die d).llcSuspect = (s.die d).llcSuspect ∧ (t.die d).memSuspect = (s.die d).memSuspect
        ∧ (t.die d).portSuspect = (s.die d).portSuspect ∧ (∀ e, e ≠ d → t.die e = s.die e)
        ∧ (∀ o, t.reg d o = if portDie d = true ∧ (o = 0x3000 ∨ o = 0x3008) ∧ (s.reg d o).getLsbD 3 = true then 8 else regReset o) ∧ (t.die d).slots = [] ∧ (t.die d).gens = (s.die d).gens
        ∧ ∀ g x, s.groups.find? g = some x → dieOfCore x.cx.core = d → ∃ y, t.groups.find? g = some y ∧ y.ended = true))
    ∧ exec .packageReset s = .next { State.reset with agenda := s.agenda, tick := s.tick, uid := s.uid }

/-- SOFT_ERROR, SCRUB and SELF_TEST. A corrected error is logged with its place and its verdict and changes nothing else. An uncorrectable one poisons the
half, element, word or entry, with its value kept; a clean cached line is dropped, and a dirty word goes to memory poisoned; a word of an instruction
cache is fetched again. The granule, set, row or port is then suspect, or the core is to be tested, and a second error before the test makes the fault
lasting: it retires the unit, or spares the row or marks its die for draining. A failed test does so too, and a clean one ends the suspicion, both
logged; in host-assisted classification no test runs, nothing is retired and the die logs no verdict (R67, R221, R222, R224, R280, R300 to R302, R336,
R338, R442, R443, R468). What an error's event names and which units a core's errors put to the test is log 98, the codes of the log and their order
log 99, and which row holds an address log 122. THERMAL_STEP moves the core clock by 0.25 GHz between 2.0 and 4.0 GHz (R444). -/
def Obligations.StorageErrors : Prop :=
  (∀ (s : State) (u : StorageUnit), (∀ c a, u ≠ .icacheWord c a) → Completes (.softError u false) s fun t =>
    s.LoggedAll t (s.unitDie u) (⟨0x221, 0, 0, 0, 0, s.unitPlace u⟩ :: if s.hostClasses (s.unitDie u) then [] else [⟨0x442, 0, 0, 0, 0, []⟩]))
  ∧ (∀ (s : State) (a : Nat), exec (.scrub a) s = exec (.softError (.memoryWord a) false) s)
  ∧ (∀ (s : State) (c a : Nat) (fatal : Bool),
    let l := s.line (.ic c) (a / 64)
    Completes (.softError (.icacheWord c a) fatal) s fun t => t.mem = s.mem ∧ t.groups = s.groups
      ∧ (∀ b, b < 64 → (t.line (.ic c) (a / 64)).valid.getLsbD b = (l.valid.getLsbD b && l.dirty.getLsbD b))
      ∧ (t.core c).doubted = (fatal || (s.core c).doubted)
      ∧ (t.die (dieOfCore c)).log = (s.die (dieOfCore c)).log ++ ⟨0x221, fatal.toNat, 0, 0, 0, [c, 7, a]⟩ ::
        if fatal || s.hostClasses (dieOfCore c) then [] else [⟨0x442, 0, 0, 0, 0, []⟩])
  ∧ (∀ (s : State) (gid : Nat) (g : Group), s.groups.find? gid = some g →
    let kept (t : State) : Prop := (t.group gid).v = g.v ∧ (t.group gid).u = g.u ∧ (t.group gid).m = g.m ∧ (t.group gid).shadow = g.shadow
      ∧ (g.resident = true → t.mem = s.mem ∧ ∃ n, s.GranuleSuspected t g.cx.core n)
      ∧ (g.resident = false → s.SetSuspected t (clusterOfCore g.cx.core) s.lehrSet)
    (∀ r k hi, Completes (.softError (.vecHalf gid k r hi) true) s fun t =>
      (t.group gid).vpois.find? (2 * vkey r k + hi.toNat) = some false ∧ kept t)
    ∧ (∀ r hi, Completes (.softError (.uniHalf gid r hi) true) s fun t => (t.group gid).upois.find? (2 * r + hi.toNat) = some false ∧ kept t)
    ∧ (∀ r i j, Completes (.softError (.tileElem gid r i j) true) s fun t => (t.group gid).mpois.find? (mkey r i j) = some false ∧ kept t)
    ∧ ∀ r i j, Completes (.softError (.shadowWord gid r i j) true) s fun t =>
      (t.group gid).mpois.find? (poisKey true r i (j / 2 * 2)) = some true ∧ (t.group gid).mpois.find? (poisKey true r i (j / 2 * 2 + 1)) = some true
      ∧ kept t)
  ∧ (∀ (s : State) (b a : Nat) (x : Block), s.blocks.find? b = some x → Completes (.softError (.scratchWord b a) true) s fun t =>
    (t.block b).poisoned a 1 = true ∧ (∀ y, (t.block b).byte y = x.byte y) ∧ t.mem = s.mem ∧ ∃ n, s.GranuleSuspected t x.core n)
  ∧ (∀ (s : State) (c m k : Nat), k < ((s.core c).box m).items.length → Completes (.softError (.mailboxEntry c m k) true) s fun t =>
    ((t.core c).box m).items = ((s.core c).box m).items.modify k (fun e => (e.1, true)) ∧ t.mem = s.mem ∧ (t.core c).doubted = true)
  ∧ (∀ (s : State) (c a : Nat),
    let l := s.line (.l1 c) (a / 64)
    (l.wordDirty (a / 8 % 8) = false → Completes (.softError (.l1Word c a) true) s fun t => t.mem = s.mem ∧ (t.core c).doubted = true
      ∧ ∀ b, b < 64 → (t.line (.l1 c) (a / 64)).valid.getLsbD b = (l.valid.getLsbD b && l.dirty.getLsbD b))
    ∧ (l.wordDirty (a / 8 % 8) = true → l.valid ≠ 0 → (s.noSet (clusterOfCore c) (a / 64) = false ∨ (s.line (.cc (clusterOfCore c)) (a / 64)).dirty = 0) →
      Completes (.softError (.l1Word c a) true) s fun t => t.homePois (a / 8 * 8) 8 = true ∧ (t.core c).doubted = true))
  ∧ (∀ (s : State) (k a : Nat),
    let l := s.line (.cc k) (a / 64)
    let set := a / 512 % 8192
    (Completes (.softError (.clusterWord k a) true) s fun t => s.SetSuspected t k set
      ∧ (l.wordDirty (a / 8 % 8) = true → l.valid ≠ 0 → t.homePois (a / 8 * 8) 8 = true)
      ∧ (l.wordDirty (a / 8 % 8) = false → (s.cluster k).suspect.contains set = false → t.mem = s.mem))
    ∧ Completes (.softError (.clusterTag k a) true) s fun t => s.SetSuspected t k set
      ∧ ∀ w, w < 8 → l.wordDirty w = true → l.valid ≠ 0 → t.homePois (a / 64 * 64 + 8 * w) 8 = true)
  ∧ (∀ (s : State) (a : Nat),
    let d := dieOfPa a
    let x := s.die d
    let own := x.mode.getLsbD 6 = false
    let row := Config.memRow a
    let lrow := Config.llcRow a
    let near := s.regionOf a == .near
    let logged (t : State) (e : LogEnt) (r v : Nat) : Prop := (t.die d).log = x.log ++ [e, ⟨0x442, r, v, 0, 0, []⟩]
    (Completes (.softError (.memoryWord a) true) s fun t => t.homePois (a / 8 * 8) 8 = true ∧ t.mem = s.mem
      ∧ (x.memSuspect.contains row = false → (t.die d).memSuspect = x.memSuspect ++ [row])
      ∧ (x.memSuspect.contains row = true → own → (t.die d).memSuspect.contains row = false
        ∧ ∃ v, logged t ⟨0x221, 1, 0, 0, 0, s.unitPlace (.memoryWord a)⟩ row v ∧ ((v = 2 ∧ t.draining d = s.draining d) ∨ (v = 3 ∧ t.draining d = true)))
      ∧ (x.memSuspect.contains row = true → ¬own → (t.die d).memSuspect = x.memSuspect ∧ t.draining d = s.draining d))
    ∧ Completes (.softError (.llcWord a) true) s fun t => t.homePois (a / 8 * 8) 8 = true ∧ t.mem = s.mem
      ∧ (x.llcSuspect.contains (llcName lrow near) = false → (t.die d).llcSuspect = x.llcSuspect ++ [llcName lrow near])
      ∧ (x.llcSuspect.contains (llcName lrow near) = true → (near = false → x.llcSuspect.contains (llcName lrow true) = false) → own →
        (t.die d).llcSuspect.contains (llcName lrow near) = false
        ∧ ∃ v, logged t ⟨0x221, 1, 0, 0, 0, s.unitPlace (.llcWord a)⟩ lrow v
          ∧ ((v = 2 ∧ t.draining d = s.draining d ∧ (t.die d).rowsRet = x.rowsRet)
            ∨ (v = 3 ∧ (near = true → t.draining d = true) ∧ (near = false → (t.die d).rowsRet.contains lrow = true))))
      ∧ (x.llcSuspect.contains (llcName lrow near) = true → ¬own → (t.die d).llcSuspect = x.llcSuspect ∧ (t.die d).rowsRet = x.rowsRet))
  ∧ (∀ (s : State) (d row : Nat) (pass : Bool),
    let x := s.die d
    let own := x.mode.getLsbD 6 = false
    let i : Instr := .selfTest (.memoryRow d row) pass
    let j : Instr := .selfTest (.llcRow d row) pass
    (¬own → exec i s = .next s ∧ exec j s = .next s)
    ∧ (x.memSuspect.contains row = false → exec i s = .next s)
    ∧ (x.llcSuspect.contains (llcName row true) = false → x.llcSuspect.contains (llcName row false) = false → exec j s = .next s)
    ∧ (own → x.memSuspect.contains row = true → Completes i s fun t => (t.die d).memSuspect.contains row = false ∧ t.mem = s.mem
      ∧ ∃ v, (t.die d).log = x.log ++ [⟨0x442, row, v, 0, 0, []⟩]
        ∧ (if pass then v = 1 ∧ t.draining d = s.draining d else (v = 2 ∧ t.draining d = s.draining d) ∨ (v = 3 ∧ t.draining d = true)))
    ∧ (own → x.llcSuspect.contains (llcName row true) = false → x.llcSuspect.contains (llcName row false) = true → Completes j s fun t =>
      (t.die d).llcSuspect.contains (llcName row false) = false ∧ t.mem = s.mem
      ∧ ∃ v, (t.die d).log = x.log ++ [⟨0x442, row, v, 0, 0, []⟩]
        ∧ (if pass then v = 1 ∧ (t.die d).rowsRet = x.rowsRet
          else (v = 2 ∧ (t.die d).rowsRet = x.rowsRet) ∨ (v = 3 ∧ (t.die d).rowsRet.contains row = true))))
  ∧ (∀ (s : State) (p : Nat),
    let d := (portReg p).1
    let ret (t : State) : Prop := (t.reg d (portReg p).2).getLsbD 3 = true ∧ (t.die d).portSuspect.contains p = false
    ((s.die d).portSuspect.contains p = false → (Completes (.softError (.port p) true) s fun t => (t.die d).portSuspect = (s.die d).portSuspect ++ [p])
      ∧ ∀ pass, exec (.selfTest (.port p) pass) s = .next s)
    ∧ ((s.die d).portSuspect.contains p = true → ((s.die d).mode.getLsbD 6 = true → (Completes (.softError (.port p) true) s fun t =>
        (t.die d).portSuspect = (s.die d).portSuspect ∧ t.reg d (portReg p).2 = s.reg d (portReg p).2) ∧ ∀ pass, exec (.selfTest (.port p) pass) s = .next s)
      ∧ ((s.die d).mode.getLsbD 6 = false → Completes (.softError (.port p) true) s ret ∧ Completes (.selfTest (.port p) false) s ret ∧ Completes (.selfTest (.port p) true) s fun t =>
        (t.die d).portSuspect.contains p = false ∧ t.reg d (portReg p).2 = s.reg d (portReg p).2)))
  ∧ (∀ (s : State) (c : Nat),
    let hosted := (s.die (dieOfCore c)).mode.getLsbD 6 = true
    (hosted → ∀ pass, exec (.selfTest (.core c) pass) s = .next s ∧ ∀ g, exec (.selfTest (.granule c g) pass) s = .next s)
    ∧ (¬hosted → (Completes (.selfTest (.core c) true) s fun t => t = { s with dies := t.dies, cores := t.cores } ∧ (t.core c).doubted = false
        ∧ ((s.core c).doubted = false → s.OnlyLogged t (dieOfCore c)))
      ∧ (Completes (.selfTest (.core c) false) s fun t => (t.core c).retired = true ∧ (t.core c).mbox = []
        ∧ (∀ e, e ≠ c → (t.core e).retired = (s.core e).retired ∧ (t.core e).mbox = (s.core e).mbox)
        ∧ (∀ b x, s.blocks.find? b = some x → s.blockLive x = true → x.core = c → (t.block b).asked = true)
        ∧ ((∀ e ∈ coresOf (clusterOfCore c), e ≠ c → (s.core e).retired = true) → (t.cluster (clusterOfCore c)).retired = true)
        ∧ ∃ x, (t.die (dieOfCore c)).log = (s.die (dieOfCore c)).log ++ [x])
      ∧ ∀ g pass, g < 64 →
        ((∃ p ∈ s.blocksOn c, g ∈ p.2.granules) ∨ (s.core c).suspect.contains g = false → exec (.selfTest (.granule c g) pass) s = .next s)
        ∧ ((∀ p ∈ s.blocksOn c, g ∉ p.2.granules) → (s.core c).suspect.contains g = true → Completes (.selfTest (.granule c g) pass) s fun t =>
          (t.core c).suspect.contains g = false ∧ (∀ k, k < 64 →
            (t.core c).poolret.getLsbD k = ((s.core c).poolret.getLsbD k || (k == g && !pass)))
          ∧ ∃ x, (t.die (dieOfCore c)).log = (s.die (dieOfCore c)).log ++ [x])))
  ∧ (∀ (s : State) (k set : Nat), (s.die (k / 8)).mode.getLsbD 6 = false →
    ((s.cluster k).suspect.contains set = false → ∀ pass, exec (.selfTest (.clusterSet k set) pass) s = .next s)
    ∧ ((s.cluster k).suspect.contains set = true → ∀ pass, Completes (.selfTest (.clusterSet k set) pass) s fun t =>
      (t.cluster k).suspect.contains set = false ∧ (pass = true → (t.cluster k).setsRet = (s.cluster k).setsRet)
      ∧ (pass = false → (t.cluster k).setsRet.contains set = true)
      ∧ ∀ n, ccSet n = set → (s.line (.cc k) n).valid ≠ 0 → (t.line (.cc k) n).dirty = 0)
    ∧ (Completes (.selfTest (.clusterFabric k) true) s fun t => s.OnlyLogged t (k / 8))
    ∧ Completes (.selfTest (.clusterFabric k) false) s fun t => (t.cluster k).retired = true ∧ (t.cluster k).reserved = none)
  ∧ ∀ (s : State) (d : Nat) (up : Bool), Completes (.thermalStep d up) s fun t => t = { s with dies := t.dies }
    ∧ t.die d = { s.die d with clock := if up then min 16 ((s.die d).clock + 1) else max 8 ((s.die d).clock - 1) }
    ∧ ∀ e, e ≠ d → t.die e = s.die e

/-! ### The machine as a whole -/

/-- What reset leaves of what the rules give: no group, block, cast, launch or packet; empty caches, queues and mailboxes; every core's clock running and
WAKEWHY 0; LEHRWAYS 4 and no lock; RTCFG LIMIT 16 and TIMEOUT 80; UDPDST 0xC864 in NODECFG; DIECTL, SPLIT, GENSET and every watch slot 0; every table
slot unbound with VERSION 0; every generation 0; SVCLVL 0 (R209, R287, R326, R345, R361, R416, R432, R438, R443, R447). Memory is in its canonical
form. -/
def Obligations.ResetState : Prop :=
  let s := State.reset
  s.groups = [] ∧ s.blocks = [] ∧ s.casts = [] ∧ s.launches = [] ∧ s.packets = [] ∧ s.saved = [] ∧ s.level = 0 ∧ s.pourCount = 0 ∧ s.mem.wf = true
  ∧ (∀ c, (s.core c).l1 = [] ∧ (s.core c).tlb = [] ∧ (s.core c).ladle = [] ∧ (s.core c).engine = [] ∧ (s.core c).gated = false ∧ (s.core c).why = 0
    ∧ ∀ m, (s.core c).box m = ⟨0, []⟩)
  ∧ (∀ k, (s.cluster k).cc = [] ∧ (s.cluster k).lehrWays = 4 ∧ (s.cluster k).lock = false)
  ∧ (∀ d, wbits (s.reg d 0x080) 20 16 = 16 ∧ wbits (s.reg d 0x080) 15 0 = 80 ∧ wbits (s.reg d 0x3010) 47 32 = 0xC864 ∧ wbits (s.reg d 0x3010) 19 0 = 0
    ∧ s.reg d 0x090 = 0 ∧ s.reg d 0x0A0 = 0 ∧ (s.die d).genset = none ∧ (s.die d).mode = 0)
  ∧ (∀ d w, w < 256 → s.reg d (0x1000 + 32 * w) = 0) ∧ (∀ d n, (s.tslot d n).bound = false ∧ (s.tslot d n).version = 0)
  ∧ ∀ d a, s.sliceGen d a = 0

/-- A step that the agenda names as the issue of a split that may issue runs the decoded instruction: where the split's lanes lie in one plane, its offset
is in the region and the words fetched there decode, the step is exec of that instruction on the lanes that R56 and R66 give it, then the end of the
issue; that of a split that may not issue only passes. The word fetched at an offset whose page the TLB holds is the four bytes at home, or, where the
instruction cache holds a copy, that copy or they (R97; log 52). A step that the agenda names as an event is exec of that event (R52, R56, R94, R197;
log 2). -/
def Obligations.StepRunsDecoded : Prop :=
  (∀ (s : State) (gid ent : Nat) (rest : List Turn) (p : Split) (pl : Nat) (ws : List CodeWord) (c : Coded) (n : Nat) (t : State),
    s.agenda = .issue gid ent :: rest → ({ s with agenda := rest } : State).mayIssue gid ent = true →
    let s0 := ({ s with agenda := rest } : State).openIssue gid ent
    let s1 := s0.modSpl fun p => { p with resumed := false }
    s0.grp.splits.find? ent = some p → p.st = .ready → p.resumed = false → p.part = none → p.atLoopEnd = false → s0.grp.occupied p.owned = [pl] → p.off < s0.grp.regionLen →
    s1.fetchInstr gid pl p.off = (t, .words ws) → decodeWords ws = .ok (c, n) →
    let q := t.spl
    let x := q.retry.getD q.exec
    let y : Mask := if q.retry.isSome then 0 else q.hlp
    let m := if planeVariant ws then x &&& t.grp.lanesIn pl else x
    let h := if planeVariant ws then y &&& t.grp.lanesIn pl else y
    let w := t.stallOf [(pl, ws)]
    let u := ((t.modSpl fun p => { p with rpl := 0, part := none }).modCur fun k => { k with uni := wordP (ws.headD 0), w := w }).atPlane pl m (if helperRuns c.instr then h else 0) c.pre (q.off + 4 * wordCount ws)
    (planeVariant ws = true → m ≠ 0 ∧ q.rpl ≤ pl) →
    step s = match exec c.instr u with
      | .next v => .next ((v.modCur fun k => { k with
          lower := k.lower || decide (v.cur.flow = .run)
          cycles := k.cycles + (if v.cur.flow = .stall then 0 else if twoCycles c.instr then 2 else 1) }).closeIssue (wordP (ws.headD 0)) w q.rpl).tickOn
      | r => r)
  ∧ (∀ (s : State) (gid ent : Nat) (rest : List Turn), s.agenda = .issue gid ent :: rest → ({ s with agenda := rest } : State).mayIssue gid ent = false →
    step s = .next ({ s with agenda := rest } : State).tickOn)
  ∧ (∀ (s : State) (gid pl off : Nat) (e : Tlb),
    let g := s.group gid
    let c := g.cx.core
    let va := g.codeVa pl off
    let pa := (e.frame + (va - e.base)) % 2 ^ 44
    let w := BitVec.ofNat 32 (s.homeN pa 4)
    let l := s.line (.ic c) (pa / 64)
    let held := l.holds (pa % 64) 4
    let o := BitVec.ofNat 32 (ofBytes ((List.range 4).map fun i => l.byte (pa % 64 + i)))
    off < g.regionLen → va < 2 ^ 56 → (s.reg (dieOfCore c) 0x000).getLsbD 0 = true → (s.core c).tlb.find? (fun x => x.covers g.cx.asid va) = some e →
    (e.kind = kImmutable ∨ (e.kind = kPrivate ∧ dieOfPa (e.frame % 2 ^ 44) = dieOfCore c)) → e.x = true →
    e.gen = s.sliceGen (dieOfPa (e.frame % 2 ^ 44)) g.cx.asid →
    (held = true → (s.fetchWord c g.cx.asid va = (s, .words [w]) ∨ s.fetchWord c g.cx.asid va = (s, .words [o]))
      ∧ (o = w → (wordLS w).toNat ≠ 1 → (wordLS w).toNat ≠ 2 → s.fetchInstr gid pl off = (s, .words [w])))
    ∧ (held = false → s.memReady pa = true → s.fetchWord c g.cx.asid va = (s.fetchIc c (pa / 64), .words [w])
      ∧ ((wordLS w).toNat ≠ 1 → (wordLS w).toNat ≠ 2 → s.fetchInstr gid pl off = (s.fetchIc c (pa / 64), .words [w]))))
  ∧ ∀ (s : State) (i : Instr) (rest : List Turn), s.agenda = .event i :: rest → isEvent i = true →
    step s = match exec i { s with agenda := rest } with
      | .next t => .next t.tickOn
      | r => r

/-- Words that the spec writes out, or whose fields it adds up, decode to the instruction and the number of words that they stand for (R70 to R80, R90 to
R92, R97; the examples of the instruction chapters). -/
def Obligations.DecodesSpecWords : Prop :=
  decodeWords [0x49000000, 0x21001015, 0x60C00003] = .ok (⟨some ⟨2, 1, false⟩, 0, .fadd ⟨4, 5, .vec 6, .bf16⟩⟩, 3)
  ∧ decodeWords [0x03820506] = .ok (⟨none, 0, .faddShort ⟨4, 5, 6⟩⟩, 1)
  ∧ decodeWords [0x80803F61] = .ok (⟨none, 0, .brs ⟨.sc, -3⟩⟩, 1)
  ∧ decodeWords [0x8100001F] = .ok (⟨none, 0, .nop⟩, 1)
  ∧ decodeWords [0x8002BF61] = .ok (⟨none, 0, .saddShort ⟨10, .imm (-3)⟩⟩, 1)
  ∧ decodeWords [0xA0002022, 0xE0000208] = .ok (⟨none, 0, .sadd ⟨8, 8, .imm 16, .i64⟩⟩, 2)
  ∧ decodeWords [0x20700C07, 0x60400000] = .ok (⟨none, 0, .vpack ⟨3, 1, 2, .i8⟩⟩, 2)
  ∧ decodeWords [0xA0601000, 0xE0001E81] = .ok (⟨none, 0, .sinsi ⟨4, 0xF4, 1⟩⟩, 2)
  ∧ decodeWords [0xA48400AC, 0xE0000660] = .ok (⟨none, 0, .setsr ⟨.tmask, 43⟩⟩, 2)
  ∧ decodeWords [0x41000000, 0x21340C13, 0x60A00502] = .ok (⟨some ⟨0, 1, false⟩, 0, .fcvt ⟨3, 4, 5, .e4m3, .f32, 1, false⟩⟩, 3)
  ∧ decodeWords [0xA1040010, 0xE00007C0] = .ok (⟨none, 0, .brd ⟨4, false, 62⟩⟩, 2)
  ∧ decodeWords [0x23800C08, 0x60008041] = .ok (⟨none, 0, .ld ⟨3, 2, 4, 2, .w32, .none, .grp, true⟩⟩, 2)
  ∧ decodeWords [0x25000823, 0x61806022] = .ok (⟨none, 0, .mma ⟨2, 8, 12, some 3, false, false, false, .e4m3⟩⟩, 2)
  ∧ decodeWords [0xA320282C, 0xE0000000] = .ok (⟨none, 0, .spec ⟨10, 11⟩⟩, 2)
  ∧ decodeWords [0xA2140000, 0xE0000000] = .ok (⟨none, 0, .cbar ⟨0⟩⟩, 2)
  ∧ decodeWords [0xA40400B0, 0xE5A00041] = .ok (⟨none, 0, .hins ⟨2, 44, 45, true⟩⟩, 2)
  ∧ decodeWords [0x2480180A, 0x62808030] = .ok (⟨none, 0, .radd ⟨6, 2, 4, 1, .i64, some 20⟩⟩, 2)
  ∧ decodeWords [0xA3040200, 0xE0000002] = .ok (⟨none, 0, .lgath ⟨128, true⟩⟩, 2)
  ∧ decodeWords [0x22A8605C, 0x60000002] = .ok (⟨none, 0, .vtopk ⟨24, 23, .f32⟩⟩, 2)
  ∧ decodeWords [0xA4880804, 0xE0000060] = .ok (⟨none, 0, .pour ⟨2, 1, 3⟩⟩, 2)
  ∧ decodeWords [0xA3300204, 0xF090A000] = .ok (⟨none, 0, .arrinit ⟨129, 132, 133⟩⟩, 2)

/-- DECODE AND ENCODE AGREE: the words of every well-formed instruction, with every operand, its W and its prefix at every value that the encoding admits,
and whatever follows them, decode to that instruction and to their number (R70 to R92). -/
def Obligations.DecodeEncode : Prop :=
  ∀ (c : Coded) (rest : List CodeWord), c.wf = true → decodeWords (c.encode ++ rest) = .ok (c, c.encode.length)

/-- AN INVARIANT THAT EVERY STEP KEEPS: memory stays in its canonical form, addresses rising strictly and no entry listed that equals what an unlisted
address reads as, so that memories that read alike are one memory (log 1). -/
def Obligations.StepKeepsMemoryCanonical : Prop :=
  ∀ s t : State, s.mem.wf = true → step s = .next t → t.mem.wf = true
end

