-- ==== Sys2Proof/Laws/Elements.lean ====
section
/-! SUPPORT. Sub-elements of words and lanes of masks: what packing and reading them back gives. -/

namespace Sys2Proof.Machine

/-- Bits of a disjunction built over a list. -/
theorem testBit_foldl_or (g : Nat → Nat) (l : List Nat) (a b : Nat) :
    (l.foldl (fun a j => a ||| g j) a).testBit b = (a.testBit b || l.any fun j => (g j).testBit b) := by
  induction l generalizing a with
  | nil => simp
  | cons j l ih => simp [ih, Bool.or_assoc]

/-- Folds of functions that agree on a list. -/
theorem foldl_eq_of_mem {α β : Type} {f g : β → α → β} {l : List α} (h : ∀ b a, a ∈ l → f b a = g b a) (b : β) :
    l.foldl f b = l.foldl g b := by
  induction l generalizing b with
  | nil => rfl
  | cons a l ih =>
    rw [List.foldl_cons, List.foldl_cons, h b a (List.mem_cons_self ..)]
    exact ih (fun b c hc => h b c (List.mem_cons_of_mem _ hc)) _

/-- A sub-element of a packed word (R48). -/
theorem elemAt_packElems (w j : Nat) (f : Nat → Nat) (hj : j < 64 / w) : elemAt w j (packElems w f) = f j % 2 ^ w := by
  have hw : 0 < w := by
    rcases Nat.eq_zero_or_pos w with h | h
    · subst h; simp at hj
    · exact h
  have hle : w * j + w ≤ 64 := by
    have h1 : (j + 1) * w ≤ 64 / w * w := Nat.mul_le_mul_right w hj
    have h2 : 64 / w * w ≤ 64 := Nat.div_mul_le_self 64 w
    have h3 : (j + 1) * w = w * j + w := by rw [Nat.add_mul, Nat.mul_comm, Nat.one_mul]
    omega
  apply Nat.eq_of_testBit_eq
  intro i
  simp only [elemAt, packElems, Nat.testBit_mod_two_pow, Nat.testBit_shiftRight, BitVec.toNat_ofNat, testBit_foldl_or, Nat.zero_testBit,
    Bool.false_or]
  by_cases hi : i < w
  · simp only [hi, decide_true, Bool.true_and]
    have h64 : w * j + i < 64 := by omega
    simp only [h64, decide_true, Bool.true_and]
    apply Bool.eq_iff_iff.2
    simp only [List.any_eq_true, List.mem_range, Nat.testBit_shiftLeft, Nat.testBit_mod_two_pow, Bool.and_eq_true, decide_eq_true_eq]
    constructor
    · rintro ⟨k, hk, h1, h2, h3⟩
      have hkj : k = j := by
        rcases Nat.lt_trichotomy k j with h | h | h
        · have : w * (k + 1) ≤ w * j := Nat.mul_le_mul_left w h
          rw [Nat.mul_add, Nat.mul_one] at this
          omega
        · exact h
        · have : w * (j + 1) ≤ w * k := Nat.mul_le_mul_left w h
          rw [Nat.mul_add, Nat.mul_one] at this
          omega
      subst hkj
      have : w * k + i - w * k = i := by omega
      rwa [this] at h3
    · intro h
      refine ⟨j, hj, by omega, by omega, ?_⟩
      have : w * j + i - w * j = i := by omega
      rwa [this]
  · simp [hi]

/-- A packed word depends only on its sub-elements. -/
theorem packElems_congr {w : Nat} {f g : Nat → Nat} (h : ∀ j, j < 64 / w → f j = g j) : packElems w f = packElems w g := by
  unfold packElems
  congr 1
  apply foldl_eq_of_mem
  intro a j hj
  rw [h j (List.mem_range.1 hj)]

/-- The lanes of a mask given by a condition. -/
theorem maskOf_getLsbD (f : Nat → Bool) (i : Nat) : (maskOf f).getLsbD i = (decide (i < 32) && f i) := by
  have key : ∀ (l : List Nat) (m : Mask), (l.foldl (fun m i => if f i then m ||| laneBit i else m) m).getLsbD i
      = (m.getLsbD i || l.any fun k => f k && decide (k = i) && decide (i < 32)) := by
    intro l
    induction l with
    | nil => simp
    | cons k l ih =>
      intro m
      rw [List.foldl_cons, ih]
      by_cases hf : f k = true
      · simp only [hf, if_true, BitVec.getLsbD_or, List.any_cons, Bool.true_and, laneBit, BitVec.getLsbD_shiftLeft, BitVec.getLsbD_one]
        by_cases hi : i < 32
        · by_cases hk : k = i
          · subst hk; simp [hi]
          · have : ¬(¬(i < k) ∧ i - k = 0) := by omega
            simp only [hi, hk, decide_true, decide_false, Bool.true_and, Bool.false_and]
            by_cases h1 : i < k
            · simp [h1]
            · have h2 : i - k ≠ 0 := by omega
              simp [h1, h2]
        · simp [hi]
      · simp only [Bool.not_eq_true] at hf
        simp [hf]
  unfold maskOf
  rw [key]
  by_cases hi : i < 32
  · simp only [BitVec.ofNat_eq_ofNat, BitVec.getLsbD_zero, Bool.false_or, hi, decide_true, Bool.and_true, Bool.true_and]
    apply Bool.eq_iff_iff.2
    simp only [List.any_eq_true, List.mem_range, Bool.and_eq_true, decide_eq_true_eq]
    exact ⟨fun ⟨k, _, h1, h2⟩ => h2 ▸ h1, fun h => ⟨i, hi, h, rfl⟩⟩
  · simp [hi]

/-- A packed word with flags depends only on its sub-elements. -/
theorem packFlags_congr {w : Nat} {f g : Nat → Nat × FpFlags} (h : ∀ j, j < 64 / w → f j = g j) : packFlags w f = packFlags w g := by
  unfold packFlags
  rw [packElems_congr fun j hj => congrArg Prod.fst (h j hj)]
  congr 1
  apply foldl_eq_of_mem
  intro a j hj
  rw [h j (List.mem_range.1 hj)]

end Sys2Proof.Machine
end

