-- ==== Sys2Proof/Laws/Encoding.lean ====
section
/-! SUPPORT. Reading back the fields of an encoding: one lemma per field form, and one per operand record. -/

namespace Sys2Proof

/-- The fields of a short lane word. -/
def Raw.shortLane : Raw → ShortLane | .sl f => f | _ => default
/-- The fields of a short uniform word. -/
def Raw.shortUni : Raw → ShortUni | .su f => f | _ => default
/-- The fields of a long word. -/
def Raw.long : Raw → Long | .ll f => f | .ul f => f | _ => default

@[simp] theorem vregOf_vfield (r : VReg) : vregOf (vfield r) = some r := by revert r; decide +kernel
@[simp] theorem vregOf_setWidth (r : BitVec 7) : vregOf (r.setWidth 8) = some r := vregOf_vfield r
@[simp] theorem tregOf_tfield (r : TReg) : tregOf (tfield r) = some r := by revert r; decide
@[simp] theorem f5_bit4 (a b : Bool) (c : BitVec 3) : (f5 a b c).getLsbD 4 = a := by revert a b c; decide
@[simp] theorem f5_bit3 (a b : Bool) (c : BitVec 3) : (f5 a b c).getLsbD 3 = b := by revert a b c; decide
@[simp] theorem f5lo_f5 (a b : Bool) (c : BitVec 3) : f5lo (f5 a b c) = c := by revert a b c; decide
@[simp] theorem f5bit0_bit0 (a : Bool) : (f5bit0 a).getLsbD 0 = a := by revert a; decide
@[simp] theorem Elem.ofCode_code (e : Elem) : Elem.ofCode e.t e.code = some e := by cases e <;> rfl
@[simp] theorem Width.ofT_t (t : Width) : Width.ofT t.t = t := by cases t <;> rfl
@[simp] theorem VSrc.of_field (b : VSrc) : VSrc.of b.bs b.field = some b := by cases b <;> simp [VSrc.of, VSrc.bs, VSrc.field]
@[simp] theorem ICond.of_code (c : ICond) : ICond.of c.code = some c := by cases c <;> rfl
@[simp] theorem FCond.of_code (c : FCond) : FCond.of c.code = some c := by cases c <;> rfl
@[simp] theorem SCond.of_code (c : SCond) : SCond.of c.code = some c := by cases c <;> rfl
@[simp] theorem BCond.of_code (c : BCond) : BCond.of c.code = some c := by cases c <;> rfl
@[simp] theorem ShufMode.of_code (c : ShufMode) : ShufMode.of c.code = c := by cases c <;> rfl
@[simp] theorem RedOp.of_code (c : RedOp) : RedOp.of c.code = some c := by cases c <;> rfl
@[simp] theorem AtomOp.of_code (c : AtomOp) : AtomOp.of c.code = some c := by cases c <;> rfl
@[simp] theorem AtomOp.of_wide_code (c : AtomOp) : AtomOp.of ((c.code.setWidth 8).extractLsb' 0 4) = some c := by cases c <;> rfl
@[simp] theorem Order.of_code (c : Order) : Order.of c.code = c := by cases c <;> rfl
@[simp] theorem Scope.of_code (c : Scope) : Scope.of c.code = c := by cases c <;> rfl
@[simp] theorem SpecReg.of_index (r : SpecReg) : SpecReg.of r.index = some r := by cases r <;> rfl
@[simp] theorem wideOf_wideT (x : Bool) : wideOf (wideT x) = some x := by cases x <;> rfl
@[simp] theorem SwapDir.of_bits (d : SwapDir) : SwapDir.of d.bits.1 d.bits.2 = some d := by cases d <;> rfl
@[simp] theorem VoteKind.of_bits (d : VoteKind) : VoteKind.of d.bits.1 d.bits.2 = some d := by cases d <;> rfl
@[simp] theorem f5order_memF5 (s : Scope) (o : Order) (x : Bool) : f5order (memF5 s o x) = o := by cases s <;> cases o <;> cases x <;> rfl
@[simp] theorem f5scope_memF5 (s : Scope) (o : Order) (x : Bool) : f5scope (memF5 s o x) = s := by cases s <;> cases o <;> cases x <;> rfl
@[simp] theorem memF5_bit0 (s : Scope) (o : Order) (x : Bool) : (memF5 s o x).getLsbD 0 = x := by cases s <;> cases o <;> cases x <;> rfl
@[simp] theorem setWidth_eight_three (j : BitVec 3) : (j.setWidth 8).setWidth 3 = j := by revert j; decide
@[simp] theorem setWidth_eight_two (j : BitVec 2) : (j.setWidth 8).setWidth 2 = j := by revert j; decide
@[simp] theorem setWidth_eight_four (j : BitVec 4) : (j.setWidth 8).setWidth 4 = j := by revert j; decide
@[simp] theorem setWidth_eight_five (j : BitVec 5) : (j.setWidth 8).setWidth 5 = j := by revert j; decide
@[simp] theorem setWidth_eight_seven (j : BitVec 7) : (j.setWidth 8).setWidth 7 = j := by revert j; decide +kernel
@[simp] theorem cvt_lo (p : BitVec 3) (e : Elem) : ((p ++ e.code) ++ e.t).extractLsb' 0 2 = e.t := by cases e <;> revert p <;> decide
@[simp] theorem cvt_mid (p : BitVec 3) (e : Elem) : ((p ++ e.code) ++ e.t).extractLsb' 2 3 = e.code := by cases e <;> revert p <;> decide
@[simp] theorem cvt_hi (p : BitVec 3) (e : Elem) : ((p ++ e.code) ++ e.t).extractLsb' 5 3 = p := by cases e <;> revert p <;> decide
@[simp] theorem shuf_mode (m : ShufMode) (e : Elem) : ShufMode.of ((m.code ++ e.code).extractLsb' 3 2) = m := by cases e <;> cases m <;> rfl
@[simp] theorem shuf_elem (m : ShufMode) (e : Elem) : Elem.ofCode e.t (f5lo (m.code ++ e.code)) = some e := by cases e <;> cases m <;> rfl
@[simp] theorem scr_ord (p x : Bool) (o : Order) : f5order (((0#1 ++ BitVec.ofBool p) ++ o.code) ++ BitVec.ofBool x) = o := by
  cases o <;> cases p <;> cases x <;> rfl
@[simp] theorem scr_pair (p x : Bool) (o : Order) : (((0#1 ++ BitVec.ofBool p) ++ o.code) ++ BitVec.ofBool x).getLsbD 3 = p := by
  cases o <;> cases p <;> cases x <;> rfl
@[simp] theorem scr_x (p x : Bool) (o : Order) : (((0#1 ++ BitVec.ofBool p) ++ o.code) ++ BitVec.ofBool x).getLsbD 0 = x := by
  cases o <;> cases p <;> cases x <;> rfl
@[simp] theorem atoms_ord (p x : Bool) (o : Order) : f5order (((BitVec.ofBool p ++ 0#1) ++ o.code) ++ BitVec.ofBool x) = o := by
  cases o <;> cases p <;> cases x <;> rfl
@[simp] theorem atoms_chk (p x : Bool) (o : Order) : (((BitVec.ofBool p ++ 0#1) ++ o.code) ++ BitVec.ofBool x).getLsbD 4 = p := by
  cases o <;> cases p <;> cases x <;> rfl
@[simp] theorem atoms_x (p x : Bool) (o : Order) : (((BitVec.ofBool p ++ 0#1) ++ o.code) ++ BitVec.ofBool x).getLsbD 0 = x := by
  cases o <;> cases p <;> cases x <;> rfl
@[simp] theorem atomc_ord (x : Bool) (o : Order) : f5order ((0#2 ++ o.code) ++ BitVec.ofBool x) = o := by cases o <;> cases x <;> rfl
@[simp] theorem atomc_x (x : Bool) (o : Order) : ((0#2 ++ o.code) ++ BitVec.ofBool x).getLsbD 0 = x := by cases o <;> cases x <;> rfl
@[simp] theorem atom_disp (d : BitVec 4) (p : AtomOp) : (d ++ p.code).extractLsb' 4 4 = d := by cases p <;> revert d <;> decide
@[simp] theorem atom_op (d : BitVec 4) (p : AtomOp) : AtomOp.of ((d ++ p.code).extractLsb' 0 4) = some p := by cases p <;> revert d <;> decide
@[simp] theorem low_bit (x : Bool) : (0#4 ++ BitVec.ofBool x).getLsbD 0 = x := by cases x <;> rfl
@[simp] theorem bit_one (x : Bool) : ((0#3 ++ BitVec.ofBool x) ++ 0#1).getLsbD 1 = x := by cases x <;> rfl
@[simp] theorem two_bits_one (x y : Bool) : ((0#3 ++ BitVec.ofBool x) ++ BitVec.ofBool y).getLsbD 1 = x := by cases x <;> cases y <;> rfl
@[simp] theorem two_bits_zero (x y : Bool) : ((0#3 ++ BitVec.ofBool x) ++ BitVec.ofBool y).getLsbD 0 = y := by cases x <;> cases y <;> rfl
@[simp] theorem i8_bit0 (x y : Bool) : ((0#6 ++ BitVec.ofBool x) ++ BitVec.ofBool y).getLsbD 0 = y := by cases x <;> cases y <;> rfl
@[simp] theorem i8_bit1 (x y : Bool) : ((0#6 ++ BitVec.ofBool x) ++ BitVec.ofBool y).getLsbD 1 = x := by cases x <;> cases y <;> rfl
@[simp] theorem i8_low (y : Bool) : (0#7 ++ BitVec.ofBool y).getLsbD 0 = y := by cases y <;> rfl
@[simp] theorem f5scope_code (c : Scope) : f5scope (c.code ++ 0#3) = c := by cases c <;> rfl
@[simp] theorem flagOf_field (o : Option TReg) : flagOf o.isSome (flagField o) = some o := by cases o <;> simp [flagOf, flagField]
@[simp] theorem bind_field (o : Option UReg) : (if o.isSome = true then some (bindField o) else none) = o := by cases o <;> rfl
@[simp] theorem bind_field_not (o : Option UReg) : (if o = none then none else some (bindField o)) = o := by cases o <;> rfl
@[simp] theorem drain_field (o : Option (BitVec 3)) : (if o.isSome = true then some ((drainField o).setWidth 3) else none) = o := by
  cases o <;> simp [drainField]
@[simp] theorem dispOf_bytes (x : BitVec 24) :
    (x.extractLsb' 16 8 ++ x.extractLsb' 8 8) ++ x.extractLsb' 0 8 = x := by
  apply BitVec.eq_of_getLsbD_eq; intro i hi
  simp only [BitVec.getLsbD_append, BitVec.getLsbD_extractLsb']
  by_cases h1 : i < 8
  · simp [h1]
  · by_cases h2 : i - 8 < 8
    · simp only [h1, h2, if_true, if_false, decide_true, Bool.true_and]; congr 1; omega
    · have h3 : i - 8 - 8 < 8 := by omega
      simp only [h1, h2, h3, if_false, decide_true, Bool.true_and]; congr 1; omega
theorem USrc.ofLong_fields (b : USrc) (f : Long) (h3 : f.f.getLsbD 3 = b.isImm) (hb : f.b = b.bField) (hi : f.i = b.iField) :
    USrc.ofLong f = b := by
  unfold USrc.ofLong; rw [h3, hb, hi]; cases b <;> rfl
theorem USrc.ofShort_fields (b : USrc) (f : ShortUni) (hm : f.bm = b.isImm) (hb : f.b = b.shortB) : USrc.ofShort f = b := by
  unfold USrc.ofShort; rw [hm, hb]; cases b <;> rfl
@[simp] theorem MovMode.of_bits (m : MovMode) : MovMode.of m.bits.1 m.bits.2 m.j = some m := by
  cases m <;> simp [MovMode.of, MovMode.bits, MovMode.j]
theorem ShV.of_raw (op : BitVec 5) (o : ShV) : ShV.of (o.raw op).shortLane = some o := by
  cases o; simp [-BitVec.getLsbD_eq_getElem, ShV.of, ShV.raw, Raw.shortLane]
theorem ShS.of_raw (op : BitVec 5) (o : ShS) : ShS.of (o.raw op).shortLane = some o := by
  cases o; simp [-BitVec.getLsbD_eq_getElem, ShS.of, ShS.raw, Raw.shortLane]
theorem ShI.of_raw (op : BitVec 5) (o : ShI) : ShI.of (o.raw op).shortLane = some o := by
  cases o; simp [-BitVec.getLsbD_eq_getElem, ShI.of, ShI.raw, Raw.shortLane]
theorem ShMovS.of_raw (op : BitVec 5) (o : ShMovS) : ShMovS.of (o.raw op).shortLane = some o := by
  cases o; simp [-BitVec.getLsbD_eq_getElem, ShMovS.of, ShMovS.raw, Raw.shortLane]
theorem ShU.of_raw (op f : BitVec 5) (o : ShU) : ShU.of (o.raw op f).shortUni = some o := by
  cases o with | mk d b => simp [ShU.of, ShU.raw, Raw.shortUni, USrc.ofShort_fields b]
theorem ShCmp.of_raw (op : BitVec 5) (o : ShCmp) : ShCmp.of (o.raw op).shortUni = some o := by
  cases o with | mk a b c => simp [ShCmp.of, ShCmp.raw, Raw.shortUni, USrc.ofShort_fields b]
theorem ShBr.of_raw (op : BitVec 5) (o : ShBr) : ShBr.of (o.raw op).shortUni = some o := by
  cases o; simp [-BitVec.getLsbD_eq_getElem, ShBr.of, ShBr.raw, Raw.shortUni]
theorem ShReg.of_raw (op f : BitVec 5) (o : ShReg) : ShReg.of (o.raw op f).shortUni = some o := by
  cases o; simp [-BitVec.getLsbD_eq_getElem, ShReg.of, ShReg.raw, Raw.shortUni]
theorem ShCount.of_raw (op f : BitVec 5) (o : ShCount) : ShCount.of (o.raw op f).shortUni = some o := by
  cases o; simp [-BitVec.getLsbD_eq_getElem, ShCount.of, ShCount.raw, Raw.shortUni]
theorem LaneBin.of_raw (op : BitVec 9) (o : LaneBin) : LaneBin.of (o.raw op).long = some o := by
  cases o; simp [-BitVec.getLsbD_eq_getElem, LaneBin.of, LaneBin.raw, Raw.long]
theorem LaneTri.of_raw (op : BitVec 9) (o : LaneTri) : LaneTri.of (o.raw op).long = some o := by
  cases o; simp [-BitVec.getLsbD_eq_getElem, LaneTri.of, LaneTri.raw, Raw.long]
theorem LaneTriX.of_raw (op : BitVec 9) (o : LaneTriX) : LaneTriX.of (o.raw op).long = some o := by
  cases o; simp [-BitVec.getLsbD_eq_getElem, LaneTriX.of, LaneTriX.raw, Raw.long]
theorem LaneUn.of_raw (op : BitVec 9) (o : LaneUn) : LaneUn.of (o.raw op).long = some o := by
  cases o; simp [-BitVec.getLsbD_eq_getElem, LaneUn.of, LaneUn.raw, Raw.long]
theorem LaneUnX.of_raw (op : BitVec 9) (o : LaneUnX) : LaneUnX.of (o.raw op).long = some o := by
  cases o; simp [-BitVec.getLsbD_eq_getElem, LaneUnX.of, LaneUnX.raw, Raw.long]
theorem LaneShift.of_raw (op : BitVec 9) (o : LaneShift) : LaneShift.of (o.raw op).long = some o := by
  obtain ⟨d, a, k, e⟩ := o
  cases k <;> simp [-BitVec.getLsbD_eq_getElem, LaneShift.of, LaneShift.raw, Raw.long, ShiftCount.isImm, ShiftCount.bs, ShiftCount.bField, ShiftCount.iField]
theorem LaneCmp.of_raw (op : BitVec 9) (o : LaneCmp) : LaneCmp.of (o.raw op).long = some o := by
  cases o; simp [-BitVec.getLsbD_eq_getElem, LaneCmp.of, LaneCmp.raw, Raw.long]
theorem LaneCmpV.of_raw (op : BitVec 9) (o : LaneCmpV) : LaneCmpV.of (o.raw op).long = some o := by
  cases o; simp [-BitVec.getLsbD_eq_getElem, LaneCmpV.of, LaneCmpV.raw, Raw.long]
theorem LaneFCmp.of_raw (op : BitVec 9) (o : LaneFCmp) : LaneFCmp.of (o.raw op).long = some o := by
  cases o; simp [-BitVec.getLsbD_eq_getElem, LaneFCmp.of, LaneFCmp.raw, Raw.long]
theorem LaneFCmpV.of_raw (op : BitVec 9) (o : LaneFCmpV) : LaneFCmpV.of (o.raw op).long = some o := by
  cases o; simp [-BitVec.getLsbD_eq_getElem, LaneFCmpV.of, LaneFCmpV.raw, Raw.long]
theorem LaneMov.of_raw (op : BitVec 9) (o : LaneMov) : LaneMov.of (o.raw op).long = some o := by
  cases o; simp [-BitVec.getLsbD_eq_getElem, LaneMov.of, LaneMov.raw, Raw.long]
theorem LaneMovS.of_raw (op : BitVec 9) (o : LaneMovS) : LaneMovS.of (o.raw op).long = some o := by
  obtain ⟨d, b, m, e⟩ := o
  cases m <;> simp [-BitVec.getLsbD_eq_getElem, LaneMovS.of, LaneMovS.raw, Raw.long, MovSMode.isSplat, MovSMode.j]
theorem LaneIdx.of_raw (op : BitVec 9) (o : LaneIdx) : LaneIdx.of (o.raw op).long = some o := by
  cases o; simp [-BitVec.getLsbD_eq_getElem, LaneIdx.of, LaneIdx.raw, Raw.long]
theorem LanePack.of_raw (op : BitVec 9) (o : LanePack) : LanePack.of (o.raw op).long = some o := by
  cases o; simp [-BitVec.getLsbD_eq_getElem, LanePack.of, LanePack.raw, Raw.long]
theorem LaneCvt.of_raw (op : BitVec 9) (o : LaneCvt) : LaneCvt.of (o.raw op).long = some o := by
  cases o; simp [-BitVec.getLsbD_eq_getElem, LaneCvt.of, LaneCvt.raw, Raw.long]
theorem ShufImm.of_raw (op : BitVec 9) (o : ShufImm) : ShufImm.of (o.raw op).long = some o := by
  cases o; simp [-BitVec.getLsbD_eq_getElem, ShufImm.of, ShufImm.raw, Raw.long]
theorem QuadSwap.of_raw (op : BitVec 9) (o : QuadSwap) : QuadSwap.of (o.raw op).long = some o := by
  cases o; simp [-BitVec.getLsbD_eq_getElem, QuadSwap.of, QuadSwap.raw, Raw.long]
theorem QuadBc.of_raw (op : BitVec 9) (o : QuadBc) : QuadBc.of (o.raw op).long = some o := by
  cases o; simp [-BitVec.getLsbD_eq_getElem, QuadBc.of, QuadBc.raw, Raw.long]
theorem Ballot.of_raw (op : BitVec 9) (o : Ballot) : Ballot.of (o.raw op).long = some o := by
  cases o; simp [-BitVec.getLsbD_eq_getElem, Ballot.of, Ballot.raw, Raw.long]
theorem Vote.of_raw (op : BitVec 9) (o : Vote) : Vote.of (o.raw op).long = some o := by
  cases o; simp [-BitVec.getLsbD_eq_getElem, Vote.of, Vote.raw, Raw.long]
theorem Reduce.of_raw (op : BitVec 9) (o : Reduce) : Reduce.of (o.raw op).long = some o := by
  obtain ⟨d, a, p, e⟩ := o
  cases d <;> simp [-BitVec.getLsbD_eq_getElem, Reduce.of, Reduce.raw, Raw.long, RedDst.isVec, RedDst.field]
theorem Scan.of_raw (op : BitVec 9) (o : Scan) : Scan.of (o.raw op).long = some o := by
  cases o; simp [-BitVec.getLsbD_eq_getElem, Scan.of, Scan.raw, Raw.long]
theorem LaneMono.of_raw (op : BitVec 9) (o : LaneMono) : LaneMono.of (o.raw op).long = some o := by
  cases o; simp [-BitVec.getLsbD_eq_getElem, LaneMono.of, LaneMono.raw, Raw.long]
theorem Isect.of_raw (op : BitVec 9) (o : Isect) : Isect.of (o.raw op).long = some o := by
  cases o; simp [-BitVec.getLsbD_eq_getElem, Isect.of, Isect.raw, Raw.long]
theorem Rank.of_raw (op : BitVec 9) (o : Rank) : Rank.of (o.raw op).long = some o := by
  cases o; simp [-BitVec.getLsbD_eq_getElem, Rank.of, Rank.raw, Raw.long]
theorem MemAcc.of_raw (op : BitVec 9) (o : MemAcc) : MemAcc.of (o.raw op).long = some o := by
  cases o; simp [-BitVec.getLsbD_eq_getElem, MemAcc.of, MemAcc.raw, Raw.long]
theorem ScrAcc.of_raw (op : BitVec 9) (o : ScrAcc) : ScrAcc.of (o.raw op).long = some o := by
  cases o; simp [-BitVec.getLsbD_eq_getElem, ScrAcc.of, ScrAcc.raw, Raw.long]
theorem LaneAtom.of_raw (op : BitVec 9) (o : LaneAtom) : LaneAtom.of (o.raw op).long = some o := by
  cases o; simp [-BitVec.getLsbD_eq_getElem, LaneAtom.of, LaneAtom.raw, Raw.long]
theorem ScrAtom.of_raw (op : BitVec 9) (o : ScrAtom) : ScrAtom.of (o.raw op).long = some o := by
  cases o; simp [-BitVec.getLsbD_eq_getElem, ScrAtom.of, ScrAtom.raw, Raw.long]
theorem WinAtom.of_raw (op : BitVec 9) (o : WinAtom) : WinAtom.of (o.raw op).long = some o := by
  cases o; simp [-BitVec.getLsbD_eq_getElem, WinAtom.of, WinAtom.raw, Raw.long]
theorem FaultLd.of_raw (op : BitVec 9) (o : FaultLd) : FaultLd.of (o.raw op).long = some o := by
  cases o; simp [-BitVec.getLsbD_eq_getElem, FaultLd.of, FaultLd.raw, Raw.long]
theorem Remote.of_raw (op : BitVec 9) (o : Remote) : Remote.of (o.raw op).long = some o := by
  cases o; simp [-BitVec.getLsbD_eq_getElem, Remote.of, Remote.raw, Raw.long]
theorem RemArr.of_raw (op : BitVec 9) (o : RemArr) : RemArr.of (o.raw op).long = some o := by
  cases o; simp [-BitVec.getLsbD_eq_getElem, RemArr.of, RemArr.raw, Raw.long]
theorem RemGet.of_raw (op : BitVec 9) (o : RemGet) : RemGet.of (o.raw op).long = some o := by
  cases o; simp [-BitVec.getLsbD_eq_getElem, RemGet.of, RemGet.raw, Raw.long]
theorem CrRead.of_raw (op : BitVec 9) (o : CrRead) : CrRead.of (o.raw op).long = some o := by
  cases o; simp [-BitVec.getLsbD_eq_getElem, CrRead.of, CrRead.raw, Raw.long]
theorem Mma.of_raw (op : BitVec 9) (o : Mma) : Mma.of (o.raw op).long = some o := by
  cases o; simp [-BitVec.getLsbD_eq_getElem, Mma.of, Mma.raw, Raw.long]
theorem Oadd.of_raw (op : BitVec 9) (o : Oadd) : Oadd.of (o.raw op).long = some o := by
  cases o; simp [-BitVec.getLsbD_eq_getElem, Oadd.of, Oadd.raw, Raw.long]
theorem TileMem.of_raw (op : BitVec 9) (o : TileMem) : TileMem.of (o.raw op).long = some o := by
  cases o; simp [-BitVec.getLsbD_eq_getElem, TileMem.of, TileMem.raw, Raw.long]
theorem TileOne.of_raw (op : BitVec 9) (o : TileOne) : TileOne.of (o.raw op).long = some o := by
  cases o; simp [-BitVec.getLsbD_eq_getElem, TileOne.of, TileOne.raw, Raw.long]
theorem TileSts.of_raw (op : BitVec 9) (o : TileSts) : TileSts.of (o.raw op).long = some o := by
  cases o; simp [-BitVec.getLsbD_eq_getElem, TileSts.of, TileSts.raw, Raw.long]
theorem Hpack.of_raw (op : BitVec 9) (o : Hpack) : Hpack.of (o.raw op).long = some o := by
  cases o; simp [-BitVec.getLsbD_eq_getElem, Hpack.of, Hpack.raw, Raw.long]
theorem PlSetV.of_raw (op : BitVec 9) (o : PlSetV) : PlSetV.of (o.raw op).long = some o := by
  cases o; simp [-BitVec.getLsbD_eq_getElem, PlSetV.of, PlSetV.raw, Raw.long]
theorem PlGet.of_raw (op : BitVec 9) (o : PlGet) : PlGet.of (o.raw op).long = some o := by
  cases o; simp [-BitVec.getLsbD_eq_getElem, PlGet.of, PlGet.raw, Raw.long]
theorem UniBin.of_raw (op : BitVec 9) (o : UniBin) : UniBin.of (o.raw op).long = some o := by
  cases o with | mk d a b e => simp [-BitVec.getLsbD_eq_getElem, UniBin.of, UniBin.raw, Raw.long, USrc.ofLong_fields b]
theorem UniUn.of_raw (op : BitVec 9) (o : UniUn) : UniUn.of (o.raw op).long = some o := by
  cases o; simp [-BitVec.getLsbD_eq_getElem, UniUn.of, UniUn.raw, Raw.long]
theorem UniTri.of_raw (op : BitVec 9) (o : UniTri) : UniTri.of (o.raw op).long = some o := by
  cases o; simp [-BitVec.getLsbD_eq_getElem, UniTri.of, UniTri.raw, Raw.long]
theorem UniCmp.of_raw (op : BitVec 9) (o : UniCmp) : UniCmp.of (o.raw op).long = some o := by
  cases o; simp [-BitVec.getLsbD_eq_getElem, UniCmp.of, UniCmp.raw, Raw.long]
theorem UniMov.of_raw (op : BitVec 9) (o : UniMov) : UniMov.of (o.raw op).long = some o := by
  cases o with | mk d b e => simp [-BitVec.getLsbD_eq_getElem, UniMov.of, UniMov.raw, Raw.long, USrc.ofLong_fields b]
theorem UniMovI.of_raw (op : BitVec 9) (o : UniMovI) : UniMovI.of (o.raw op).long = some o := by
  obtain ⟨d, k, x⟩ := o
  cases x <;> simp [UniMovI.of, UniMovI.raw, Raw.long] <;> decide
theorem UniIns.of_raw (op : BitVec 9) (o : UniIns) : UniIns.of (o.raw op).long = some o := by
  cases o; simp [-BitVec.getLsbD_eq_getElem, UniIns.of, UniIns.raw, Raw.long]
theorem UniMem.of_raw (op : BitVec 9) (o : UniMem) : UniMem.of (o.raw op).long = some o := by
  cases o; simp [-BitVec.getLsbD_eq_getElem, UniMem.of, UniMem.raw, Raw.long]
theorem UniAtom.of_raw (op : BitVec 9) (o : UniAtom) : UniAtom.of (o.raw op).long = some o := by
  cases o; simp [-BitVec.getLsbD_eq_getElem, UniAtom.of, UniAtom.raw, Raw.long]
theorem Branch.of_raw (op : BitVec 9) (o : Branch) : Branch.of (o.raw op).long = some o := by
  cases o; simp [-BitVec.getLsbD_eq_getElem, Branch.of, Branch.raw, Raw.long, dispLong, dispOf]
theorem BranchDiv.of_raw (op : BitVec 9) (o : BranchDiv) : BranchDiv.of (o.raw op).long = some o := by
  cases o; simp [-BitVec.getLsbD_eq_getElem, BranchDiv.of, BranchDiv.raw, Raw.long, dispLong, dispOf]
theorem JumpAbs.of_raw (op : BitVec 9) (o : JumpAbs) : JumpAbs.of (o.raw op).long = some o := by
  cases o; simp [-BitVec.getLsbD_eq_getElem, JumpAbs.of, JumpAbs.raw, Raw.long, dispLong, dispOf]
theorem CallRel.of_raw (op : BitVec 9) (o : CallRel) : CallRel.of (o.raw op).long = some o := by
  cases o; simp [-BitVec.getLsbD_eq_getElem, CallRel.of, CallRel.raw, Raw.long, dispLong, dispOf]
theorem LoopOp.of_raw (op : BitVec 9) (o : LoopOp) : LoopOp.of (o.raw op).long = some o := by
  cases o; simp [-BitVec.getLsbD_eq_getElem, LoopOp.of, LoopOp.raw, Raw.long, dispLong, dispOf]
theorem OneU.of_raw (op : BitVec 9) (o : OneU) : OneU.of (o.raw op).long = some o := by
  cases o; simp [-BitVec.getLsbD_eq_getElem, OneU.of, OneU.raw, Raw.long, plain]
theorem DestU.of_raw (op : BitVec 9) (o : DestU) : DestU.of (o.raw op).long = some o := by
  cases o; simp [-BitVec.getLsbD_eq_getElem, DestU.of, DestU.raw, Raw.long, plain]
theorem TwoU.of_raw (op : BitVec 9) (o : TwoU) : TwoU.of (o.raw op).long = some o := by
  cases o; simp [-BitVec.getLsbD_eq_getElem, TwoU.of, TwoU.raw, Raw.long, plain]
theorem ThreeU.of_raw (op : BitVec 9) (o : ThreeU) : ThreeU.of (o.raw op).long = some o := by
  cases o; simp [-BitVec.getLsbD_eq_getElem, ThreeU.of, ThreeU.raw, Raw.long, plain]
theorem SrcTwo.of_raw (op : BitVec 9) (o : SrcTwo) : SrcTwo.of (o.raw op).long = some o := by
  cases o; simp [-BitVec.getLsbD_eq_getElem, SrcTwo.of, SrcTwo.raw, Raw.long, plain]
theorem CondOnly.of_raw (op : BitVec 9) (o : CondOnly) : CondOnly.of (o.raw op).long = some o := by
  cases o; simp [-BitVec.getLsbD_eq_getElem, CondOnly.of, CondOnly.raw, Raw.long, plain]
theorem Rcv.of_raw (op : BitVec 9) (o : Rcv) : Rcv.of (o.raw op).long = some o := by
  cases o; simp [-BitVec.getLsbD_eq_getElem, Rcv.of, Rcv.raw, Raw.long, plain]
theorem Rcvw.of_raw (op : BitVec 9) (o : Rcvw) : Rcvw.of (o.raw op).long = some o := by
  cases o; simp [-BitVec.getLsbD_eq_getElem, Rcvw.of, Rcvw.raw, Raw.long, plain]
theorem Imm8.of_raw (op : BitVec 9) (o : Imm8) : Imm8.of (o.raw op).long = some o := by
  cases o; simp [-BitVec.getLsbD_eq_getElem, Imm8.of, Imm8.raw, Raw.long, plain]
theorem PlaneImm.of_raw (op : BitVec 9) (o : PlaneImm) : PlaneImm.of (o.raw op).long = some o := by
  cases o; simp [-BitVec.getLsbD_eq_getElem, PlaneImm.of, PlaneImm.raw, Raw.long, plain]
theorem PlaneMask.of_raw (op : BitVec 9) (o : PlaneMask) : PlaneMask.of (o.raw op).long = some o := by
  cases o; simp [-BitVec.getLsbD_eq_getElem, PlaneMask.of, PlaneMask.raw, Raw.long, plain]
theorem Count.of_raw (op : BitVec 9) (o : Count) : Count.of (o.raw op).long = some o := by
  cases o; simp [-BitVec.getLsbD_eq_getElem, Count.of, Count.raw, Raw.long, plain]
theorem BarNo.of_raw (op : BitVec 9) (o : BarNo) : BarNo.of (o.raw op).long = some o := by
  cases o; simp [-BitVec.getLsbD_eq_getElem, BarNo.of, BarNo.raw, Raw.long, plain]
theorem PhaseArr.of_raw (op : BitVec 9) (o : PhaseArr) : PhaseArr.of (o.raw op).long = some o := by
  cases o; simp [-BitVec.getLsbD_eq_getElem, PhaseArr.of, PhaseArr.raw, Raw.long, plain]
theorem PhaseWait.of_raw (op : BitVec 9) (o : PhaseWait) : PhaseWait.of (o.raw op).long = some o := by
  cases o; simp [-BitVec.getLsbD_eq_getElem, PhaseWait.of, PhaseWait.raw, Raw.long, plain]
theorem ScopeOnly.of_raw (op : BitVec 9) (o : ScopeOnly) : ScopeOnly.of (o.raw op).long = some o := by
  cases o; simp [-BitVec.getLsbD_eq_getElem, ScopeOnly.of, ScopeOnly.raw, Raw.long, plain]
theorem WaitLine.of_raw (op : BitVec 9) (o : WaitLine) : WaitLine.of (o.raw op).long = some o := by
  cases o; simp [-BitVec.getLsbD_eq_getElem, WaitLine.of, WaitLine.raw, Raw.long, plain]
theorem MbSend.of_raw (op : BitVec 9) (o : MbSend) : MbSend.of (o.raw op).long = some o := by
  cases o; simp [-BitVec.getLsbD_eq_getElem, MbSend.of, MbSend.raw, Raw.long, plain]
theorem MbTake.of_raw (op : BitVec 9) (o : MbTake) : MbTake.of (o.raw op).long = some o := by
  cases o; simp [-BitVec.getLsbD_eq_getElem, MbTake.of, MbTake.raw, Raw.long, plain]
theorem MbPush.of_raw (op : BitVec 9) (o : MbPush) : MbPush.of (o.raw op).long = some o := by
  cases o; simp [-BitVec.getLsbD_eq_getElem, MbPush.of, MbPush.raw, Raw.long, plain]
theorem MbSteal.of_raw (op : BitVec 9) (o : MbSteal) : MbSteal.of (o.raw op).long = some o := by
  cases o; simp [-BitVec.getLsbD_eq_getElem, MbSteal.of, MbSteal.raw, Raw.long, plain]
theorem Sleep.of_raw (op : BitVec 9) (o : Sleep) : Sleep.of (o.raw op).long = some o := by
  cases o; simp [-BitVec.getLsbD_eq_getElem, Sleep.of, Sleep.raw, Raw.long, plain]
theorem Ladle.of_raw (op : BitVec 9) (o : Ladle) : Ladle.of (o.raw op).long = some o := by
  cases o; simp [-BitVec.getLsbD_eq_getElem, Ladle.of, Ladle.raw, Raw.long, plain]
theorem LadleZ.of_raw (op : BitVec 9) (o : LadleZ) : LadleZ.of (o.raw op).long = some o := by
  cases o; simp [-BitVec.getLsbD_eq_getElem, LadleZ.of, LadleZ.raw, Raw.long, plain]
theorem LcBld.of_raw (op : BitVec 9) (o : LcBld) : LcBld.of (o.raw op).long = some o := by
  cases o; simp [-BitVec.getLsbD_eq_getElem, LcBld.of, LcBld.raw, Raw.long, plain]
theorem Storage.of_raw (op : BitVec 9) (o : Storage) : Storage.of (o.raw op).long = some o := by
  cases o; simp [-BitVec.getLsbD_eq_getElem, Storage.of, Storage.raw, Raw.long, plain]
theorem Ckpt.of_raw (op : BitVec 9) (o : Ckpt) : Ckpt.of (o.raw op).long = some o := by
  cases o; simp [-BitVec.getLsbD_eq_getElem, Ckpt.of, Ckpt.raw, Raw.long, plain]
theorem ArrInit.of_raw (op : BitVec 9) (o : ArrInit) : ArrInit.of (o.raw op).long = some o := by
  cases o; simp [-BitVec.getLsbD_eq_getElem, ArrInit.of, ArrInit.raw, Raw.long]
theorem MClr.of_raw (op : BitVec 9) (o : MClr) : MClr.of (o.raw op).long = some o := by
  cases o; simp [-BitVec.getLsbD_eq_getElem, MClr.of, MClr.raw, Raw.long, plain]
theorem Hprobe.of_raw (op : BitVec 9) (o : Hprobe) : Hprobe.of (o.raw op).long = some o := by
  cases o; simp [-BitVec.getLsbD_eq_getElem, Hprobe.of, Hprobe.raw, Raw.long, plain]
theorem Hlist.of_raw (op : BitVec 9) (o : Hlist) : Hlist.of (o.raw op).long = some o := by
  cases o; simp [-BitVec.getLsbD_eq_getElem, Hlist.of, Hlist.raw, Raw.long, plain]
theorem HslotTwo.of_raw (op : BitVec 9) (o : HslotTwo) : HslotTwo.of (o.raw op).long = some o := by
  cases o; simp [-BitVec.getLsbD_eq_getElem, HslotTwo.of, HslotTwo.raw, Raw.long, plain]
theorem Hswap.of_raw (op : BitVec 9) (o : Hswap) : Hswap.of (o.raw op).long = some o := by
  cases o; simp [-BitVec.getLsbD_eq_getElem, Hswap.of, Hswap.raw, Raw.long, plain]
theorem Hfence.of_raw (op : BitVec 9) (o : Hfence) : Hfence.of (o.raw op).long = some o := by
  cases o; simp [-BitVec.getLsbD_eq_getElem, Hfence.of, Hfence.raw, Raw.long, plain]
theorem Hstat.of_raw (op : BitVec 9) (o : Hstat) : Hstat.of (o.raw op).long = some o := by
  cases o; simp [-BitVec.getLsbD_eq_getElem, Hstat.of, Hstat.raw, Raw.long, plain]
theorem GetSr.of_raw (op : BitVec 9) (o : GetSr) : GetSr.of (o.raw op).long = some o := by
  cases o; simp [-BitVec.getLsbD_eq_getElem, GetSr.of, GetSr.raw, Raw.long, plain]
theorem SetSr.of_raw (op : BitVec 9) (o : SetSr) : SetSr.of (o.raw op).long = some o := by
  cases o; simp [-BitVec.getLsbD_eq_getElem, SetSr.of, SetSr.raw, Raw.long, plain]
theorem Pour.of_raw (op : BitVec 9) (o : Pour) : Pour.of (o.raw op).long = some o := by
  cases o; simp [-BitVec.getLsbD_eq_getElem, Pour.of, Pour.raw, Raw.long, plain]
theorem FlagOnly.of_raw (op : BitVec 9) (o : FlagOnly) : FlagOnly.of (o.raw op).long = some o := by
  cases o; simp [-BitVec.getLsbD_eq_getElem, FlagOnly.of, FlagOnly.raw, Raw.long, plain]
theorem DgFold.of_raw (op : BitVec 9) (o : DgFold) : DgFold.of (o.raw op).long = some o := by
  cases o; simp [-BitVec.getLsbD_eq_getElem, DgFold.of, DgFold.raw, Raw.long, plain]

end Sys2Proof
end

