-- ==== Sys2Proof/Laws/State.lean ====
section
/-! SUPPORT. One lemma per field per update of the state, true by rfl, so that no proof unfolds a record update. -/

namespace Sys2Proof.Machine

/-! ### modCore -/

@[simp] theorem State.modCore_clk (s : State) (c : Nat) (f : Core → Core) : (s.modCore c f).clk = s.clk := rfl
@[simp] theorem State.modCore_groups (s : State) (c : Nat) (f : Core → Core) : (s.modCore c f).groups = s.groups := rfl
@[simp] theorem State.modCore_blocks (s : State) (c : Nat) (f : Core → Core) : (s.modCore c f).blocks = s.blocks := rfl
@[simp] theorem State.modCore_casts (s : State) (c : Nat) (f : Core → Core) : (s.modCore c f).casts = s.casts := rfl
@[simp] theorem State.modCore_cores (s : State) (c : Nat) (f : Core → Core) : (s.modCore c f).cores = s.cores.insert c (f (s.core c)) := rfl
@[simp] theorem State.modCore_clusters (s : State) (c : Nat) (f : Core → Core) : (s.modCore c f).clusters = s.clusters := rfl
@[simp] theorem State.modCore_dies (s : State) (c : Nat) (f : Core → Core) : (s.modCore c f).dies = s.dies := rfl
@[simp] theorem State.modCore_mem (s : State) (c : Nat) (f : Core → Core) : (s.modCore c f).mem = s.mem := rfl
@[simp] theorem State.modCore_mpois (s : State) (c : Nat) (f : Core → Core) : (s.modCore c f).mpois = s.mpois := rfl
@[simp] theorem State.modCore_mwritten (s : State) (c : Nat) (f : Core → Core) : (s.modCore c f).mwritten = s.mwritten := rfl
@[simp] theorem State.modCore_mdirty (s : State) (c : Nat) (f : Core → Core) : (s.modCore c f).mdirty = s.mdirty := rfl
@[simp] theorem State.modCore_launches (s : State) (c : Nat) (f : Core → Core) : (s.modCore c f).launches = s.launches := rfl
@[simp] theorem State.modCore_children (s : State) (c : Nat) (f : Core → Core) : (s.modCore c f).children = s.children := rfl
@[simp] theorem State.modCore_pourCount (s : State) (c : Nat) (f : Core → Core) : (s.modCore c f).pourCount = s.pourCount := rfl
@[simp] theorem State.modCore_lastQueue (s : State) (c : Nat) (f : Core → Core) : (s.modCore c f).lastQueue = s.lastQueue := rfl
@[simp] theorem State.modCore_tails (s : State) (c : Nat) (f : Core → Core) : (s.modCore c f).tails = s.tails := rfl
@[simp] theorem State.modCore_packets (s : State) (c : Nat) (f : Core → Core) : (s.modCore c f).packets = s.packets := rfl
@[simp] theorem State.modCore_mbreqs (s : State) (c : Nat) (f : Core → Core) : (s.modCore c f).mbreqs = s.mbreqs := rfl
@[simp] theorem State.modCore_saved (s : State) (c : Nat) (f : Core → Core) : (s.modCore c f).saved = s.saved := rfl
@[simp] theorem State.modCore_hostMsgs (s : State) (c : Nat) (f : Core → Core) : (s.modCore c f).hostMsgs = s.hostMsgs := rfl
@[simp] theorem State.modCore_hostWaits (s : State) (c : Nat) (f : Core → Core) : (s.modCore c f).hostWaits = s.hostWaits := rfl
@[simp] theorem State.modCore_doorWaits (s : State) (c : Nat) (f : Core → Core) : (s.modCore c f).doorWaits = s.doorWaits := rfl
@[simp] theorem State.modCore_frames (s : State) (c : Nat) (f : Core → Core) : (s.modCore c f).frames = s.frames := rfl
@[simp] theorem State.modCore_level (s : State) (c : Nat) (f : Core → Core) : (s.modCore c f).level = s.level := rfl
@[simp] theorem State.modCore_links (s : State) (c : Nat) (f : Core → Core) : (s.modCore c f).links = s.links := rfl
@[simp] theorem State.modCore_agenda (s : State) (c : Nat) (f : Core → Core) : (s.modCore c f).agenda = s.agenda := rfl
@[simp] theorem State.modCore_served (s : State) (c : Nat) (f : Core → Core) : (s.modCore c f).served = s.served := rfl
@[simp] theorem State.modCore_tick (s : State) (c : Nat) (f : Core → Core) : (s.modCore c f).tick = s.tick := rfl
@[simp] theorem State.modCore_uid (s : State) (c : Nat) (f : Core → Core) : (s.modCore c f).uid = s.uid := rfl
@[simp] theorem State.modCore_cur (s : State) (c : Nat) (f : Core → Core) : (s.modCore c f).cur = s.cur := rfl

/-! ### modCluster -/

@[simp] theorem State.modCluster_clk (s : State) (c : Nat) (f : Cluster → Cluster) : (s.modCluster c f).clk = s.clk := rfl
@[simp] theorem State.modCluster_groups (s : State) (c : Nat) (f : Cluster → Cluster) : (s.modCluster c f).groups = s.groups := rfl
@[simp] theorem State.modCluster_blocks (s : State) (c : Nat) (f : Cluster → Cluster) : (s.modCluster c f).blocks = s.blocks := rfl
@[simp] theorem State.modCluster_casts (s : State) (c : Nat) (f : Cluster → Cluster) : (s.modCluster c f).casts = s.casts := rfl
@[simp] theorem State.modCluster_cores (s : State) (c : Nat) (f : Cluster → Cluster) : (s.modCluster c f).cores = s.cores := rfl
@[simp] theorem State.modCluster_clusters (s : State) (c : Nat) (f : Cluster → Cluster) : (s.modCluster c f).clusters = s.clusters.insert c (f (s.cluster c)) := rfl
@[simp] theorem State.modCluster_dies (s : State) (c : Nat) (f : Cluster → Cluster) : (s.modCluster c f).dies = s.dies := rfl
@[simp] theorem State.modCluster_mem (s : State) (c : Nat) (f : Cluster → Cluster) : (s.modCluster c f).mem = s.mem := rfl
@[simp] theorem State.modCluster_mpois (s : State) (c : Nat) (f : Cluster → Cluster) : (s.modCluster c f).mpois = s.mpois := rfl
@[simp] theorem State.modCluster_mwritten (s : State) (c : Nat) (f : Cluster → Cluster) : (s.modCluster c f).mwritten = s.mwritten := rfl
@[simp] theorem State.modCluster_mdirty (s : State) (c : Nat) (f : Cluster → Cluster) : (s.modCluster c f).mdirty = s.mdirty := rfl
@[simp] theorem State.modCluster_launches (s : State) (c : Nat) (f : Cluster → Cluster) : (s.modCluster c f).launches = s.launches := rfl
@[simp] theorem State.modCluster_children (s : State) (c : Nat) (f : Cluster → Cluster) : (s.modCluster c f).children = s.children := rfl
@[simp] theorem State.modCluster_pourCount (s : State) (c : Nat) (f : Cluster → Cluster) : (s.modCluster c f).pourCount = s.pourCount := rfl
@[simp] theorem State.modCluster_lastQueue (s : State) (c : Nat) (f : Cluster → Cluster) : (s.modCluster c f).lastQueue = s.lastQueue := rfl
@[simp] theorem State.modCluster_tails (s : State) (c : Nat) (f : Cluster → Cluster) : (s.modCluster c f).tails = s.tails := rfl
@[simp] theorem State.modCluster_packets (s : State) (c : Nat) (f : Cluster → Cluster) : (s.modCluster c f).packets = s.packets := rfl
@[simp] theorem State.modCluster_mbreqs (s : State) (c : Nat) (f : Cluster → Cluster) : (s.modCluster c f).mbreqs = s.mbreqs := rfl
@[simp] theorem State.modCluster_saved (s : State) (c : Nat) (f : Cluster → Cluster) : (s.modCluster c f).saved = s.saved := rfl
@[simp] theorem State.modCluster_hostMsgs (s : State) (c : Nat) (f : Cluster → Cluster) : (s.modCluster c f).hostMsgs = s.hostMsgs := rfl
@[simp] theorem State.modCluster_hostWaits (s : State) (c : Nat) (f : Cluster → Cluster) : (s.modCluster c f).hostWaits = s.hostWaits := rfl
@[simp] theorem State.modCluster_doorWaits (s : State) (c : Nat) (f : Cluster → Cluster) : (s.modCluster c f).doorWaits = s.doorWaits := rfl
@[simp] theorem State.modCluster_frames (s : State) (c : Nat) (f : Cluster → Cluster) : (s.modCluster c f).frames = s.frames := rfl
@[simp] theorem State.modCluster_level (s : State) (c : Nat) (f : Cluster → Cluster) : (s.modCluster c f).level = s.level := rfl
@[simp] theorem State.modCluster_links (s : State) (c : Nat) (f : Cluster → Cluster) : (s.modCluster c f).links = s.links := rfl
@[simp] theorem State.modCluster_agenda (s : State) (c : Nat) (f : Cluster → Cluster) : (s.modCluster c f).agenda = s.agenda := rfl
@[simp] theorem State.modCluster_served (s : State) (c : Nat) (f : Cluster → Cluster) : (s.modCluster c f).served = s.served := rfl
@[simp] theorem State.modCluster_tick (s : State) (c : Nat) (f : Cluster → Cluster) : (s.modCluster c f).tick = s.tick := rfl
@[simp] theorem State.modCluster_uid (s : State) (c : Nat) (f : Cluster → Cluster) : (s.modCluster c f).uid = s.uid := rfl
@[simp] theorem State.modCluster_cur (s : State) (c : Nat) (f : Cluster → Cluster) : (s.modCluster c f).cur = s.cur := rfl

/-! ### modDie -/

@[simp] theorem State.modDie_clk (s : State) (d : Nat) (f : Die → Die) : (s.modDie d f).clk = s.clk := rfl
@[simp] theorem State.modDie_groups (s : State) (d : Nat) (f : Die → Die) : (s.modDie d f).groups = s.groups := rfl
@[simp] theorem State.modDie_blocks (s : State) (d : Nat) (f : Die → Die) : (s.modDie d f).blocks = s.blocks := rfl
@[simp] theorem State.modDie_casts (s : State) (d : Nat) (f : Die → Die) : (s.modDie d f).casts = s.casts := rfl
@[simp] theorem State.modDie_cores (s : State) (d : Nat) (f : Die → Die) : (s.modDie d f).cores = s.cores := rfl
@[simp] theorem State.modDie_clusters (s : State) (d : Nat) (f : Die → Die) : (s.modDie d f).clusters = s.clusters := rfl
@[simp] theorem State.modDie_dies (s : State) (d : Nat) (f : Die → Die) : (s.modDie d f).dies = s.dies.insert d (f (s.die d)) := rfl
@[simp] theorem State.modDie_mem (s : State) (d : Nat) (f : Die → Die) : (s.modDie d f).mem = s.mem := rfl
@[simp] theorem State.modDie_mpois (s : State) (d : Nat) (f : Die → Die) : (s.modDie d f).mpois = s.mpois := rfl
@[simp] theorem State.modDie_mwritten (s : State) (d : Nat) (f : Die → Die) : (s.modDie d f).mwritten = s.mwritten := rfl
@[simp] theorem State.modDie_mdirty (s : State) (d : Nat) (f : Die → Die) : (s.modDie d f).mdirty = s.mdirty := rfl
@[simp] theorem State.modDie_launches (s : State) (d : Nat) (f : Die → Die) : (s.modDie d f).launches = s.launches := rfl
@[simp] theorem State.modDie_children (s : State) (d : Nat) (f : Die → Die) : (s.modDie d f).children = s.children := rfl
@[simp] theorem State.modDie_pourCount (s : State) (d : Nat) (f : Die → Die) : (s.modDie d f).pourCount = s.pourCount := rfl
@[simp] theorem State.modDie_lastQueue (s : State) (d : Nat) (f : Die → Die) : (s.modDie d f).lastQueue = s.lastQueue := rfl
@[simp] theorem State.modDie_tails (s : State) (d : Nat) (f : Die → Die) : (s.modDie d f).tails = s.tails := rfl
@[simp] theorem State.modDie_packets (s : State) (d : Nat) (f : Die → Die) : (s.modDie d f).packets = s.packets := rfl
@[simp] theorem State.modDie_mbreqs (s : State) (d : Nat) (f : Die → Die) : (s.modDie d f).mbreqs = s.mbreqs := rfl
@[simp] theorem State.modDie_saved (s : State) (d : Nat) (f : Die → Die) : (s.modDie d f).saved = s.saved := rfl
@[simp] theorem State.modDie_hostMsgs (s : State) (d : Nat) (f : Die → Die) : (s.modDie d f).hostMsgs = s.hostMsgs := rfl
@[simp] theorem State.modDie_hostWaits (s : State) (d : Nat) (f : Die → Die) : (s.modDie d f).hostWaits = s.hostWaits := rfl
@[simp] theorem State.modDie_doorWaits (s : State) (d : Nat) (f : Die → Die) : (s.modDie d f).doorWaits = s.doorWaits := rfl
@[simp] theorem State.modDie_frames (s : State) (d : Nat) (f : Die → Die) : (s.modDie d f).frames = s.frames := rfl
@[simp] theorem State.modDie_level (s : State) (d : Nat) (f : Die → Die) : (s.modDie d f).level = s.level := rfl
@[simp] theorem State.modDie_links (s : State) (d : Nat) (f : Die → Die) : (s.modDie d f).links = s.links := rfl
@[simp] theorem State.modDie_agenda (s : State) (d : Nat) (f : Die → Die) : (s.modDie d f).agenda = s.agenda := rfl
@[simp] theorem State.modDie_served (s : State) (d : Nat) (f : Die → Die) : (s.modDie d f).served = s.served := rfl
@[simp] theorem State.modDie_tick (s : State) (d : Nat) (f : Die → Die) : (s.modDie d f).tick = s.tick := rfl
@[simp] theorem State.modDie_uid (s : State) (d : Nat) (f : Die → Die) : (s.modDie d f).uid = s.uid := rfl
@[simp] theorem State.modDie_cur (s : State) (d : Nat) (f : Die → Die) : (s.modDie d f).cur = s.cur := rfl

/-! ### setReg -/

@[simp] theorem State.setReg_clk (s : State) (d o : Nat) (v : Word) : (s.setReg d o v).clk = s.clk := rfl
@[simp] theorem State.setReg_groups (s : State) (d o : Nat) (v : Word) : (s.setReg d o v).groups = s.groups := rfl
@[simp] theorem State.setReg_blocks (s : State) (d o : Nat) (v : Word) : (s.setReg d o v).blocks = s.blocks := rfl
@[simp] theorem State.setReg_casts (s : State) (d o : Nat) (v : Word) : (s.setReg d o v).casts = s.casts := rfl
@[simp] theorem State.setReg_cores (s : State) (d o : Nat) (v : Word) : (s.setReg d o v).cores = s.cores := rfl
@[simp] theorem State.setReg_clusters (s : State) (d o : Nat) (v : Word) : (s.setReg d o v).clusters = s.clusters := rfl
@[simp] theorem State.setReg_dies (s : State) (d o : Nat) (v : Word) : (s.setReg d o v).dies = s.dies.insert d ((s.die d).setReg o v) := rfl
@[simp] theorem State.setReg_mem (s : State) (d o : Nat) (v : Word) : (s.setReg d o v).mem = s.mem := rfl
@[simp] theorem State.setReg_mpois (s : State) (d o : Nat) (v : Word) : (s.setReg d o v).mpois = s.mpois := rfl
@[simp] theorem State.setReg_mwritten (s : State) (d o : Nat) (v : Word) : (s.setReg d o v).mwritten = s.mwritten := rfl
@[simp] theorem State.setReg_mdirty (s : State) (d o : Nat) (v : Word) : (s.setReg d o v).mdirty = s.mdirty := rfl
@[simp] theorem State.setReg_launches (s : State) (d o : Nat) (v : Word) : (s.setReg d o v).launches = s.launches := rfl
@[simp] theorem State.setReg_children (s : State) (d o : Nat) (v : Word) : (s.setReg d o v).children = s.children := rfl
@[simp] theorem State.setReg_pourCount (s : State) (d o : Nat) (v : Word) : (s.setReg d o v).pourCount = s.pourCount := rfl
@[simp] theorem State.setReg_lastQueue (s : State) (d o : Nat) (v : Word) : (s.setReg d o v).lastQueue = s.lastQueue := rfl
@[simp] theorem State.setReg_tails (s : State) (d o : Nat) (v : Word) : (s.setReg d o v).tails = s.tails := rfl
@[simp] theorem State.setReg_packets (s : State) (d o : Nat) (v : Word) : (s.setReg d o v).packets = s.packets := rfl
@[simp] theorem State.setReg_mbreqs (s : State) (d o : Nat) (v : Word) : (s.setReg d o v).mbreqs = s.mbreqs := rfl
@[simp] theorem State.setReg_saved (s : State) (d o : Nat) (v : Word) : (s.setReg d o v).saved = s.saved := rfl
@[simp] theorem State.setReg_hostMsgs (s : State) (d o : Nat) (v : Word) : (s.setReg d o v).hostMsgs = s.hostMsgs := rfl
@[simp] theorem State.setReg_hostWaits (s : State) (d o : Nat) (v : Word) : (s.setReg d o v).hostWaits = s.hostWaits := rfl
@[simp] theorem State.setReg_doorWaits (s : State) (d o : Nat) (v : Word) : (s.setReg d o v).doorWaits = s.doorWaits := rfl
@[simp] theorem State.setReg_frames (s : State) (d o : Nat) (v : Word) : (s.setReg d o v).frames = s.frames := rfl
@[simp] theorem State.setReg_level (s : State) (d o : Nat) (v : Word) : (s.setReg d o v).level = s.level := rfl
@[simp] theorem State.setReg_links (s : State) (d o : Nat) (v : Word) : (s.setReg d o v).links = s.links := rfl
@[simp] theorem State.setReg_agenda (s : State) (d o : Nat) (v : Word) : (s.setReg d o v).agenda = s.agenda := rfl
@[simp] theorem State.setReg_served (s : State) (d o : Nat) (v : Word) : (s.setReg d o v).served = s.served := rfl
@[simp] theorem State.setReg_tick (s : State) (d o : Nat) (v : Word) : (s.setReg d o v).tick = s.tick := rfl
@[simp] theorem State.setReg_uid (s : State) (d o : Nat) (v : Word) : (s.setReg d o v).uid = s.uid := rfl
@[simp] theorem State.setReg_cur (s : State) (d o : Nat) (v : Word) : (s.setReg d o v).cur = s.cur := rfl

/-! ### logErr -/

@[simp] theorem State.logErr_clk (s : State) (d : Nat) (e : LogEnt) : (s.logErr d e).clk = s.clk := rfl
@[simp] theorem State.logErr_groups (s : State) (d : Nat) (e : LogEnt) : (s.logErr d e).groups = s.groups := rfl
@[simp] theorem State.logErr_blocks (s : State) (d : Nat) (e : LogEnt) : (s.logErr d e).blocks = s.blocks := rfl
@[simp] theorem State.logErr_casts (s : State) (d : Nat) (e : LogEnt) : (s.logErr d e).casts = s.casts := rfl
@[simp] theorem State.logErr_cores (s : State) (d : Nat) (e : LogEnt) : (s.logErr d e).cores = s.cores := rfl
@[simp] theorem State.logErr_clusters (s : State) (d : Nat) (e : LogEnt) : (s.logErr d e).clusters = s.clusters := rfl
@[simp] theorem State.logErr_dies (s : State) (d : Nat) (e : LogEnt) : (s.logErr d e).dies = s.dies.insert d { s.die d with log := (s.die d).log ++ [e] } := rfl
@[simp] theorem State.logErr_mem (s : State) (d : Nat) (e : LogEnt) : (s.logErr d e).mem = s.mem := rfl
@[simp] theorem State.logErr_mpois (s : State) (d : Nat) (e : LogEnt) : (s.logErr d e).mpois = s.mpois := rfl
@[simp] theorem State.logErr_mwritten (s : State) (d : Nat) (e : LogEnt) : (s.logErr d e).mwritten = s.mwritten := rfl
@[simp] theorem State.logErr_mdirty (s : State) (d : Nat) (e : LogEnt) : (s.logErr d e).mdirty = s.mdirty := rfl
@[simp] theorem State.logErr_launches (s : State) (d : Nat) (e : LogEnt) : (s.logErr d e).launches = s.launches := rfl
@[simp] theorem State.logErr_children (s : State) (d : Nat) (e : LogEnt) : (s.logErr d e).children = s.children := rfl
@[simp] theorem State.logErr_pourCount (s : State) (d : Nat) (e : LogEnt) : (s.logErr d e).pourCount = s.pourCount := rfl
@[simp] theorem State.logErr_lastQueue (s : State) (d : Nat) (e : LogEnt) : (s.logErr d e).lastQueue = s.lastQueue := rfl
@[simp] theorem State.logErr_tails (s : State) (d : Nat) (e : LogEnt) : (s.logErr d e).tails = s.tails := rfl
@[simp] theorem State.logErr_packets (s : State) (d : Nat) (e : LogEnt) : (s.logErr d e).packets = s.packets := rfl
@[simp] theorem State.logErr_mbreqs (s : State) (d : Nat) (e : LogEnt) : (s.logErr d e).mbreqs = s.mbreqs := rfl
@[simp] theorem State.logErr_saved (s : State) (d : Nat) (e : LogEnt) : (s.logErr d e).saved = s.saved := rfl
@[simp] theorem State.logErr_hostMsgs (s : State) (d : Nat) (e : LogEnt) : (s.logErr d e).hostMsgs = s.hostMsgs := rfl
@[simp] theorem State.logErr_hostWaits (s : State) (d : Nat) (e : LogEnt) : (s.logErr d e).hostWaits = s.hostWaits := rfl
@[simp] theorem State.logErr_doorWaits (s : State) (d : Nat) (e : LogEnt) : (s.logErr d e).doorWaits = s.doorWaits := rfl
@[simp] theorem State.logErr_frames (s : State) (d : Nat) (e : LogEnt) : (s.logErr d e).frames = s.frames := rfl
@[simp] theorem State.logErr_level (s : State) (d : Nat) (e : LogEnt) : (s.logErr d e).level = s.level := rfl
@[simp] theorem State.logErr_links (s : State) (d : Nat) (e : LogEnt) : (s.logErr d e).links = s.links := rfl
@[simp] theorem State.logErr_agenda (s : State) (d : Nat) (e : LogEnt) : (s.logErr d e).agenda = s.agenda := rfl
@[simp] theorem State.logErr_served (s : State) (d : Nat) (e : LogEnt) : (s.logErr d e).served = s.served := rfl
@[simp] theorem State.logErr_tick (s : State) (d : Nat) (e : LogEnt) : (s.logErr d e).tick = s.tick := rfl
@[simp] theorem State.logErr_uid (s : State) (d : Nat) (e : LogEnt) : (s.logErr d e).uid = s.uid := rfl
@[simp] theorem State.logErr_cur (s : State) (d : Nat) (e : LogEnt) : (s.logErr d e).cur = s.cur := rfl

/-! ### modGroup -/

@[simp] theorem State.modGroup_clk (s : State) (g : Nat) (f : Group → Group) : (s.modGroup g f).clk = s.clk := rfl
@[simp] theorem State.modGroup_groups (s : State) (g : Nat) (f : Group → Group) : (s.modGroup g f).groups = s.groups.modify g f := rfl
@[simp] theorem State.modGroup_blocks (s : State) (g : Nat) (f : Group → Group) : (s.modGroup g f).blocks = s.blocks := rfl
@[simp] theorem State.modGroup_casts (s : State) (g : Nat) (f : Group → Group) : (s.modGroup g f).casts = s.casts := rfl
@[simp] theorem State.modGroup_cores (s : State) (g : Nat) (f : Group → Group) : (s.modGroup g f).cores = s.cores := rfl
@[simp] theorem State.modGroup_clusters (s : State) (g : Nat) (f : Group → Group) : (s.modGroup g f).clusters = s.clusters := rfl
@[simp] theorem State.modGroup_dies (s : State) (g : Nat) (f : Group → Group) : (s.modGroup g f).dies = s.dies := rfl
@[simp] theorem State.modGroup_mem (s : State) (g : Nat) (f : Group → Group) : (s.modGroup g f).mem = s.mem := rfl
@[simp] theorem State.modGroup_mpois (s : State) (g : Nat) (f : Group → Group) : (s.modGroup g f).mpois = s.mpois := rfl
@[simp] theorem State.modGroup_mwritten (s : State) (g : Nat) (f : Group → Group) : (s.modGroup g f).mwritten = s.mwritten := rfl
@[simp] theorem State.modGroup_mdirty (s : State) (g : Nat) (f : Group → Group) : (s.modGroup g f).mdirty = s.mdirty := rfl
@[simp] theorem State.modGroup_launches (s : State) (g : Nat) (f : Group → Group) : (s.modGroup g f).launches = s.launches := rfl
@[simp] theorem State.modGroup_children (s : State) (g : Nat) (f : Group → Group) : (s.modGroup g f).children = s.children := rfl
@[simp] theorem State.modGroup_pourCount (s : State) (g : Nat) (f : Group → Group) : (s.modGroup g f).pourCount = s.pourCount := rfl
@[simp] theorem State.modGroup_lastQueue (s : State) (g : Nat) (f : Group → Group) : (s.modGroup g f).lastQueue = s.lastQueue := rfl
@[simp] theorem State.modGroup_tails (s : State) (g : Nat) (f : Group → Group) : (s.modGroup g f).tails = s.tails := rfl
@[simp] theorem State.modGroup_packets (s : State) (g : Nat) (f : Group → Group) : (s.modGroup g f).packets = s.packets := rfl
@[simp] theorem State.modGroup_mbreqs (s : State) (g : Nat) (f : Group → Group) : (s.modGroup g f).mbreqs = s.mbreqs := rfl
@[simp] theorem State.modGroup_saved (s : State) (g : Nat) (f : Group → Group) : (s.modGroup g f).saved = s.saved := rfl
@[simp] theorem State.modGroup_hostMsgs (s : State) (g : Nat) (f : Group → Group) : (s.modGroup g f).hostMsgs = s.hostMsgs := rfl
@[simp] theorem State.modGroup_hostWaits (s : State) (g : Nat) (f : Group → Group) : (s.modGroup g f).hostWaits = s.hostWaits := rfl
@[simp] theorem State.modGroup_doorWaits (s : State) (g : Nat) (f : Group → Group) : (s.modGroup g f).doorWaits = s.doorWaits := rfl
@[simp] theorem State.modGroup_frames (s : State) (g : Nat) (f : Group → Group) : (s.modGroup g f).frames = s.frames := rfl
@[simp] theorem State.modGroup_level (s : State) (g : Nat) (f : Group → Group) : (s.modGroup g f).level = s.level := rfl
@[simp] theorem State.modGroup_links (s : State) (g : Nat) (f : Group → Group) : (s.modGroup g f).links = s.links := rfl
@[simp] theorem State.modGroup_agenda (s : State) (g : Nat) (f : Group → Group) : (s.modGroup g f).agenda = s.agenda := rfl
@[simp] theorem State.modGroup_served (s : State) (g : Nat) (f : Group → Group) : (s.modGroup g f).served = s.served := rfl
@[simp] theorem State.modGroup_tick (s : State) (g : Nat) (f : Group → Group) : (s.modGroup g f).tick = s.tick := rfl
@[simp] theorem State.modGroup_uid (s : State) (g : Nat) (f : Group → Group) : (s.modGroup g f).uid = s.uid := rfl
@[simp] theorem State.modGroup_cur (s : State) (g : Nat) (f : Group → Group) : (s.modGroup g f).cur = s.cur := rfl

/-! ### modGrp -/

@[simp] theorem State.modGrp_clk (s : State) (f : Group → Group) : (s.modGrp f).clk = s.clk := rfl
@[simp] theorem State.modGrp_groups (s : State) (f : Group → Group) : (s.modGrp f).groups = s.groups.modify s.cur.gid f := rfl
@[simp] theorem State.modGrp_blocks (s : State) (f : Group → Group) : (s.modGrp f).blocks = s.blocks := rfl
@[simp] theorem State.modGrp_casts (s : State) (f : Group → Group) : (s.modGrp f).casts = s.casts := rfl
@[simp] theorem State.modGrp_cores (s : State) (f : Group → Group) : (s.modGrp f).cores = s.cores := rfl
@[simp] theorem State.modGrp_clusters (s : State) (f : Group → Group) : (s.modGrp f).clusters = s.clusters := rfl
@[simp] theorem State.modGrp_dies (s : State) (f : Group → Group) : (s.modGrp f).dies = s.dies := rfl
@[simp] theorem State.modGrp_mem (s : State) (f : Group → Group) : (s.modGrp f).mem = s.mem := rfl
@[simp] theorem State.modGrp_mpois (s : State) (f : Group → Group) : (s.modGrp f).mpois = s.mpois := rfl
@[simp] theorem State.modGrp_mwritten (s : State) (f : Group → Group) : (s.modGrp f).mwritten = s.mwritten := rfl
@[simp] theorem State.modGrp_mdirty (s : State) (f : Group → Group) : (s.modGrp f).mdirty = s.mdirty := rfl
@[simp] theorem State.modGrp_launches (s : State) (f : Group → Group) : (s.modGrp f).launches = s.launches := rfl
@[simp] theorem State.modGrp_children (s : State) (f : Group → Group) : (s.modGrp f).children = s.children := rfl
@[simp] theorem State.modGrp_pourCount (s : State) (f : Group → Group) : (s.modGrp f).pourCount = s.pourCount := rfl
@[simp] theorem State.modGrp_lastQueue (s : State) (f : Group → Group) : (s.modGrp f).lastQueue = s.lastQueue := rfl
@[simp] theorem State.modGrp_tails (s : State) (f : Group → Group) : (s.modGrp f).tails = s.tails := rfl
@[simp] theorem State.modGrp_packets (s : State) (f : Group → Group) : (s.modGrp f).packets = s.packets := rfl
@[simp] theorem State.modGrp_mbreqs (s : State) (f : Group → Group) : (s.modGrp f).mbreqs = s.mbreqs := rfl
@[simp] theorem State.modGrp_saved (s : State) (f : Group → Group) : (s.modGrp f).saved = s.saved := rfl
@[simp] theorem State.modGrp_hostMsgs (s : State) (f : Group → Group) : (s.modGrp f).hostMsgs = s.hostMsgs := rfl
@[simp] theorem State.modGrp_hostWaits (s : State) (f : Group → Group) : (s.modGrp f).hostWaits = s.hostWaits := rfl
@[simp] theorem State.modGrp_doorWaits (s : State) (f : Group → Group) : (s.modGrp f).doorWaits = s.doorWaits := rfl
@[simp] theorem State.modGrp_frames (s : State) (f : Group → Group) : (s.modGrp f).frames = s.frames := rfl
@[simp] theorem State.modGrp_level (s : State) (f : Group → Group) : (s.modGrp f).level = s.level := rfl
@[simp] theorem State.modGrp_links (s : State) (f : Group → Group) : (s.modGrp f).links = s.links := rfl
@[simp] theorem State.modGrp_agenda (s : State) (f : Group → Group) : (s.modGrp f).agenda = s.agenda := rfl
@[simp] theorem State.modGrp_served (s : State) (f : Group → Group) : (s.modGrp f).served = s.served := rfl
@[simp] theorem State.modGrp_tick (s : State) (f : Group → Group) : (s.modGrp f).tick = s.tick := rfl
@[simp] theorem State.modGrp_uid (s : State) (f : Group → Group) : (s.modGrp f).uid = s.uid := rfl
@[simp] theorem State.modGrp_cur (s : State) (f : Group → Group) : (s.modGrp f).cur = s.cur := rfl

/-! ### modSpl -/

@[simp] theorem State.modSpl_clk (s : State) (f : Split → Split) : (s.modSpl f).clk = s.clk := rfl
@[simp] theorem State.modSpl_groups (s : State) (f : Split → Split) : (s.modSpl f).groups = s.groups.modify s.cur.gid fun g => g.modSplit s.cur.ent f := rfl
@[simp] theorem State.modSpl_blocks (s : State) (f : Split → Split) : (s.modSpl f).blocks = s.blocks := rfl
@[simp] theorem State.modSpl_casts (s : State) (f : Split → Split) : (s.modSpl f).casts = s.casts := rfl
@[simp] theorem State.modSpl_cores (s : State) (f : Split → Split) : (s.modSpl f).cores = s.cores := rfl
@[simp] theorem State.modSpl_clusters (s : State) (f : Split → Split) : (s.modSpl f).clusters = s.clusters := rfl
@[simp] theorem State.modSpl_dies (s : State) (f : Split → Split) : (s.modSpl f).dies = s.dies := rfl
@[simp] theorem State.modSpl_mem (s : State) (f : Split → Split) : (s.modSpl f).mem = s.mem := rfl
@[simp] theorem State.modSpl_mpois (s : State) (f : Split → Split) : (s.modSpl f).mpois = s.mpois := rfl
@[simp] theorem State.modSpl_mwritten (s : State) (f : Split → Split) : (s.modSpl f).mwritten = s.mwritten := rfl
@[simp] theorem State.modSpl_mdirty (s : State) (f : Split → Split) : (s.modSpl f).mdirty = s.mdirty := rfl
@[simp] theorem State.modSpl_launches (s : State) (f : Split → Split) : (s.modSpl f).launches = s.launches := rfl
@[simp] theorem State.modSpl_children (s : State) (f : Split → Split) : (s.modSpl f).children = s.children := rfl
@[simp] theorem State.modSpl_pourCount (s : State) (f : Split → Split) : (s.modSpl f).pourCount = s.pourCount := rfl
@[simp] theorem State.modSpl_lastQueue (s : State) (f : Split → Split) : (s.modSpl f).lastQueue = s.lastQueue := rfl
@[simp] theorem State.modSpl_tails (s : State) (f : Split → Split) : (s.modSpl f).tails = s.tails := rfl
@[simp] theorem State.modSpl_packets (s : State) (f : Split → Split) : (s.modSpl f).packets = s.packets := rfl
@[simp] theorem State.modSpl_mbreqs (s : State) (f : Split → Split) : (s.modSpl f).mbreqs = s.mbreqs := rfl
@[simp] theorem State.modSpl_saved (s : State) (f : Split → Split) : (s.modSpl f).saved = s.saved := rfl
@[simp] theorem State.modSpl_hostMsgs (s : State) (f : Split → Split) : (s.modSpl f).hostMsgs = s.hostMsgs := rfl
@[simp] theorem State.modSpl_hostWaits (s : State) (f : Split → Split) : (s.modSpl f).hostWaits = s.hostWaits := rfl
@[simp] theorem State.modSpl_doorWaits (s : State) (f : Split → Split) : (s.modSpl f).doorWaits = s.doorWaits := rfl
@[simp] theorem State.modSpl_frames (s : State) (f : Split → Split) : (s.modSpl f).frames = s.frames := rfl
@[simp] theorem State.modSpl_level (s : State) (f : Split → Split) : (s.modSpl f).level = s.level := rfl
@[simp] theorem State.modSpl_links (s : State) (f : Split → Split) : (s.modSpl f).links = s.links := rfl
@[simp] theorem State.modSpl_agenda (s : State) (f : Split → Split) : (s.modSpl f).agenda = s.agenda := rfl
@[simp] theorem State.modSpl_served (s : State) (f : Split → Split) : (s.modSpl f).served = s.served := rfl
@[simp] theorem State.modSpl_tick (s : State) (f : Split → Split) : (s.modSpl f).tick = s.tick := rfl
@[simp] theorem State.modSpl_uid (s : State) (f : Split → Split) : (s.modSpl f).uid = s.uid := rfl
@[simp] theorem State.modSpl_cur (s : State) (f : Split → Split) : (s.modSpl f).cur = s.cur := rfl

/-! ### modBlock -/

@[simp] theorem State.modBlock_clk (s : State) (b : Nat) (f : Block → Block) : (s.modBlock b f).clk = s.clk := rfl
@[simp] theorem State.modBlock_groups (s : State) (b : Nat) (f : Block → Block) : (s.modBlock b f).groups = s.groups := rfl
@[simp] theorem State.modBlock_blocks (s : State) (b : Nat) (f : Block → Block) : (s.modBlock b f).blocks = s.blocks.modify b f := rfl
@[simp] theorem State.modBlock_casts (s : State) (b : Nat) (f : Block → Block) : (s.modBlock b f).casts = s.casts := rfl
@[simp] theorem State.modBlock_cores (s : State) (b : Nat) (f : Block → Block) : (s.modBlock b f).cores = s.cores := rfl
@[simp] theorem State.modBlock_clusters (s : State) (b : Nat) (f : Block → Block) : (s.modBlock b f).clusters = s.clusters := rfl
@[simp] theorem State.modBlock_dies (s : State) (b : Nat) (f : Block → Block) : (s.modBlock b f).dies = s.dies := rfl
@[simp] theorem State.modBlock_mem (s : State) (b : Nat) (f : Block → Block) : (s.modBlock b f).mem = s.mem := rfl
@[simp] theorem State.modBlock_mpois (s : State) (b : Nat) (f : Block → Block) : (s.modBlock b f).mpois = s.mpois := rfl
@[simp] theorem State.modBlock_mwritten (s : State) (b : Nat) (f : Block → Block) : (s.modBlock b f).mwritten = s.mwritten := rfl
@[simp] theorem State.modBlock_mdirty (s : State) (b : Nat) (f : Block → Block) : (s.modBlock b f).mdirty = s.mdirty := rfl
@[simp] theorem State.modBlock_launches (s : State) (b : Nat) (f : Block → Block) : (s.modBlock b f).launches = s.launches := rfl
@[simp] theorem State.modBlock_children (s : State) (b : Nat) (f : Block → Block) : (s.modBlock b f).children = s.children := rfl
@[simp] theorem State.modBlock_pourCount (s : State) (b : Nat) (f : Block → Block) : (s.modBlock b f).pourCount = s.pourCount := rfl
@[simp] theorem State.modBlock_lastQueue (s : State) (b : Nat) (f : Block → Block) : (s.modBlock b f).lastQueue = s.lastQueue := rfl
@[simp] theorem State.modBlock_tails (s : State) (b : Nat) (f : Block → Block) : (s.modBlock b f).tails = s.tails := rfl
@[simp] theorem State.modBlock_packets (s : State) (b : Nat) (f : Block → Block) : (s.modBlock b f).packets = s.packets := rfl
@[simp] theorem State.modBlock_mbreqs (s : State) (b : Nat) (f : Block → Block) : (s.modBlock b f).mbreqs = s.mbreqs := rfl
@[simp] theorem State.modBlock_saved (s : State) (b : Nat) (f : Block → Block) : (s.modBlock b f).saved = s.saved := rfl
@[simp] theorem State.modBlock_hostMsgs (s : State) (b : Nat) (f : Block → Block) : (s.modBlock b f).hostMsgs = s.hostMsgs := rfl
@[simp] theorem State.modBlock_hostWaits (s : State) (b : Nat) (f : Block → Block) : (s.modBlock b f).hostWaits = s.hostWaits := rfl
@[simp] theorem State.modBlock_doorWaits (s : State) (b : Nat) (f : Block → Block) : (s.modBlock b f).doorWaits = s.doorWaits := rfl
@[simp] theorem State.modBlock_frames (s : State) (b : Nat) (f : Block → Block) : (s.modBlock b f).frames = s.frames := rfl
@[simp] theorem State.modBlock_level (s : State) (b : Nat) (f : Block → Block) : (s.modBlock b f).level = s.level := rfl
@[simp] theorem State.modBlock_links (s : State) (b : Nat) (f : Block → Block) : (s.modBlock b f).links = s.links := rfl
@[simp] theorem State.modBlock_agenda (s : State) (b : Nat) (f : Block → Block) : (s.modBlock b f).agenda = s.agenda := rfl
@[simp] theorem State.modBlock_served (s : State) (b : Nat) (f : Block → Block) : (s.modBlock b f).served = s.served := rfl
@[simp] theorem State.modBlock_tick (s : State) (b : Nat) (f : Block → Block) : (s.modBlock b f).tick = s.tick := rfl
@[simp] theorem State.modBlock_uid (s : State) (b : Nat) (f : Block → Block) : (s.modBlock b f).uid = s.uid := rfl
@[simp] theorem State.modBlock_cur (s : State) (b : Nat) (f : Block → Block) : (s.modBlock b f).cur = s.cur := rfl

/-! ### modCast -/

@[simp] theorem State.modCast_clk (s : State) (c : Nat) (f : CastSt → CastSt) : (s.modCast c f).clk = s.clk := rfl
@[simp] theorem State.modCast_groups (s : State) (c : Nat) (f : CastSt → CastSt) : (s.modCast c f).groups = s.groups := rfl
@[simp] theorem State.modCast_blocks (s : State) (c : Nat) (f : CastSt → CastSt) : (s.modCast c f).blocks = s.blocks := rfl
@[simp] theorem State.modCast_casts (s : State) (c : Nat) (f : CastSt → CastSt) : (s.modCast c f).casts = s.casts.modify c f := rfl
@[simp] theorem State.modCast_cores (s : State) (c : Nat) (f : CastSt → CastSt) : (s.modCast c f).cores = s.cores := rfl
@[simp] theorem State.modCast_clusters (s : State) (c : Nat) (f : CastSt → CastSt) : (s.modCast c f).clusters = s.clusters := rfl
@[simp] theorem State.modCast_dies (s : State) (c : Nat) (f : CastSt → CastSt) : (s.modCast c f).dies = s.dies := rfl
@[simp] theorem State.modCast_mem (s : State) (c : Nat) (f : CastSt → CastSt) : (s.modCast c f).mem = s.mem := rfl
@[simp] theorem State.modCast_mpois (s : State) (c : Nat) (f : CastSt → CastSt) : (s.modCast c f).mpois = s.mpois := rfl
@[simp] theorem State.modCast_mwritten (s : State) (c : Nat) (f : CastSt → CastSt) : (s.modCast c f).mwritten = s.mwritten := rfl
@[simp] theorem State.modCast_mdirty (s : State) (c : Nat) (f : CastSt → CastSt) : (s.modCast c f).mdirty = s.mdirty := rfl
@[simp] theorem State.modCast_launches (s : State) (c : Nat) (f : CastSt → CastSt) : (s.modCast c f).launches = s.launches := rfl
@[simp] theorem State.modCast_children (s : State) (c : Nat) (f : CastSt → CastSt) : (s.modCast c f).children = s.children := rfl
@[simp] theorem State.modCast_pourCount (s : State) (c : Nat) (f : CastSt → CastSt) : (s.modCast c f).pourCount = s.pourCount := rfl
@[simp] theorem State.modCast_lastQueue (s : State) (c : Nat) (f : CastSt → CastSt) : (s.modCast c f).lastQueue = s.lastQueue := rfl
@[simp] theorem State.modCast_tails (s : State) (c : Nat) (f : CastSt → CastSt) : (s.modCast c f).tails = s.tails := rfl
@[simp] theorem State.modCast_packets (s : State) (c : Nat) (f : CastSt → CastSt) : (s.modCast c f).packets = s.packets := rfl
@[simp] theorem State.modCast_mbreqs (s : State) (c : Nat) (f : CastSt → CastSt) : (s.modCast c f).mbreqs = s.mbreqs := rfl
@[simp] theorem State.modCast_saved (s : State) (c : Nat) (f : CastSt → CastSt) : (s.modCast c f).saved = s.saved := rfl
@[simp] theorem State.modCast_hostMsgs (s : State) (c : Nat) (f : CastSt → CastSt) : (s.modCast c f).hostMsgs = s.hostMsgs := rfl
@[simp] theorem State.modCast_hostWaits (s : State) (c : Nat) (f : CastSt → CastSt) : (s.modCast c f).hostWaits = s.hostWaits := rfl
@[simp] theorem State.modCast_doorWaits (s : State) (c : Nat) (f : CastSt → CastSt) : (s.modCast c f).doorWaits = s.doorWaits := rfl
@[simp] theorem State.modCast_frames (s : State) (c : Nat) (f : CastSt → CastSt) : (s.modCast c f).frames = s.frames := rfl
@[simp] theorem State.modCast_level (s : State) (c : Nat) (f : CastSt → CastSt) : (s.modCast c f).level = s.level := rfl
@[simp] theorem State.modCast_links (s : State) (c : Nat) (f : CastSt → CastSt) : (s.modCast c f).links = s.links := rfl
@[simp] theorem State.modCast_agenda (s : State) (c : Nat) (f : CastSt → CastSt) : (s.modCast c f).agenda = s.agenda := rfl
@[simp] theorem State.modCast_served (s : State) (c : Nat) (f : CastSt → CastSt) : (s.modCast c f).served = s.served := rfl
@[simp] theorem State.modCast_tick (s : State) (c : Nat) (f : CastSt → CastSt) : (s.modCast c f).tick = s.tick := rfl
@[simp] theorem State.modCast_uid (s : State) (c : Nat) (f : CastSt → CastSt) : (s.modCast c f).uid = s.uid := rfl
@[simp] theorem State.modCast_cur (s : State) (c : Nat) (f : CastSt → CastSt) : (s.modCast c f).cur = s.cur := rfl

/-! ### modCur -/

@[simp] theorem State.modCur_clk (s : State) (f : Issue → Issue) : (s.modCur f).clk = s.clk := rfl
@[simp] theorem State.modCur_groups (s : State) (f : Issue → Issue) : (s.modCur f).groups = s.groups := rfl
@[simp] theorem State.modCur_blocks (s : State) (f : Issue → Issue) : (s.modCur f).blocks = s.blocks := rfl
@[simp] theorem State.modCur_casts (s : State) (f : Issue → Issue) : (s.modCur f).casts = s.casts := rfl
@[simp] theorem State.modCur_cores (s : State) (f : Issue → Issue) : (s.modCur f).cores = s.cores := rfl
@[simp] theorem State.modCur_clusters (s : State) (f : Issue → Issue) : (s.modCur f).clusters = s.clusters := rfl
@[simp] theorem State.modCur_dies (s : State) (f : Issue → Issue) : (s.modCur f).dies = s.dies := rfl
@[simp] theorem State.modCur_mem (s : State) (f : Issue → Issue) : (s.modCur f).mem = s.mem := rfl
@[simp] theorem State.modCur_mpois (s : State) (f : Issue → Issue) : (s.modCur f).mpois = s.mpois := rfl
@[simp] theorem State.modCur_mwritten (s : State) (f : Issue → Issue) : (s.modCur f).mwritten = s.mwritten := rfl
@[simp] theorem State.modCur_mdirty (s : State) (f : Issue → Issue) : (s.modCur f).mdirty = s.mdirty := rfl
@[simp] theorem State.modCur_launches (s : State) (f : Issue → Issue) : (s.modCur f).launches = s.launches := rfl
@[simp] theorem State.modCur_children (s : State) (f : Issue → Issue) : (s.modCur f).children = s.children := rfl
@[simp] theorem State.modCur_pourCount (s : State) (f : Issue → Issue) : (s.modCur f).pourCount = s.pourCount := rfl
@[simp] theorem State.modCur_lastQueue (s : State) (f : Issue → Issue) : (s.modCur f).lastQueue = s.lastQueue := rfl
@[simp] theorem State.modCur_tails (s : State) (f : Issue → Issue) : (s.modCur f).tails = s.tails := rfl
@[simp] theorem State.modCur_packets (s : State) (f : Issue → Issue) : (s.modCur f).packets = s.packets := rfl
@[simp] theorem State.modCur_mbreqs (s : State) (f : Issue → Issue) : (s.modCur f).mbreqs = s.mbreqs := rfl
@[simp] theorem State.modCur_saved (s : State) (f : Issue → Issue) : (s.modCur f).saved = s.saved := rfl
@[simp] theorem State.modCur_hostMsgs (s : State) (f : Issue → Issue) : (s.modCur f).hostMsgs = s.hostMsgs := rfl
@[simp] theorem State.modCur_hostWaits (s : State) (f : Issue → Issue) : (s.modCur f).hostWaits = s.hostWaits := rfl
@[simp] theorem State.modCur_doorWaits (s : State) (f : Issue → Issue) : (s.modCur f).doorWaits = s.doorWaits := rfl
@[simp] theorem State.modCur_frames (s : State) (f : Issue → Issue) : (s.modCur f).frames = s.frames := rfl
@[simp] theorem State.modCur_level (s : State) (f : Issue → Issue) : (s.modCur f).level = s.level := rfl
@[simp] theorem State.modCur_links (s : State) (f : Issue → Issue) : (s.modCur f).links = s.links := rfl
@[simp] theorem State.modCur_agenda (s : State) (f : Issue → Issue) : (s.modCur f).agenda = s.agenda := rfl
@[simp] theorem State.modCur_served (s : State) (f : Issue → Issue) : (s.modCur f).served = s.served := rfl
@[simp] theorem State.modCur_tick (s : State) (f : Issue → Issue) : (s.modCur f).tick = s.tick := rfl
@[simp] theorem State.modCur_uid (s : State) (f : Issue → Issue) : (s.modCur f).uid = s.uid := rfl
@[simp] theorem State.modCur_cur (s : State) (f : Issue → Issue) : (s.modCur f).cur = f s.cur := rfl

/-! ### setFlow -/

@[simp] theorem State.setFlow_clk (s : State) (f : Flow) : (s.setFlow f).clk = s.clk := rfl
@[simp] theorem State.setFlow_groups (s : State) (f : Flow) : (s.setFlow f).groups = s.groups := rfl
@[simp] theorem State.setFlow_blocks (s : State) (f : Flow) : (s.setFlow f).blocks = s.blocks := rfl
@[simp] theorem State.setFlow_casts (s : State) (f : Flow) : (s.setFlow f).casts = s.casts := rfl
@[simp] theorem State.setFlow_cores (s : State) (f : Flow) : (s.setFlow f).cores = s.cores := rfl
@[simp] theorem State.setFlow_clusters (s : State) (f : Flow) : (s.setFlow f).clusters = s.clusters := rfl
@[simp] theorem State.setFlow_dies (s : State) (f : Flow) : (s.setFlow f).dies = s.dies := rfl
@[simp] theorem State.setFlow_mem (s : State) (f : Flow) : (s.setFlow f).mem = s.mem := rfl
@[simp] theorem State.setFlow_mpois (s : State) (f : Flow) : (s.setFlow f).mpois = s.mpois := rfl
@[simp] theorem State.setFlow_mwritten (s : State) (f : Flow) : (s.setFlow f).mwritten = s.mwritten := rfl
@[simp] theorem State.setFlow_mdirty (s : State) (f : Flow) : (s.setFlow f).mdirty = s.mdirty := rfl
@[simp] theorem State.setFlow_launches (s : State) (f : Flow) : (s.setFlow f).launches = s.launches := rfl
@[simp] theorem State.setFlow_children (s : State) (f : Flow) : (s.setFlow f).children = s.children := rfl
@[simp] theorem State.setFlow_pourCount (s : State) (f : Flow) : (s.setFlow f).pourCount = s.pourCount := rfl
@[simp] theorem State.setFlow_lastQueue (s : State) (f : Flow) : (s.setFlow f).lastQueue = s.lastQueue := rfl
@[simp] theorem State.setFlow_tails (s : State) (f : Flow) : (s.setFlow f).tails = s.tails := rfl
@[simp] theorem State.setFlow_packets (s : State) (f : Flow) : (s.setFlow f).packets = s.packets := rfl
@[simp] theorem State.setFlow_mbreqs (s : State) (f : Flow) : (s.setFlow f).mbreqs = s.mbreqs := rfl
@[simp] theorem State.setFlow_saved (s : State) (f : Flow) : (s.setFlow f).saved = s.saved := rfl
@[simp] theorem State.setFlow_hostMsgs (s : State) (f : Flow) : (s.setFlow f).hostMsgs = s.hostMsgs := rfl
@[simp] theorem State.setFlow_hostWaits (s : State) (f : Flow) : (s.setFlow f).hostWaits = s.hostWaits := rfl
@[simp] theorem State.setFlow_doorWaits (s : State) (f : Flow) : (s.setFlow f).doorWaits = s.doorWaits := rfl
@[simp] theorem State.setFlow_frames (s : State) (f : Flow) : (s.setFlow f).frames = s.frames := rfl
@[simp] theorem State.setFlow_level (s : State) (f : Flow) : (s.setFlow f).level = s.level := rfl
@[simp] theorem State.setFlow_links (s : State) (f : Flow) : (s.setFlow f).links = s.links := rfl
@[simp] theorem State.setFlow_agenda (s : State) (f : Flow) : (s.setFlow f).agenda = s.agenda := rfl
@[simp] theorem State.setFlow_served (s : State) (f : Flow) : (s.setFlow f).served = s.served := rfl
@[simp] theorem State.setFlow_tick (s : State) (f : Flow) : (s.setFlow f).tick = s.tick := rfl
@[simp] theorem State.setFlow_uid (s : State) (f : Flow) : (s.setFlow f).uid = s.uid := rfl
@[simp] theorem State.setFlow_cur (s : State) (f : Flow) : (s.setFlow f).cur = { s.cur with flow := f } := rfl

/-! ### bump -/

@[simp] theorem State.bump_clk (s : State) : s.bump.clk = s.clk := rfl
@[simp] theorem State.bump_groups (s : State) : s.bump.groups = s.groups := rfl
@[simp] theorem State.bump_blocks (s : State) : s.bump.blocks = s.blocks := rfl
@[simp] theorem State.bump_casts (s : State) : s.bump.casts = s.casts := rfl
@[simp] theorem State.bump_cores (s : State) : s.bump.cores = s.cores := rfl
@[simp] theorem State.bump_clusters (s : State) : s.bump.clusters = s.clusters := rfl
@[simp] theorem State.bump_dies (s : State) : s.bump.dies = s.dies := rfl
@[simp] theorem State.bump_mem (s : State) : s.bump.mem = s.mem := rfl
@[simp] theorem State.bump_mpois (s : State) : s.bump.mpois = s.mpois := rfl
@[simp] theorem State.bump_mwritten (s : State) : s.bump.mwritten = s.mwritten := rfl
@[simp] theorem State.bump_mdirty (s : State) : s.bump.mdirty = s.mdirty := rfl
@[simp] theorem State.bump_launches (s : State) : s.bump.launches = s.launches := rfl
@[simp] theorem State.bump_children (s : State) : s.bump.children = s.children := rfl
@[simp] theorem State.bump_pourCount (s : State) : s.bump.pourCount = s.pourCount := rfl
@[simp] theorem State.bump_lastQueue (s : State) : s.bump.lastQueue = s.lastQueue := rfl
@[simp] theorem State.bump_tails (s : State) : s.bump.tails = s.tails := rfl
@[simp] theorem State.bump_packets (s : State) : s.bump.packets = s.packets := rfl
@[simp] theorem State.bump_mbreqs (s : State) : s.bump.mbreqs = s.mbreqs := rfl
@[simp] theorem State.bump_saved (s : State) : s.bump.saved = s.saved := rfl
@[simp] theorem State.bump_hostMsgs (s : State) : s.bump.hostMsgs = s.hostMsgs := rfl
@[simp] theorem State.bump_hostWaits (s : State) : s.bump.hostWaits = s.hostWaits := rfl
@[simp] theorem State.bump_doorWaits (s : State) : s.bump.doorWaits = s.doorWaits := rfl
@[simp] theorem State.bump_frames (s : State) : s.bump.frames = s.frames := rfl
@[simp] theorem State.bump_level (s : State) : s.bump.level = s.level := rfl
@[simp] theorem State.bump_links (s : State) : s.bump.links = s.links := rfl
@[simp] theorem State.bump_agenda (s : State) : s.bump.agenda = s.agenda := rfl
@[simp] theorem State.bump_served (s : State) : s.bump.served = s.served := rfl
@[simp] theorem State.bump_tick (s : State) : s.bump.tick = s.tick := rfl
@[simp] theorem State.bump_uid (s : State) : s.bump.uid = s.uid + 1 := rfl
@[simp] theorem State.bump_cur (s : State) : s.bump.cur = s.cur := rfl

/-! ### writeV -/

@[simp] theorem State.writeV_clk (s : State) (r : Nat) (m : Mask) (lat : Nat) (f : Nat → Word) : (s.writeV r m lat f).clk = s.clk := rfl
@[simp] theorem State.writeV_blocks (s : State) (r : Nat) (m : Mask) (lat : Nat) (f : Nat → Word) : (s.writeV r m lat f).blocks = s.blocks := rfl
@[simp] theorem State.writeV_casts (s : State) (r : Nat) (m : Mask) (lat : Nat) (f : Nat → Word) : (s.writeV r m lat f).casts = s.casts := rfl
@[simp] theorem State.writeV_cores (s : State) (r : Nat) (m : Mask) (lat : Nat) (f : Nat → Word) : (s.writeV r m lat f).cores = s.cores := rfl
@[simp] theorem State.writeV_clusters (s : State) (r : Nat) (m : Mask) (lat : Nat) (f : Nat → Word) : (s.writeV r m lat f).clusters = s.clusters := rfl
@[simp] theorem State.writeV_dies (s : State) (r : Nat) (m : Mask) (lat : Nat) (f : Nat → Word) : (s.writeV r m lat f).dies = s.dies := rfl
@[simp] theorem State.writeV_mem (s : State) (r : Nat) (m : Mask) (lat : Nat) (f : Nat → Word) : (s.writeV r m lat f).mem = s.mem := rfl
@[simp] theorem State.writeV_mpois (s : State) (r : Nat) (m : Mask) (lat : Nat) (f : Nat → Word) : (s.writeV r m lat f).mpois = s.mpois := rfl
@[simp] theorem State.writeV_mwritten (s : State) (r : Nat) (m : Mask) (lat : Nat) (f : Nat → Word) : (s.writeV r m lat f).mwritten = s.mwritten := rfl
@[simp] theorem State.writeV_mdirty (s : State) (r : Nat) (m : Mask) (lat : Nat) (f : Nat → Word) : (s.writeV r m lat f).mdirty = s.mdirty := rfl
@[simp] theorem State.writeV_launches (s : State) (r : Nat) (m : Mask) (lat : Nat) (f : Nat → Word) : (s.writeV r m lat f).launches = s.launches := rfl
@[simp] theorem State.writeV_children (s : State) (r : Nat) (m : Mask) (lat : Nat) (f : Nat → Word) : (s.writeV r m lat f).children = s.children := rfl
@[simp] theorem State.writeV_pourCount (s : State) (r : Nat) (m : Mask) (lat : Nat) (f : Nat → Word) : (s.writeV r m lat f).pourCount = s.pourCount := rfl
@[simp] theorem State.writeV_lastQueue (s : State) (r : Nat) (m : Mask) (lat : Nat) (f : Nat → Word) : (s.writeV r m lat f).lastQueue = s.lastQueue := rfl
@[simp] theorem State.writeV_tails (s : State) (r : Nat) (m : Mask) (lat : Nat) (f : Nat → Word) : (s.writeV r m lat f).tails = s.tails := rfl
@[simp] theorem State.writeV_packets (s : State) (r : Nat) (m : Mask) (lat : Nat) (f : Nat → Word) : (s.writeV r m lat f).packets = s.packets := rfl
@[simp] theorem State.writeV_mbreqs (s : State) (r : Nat) (m : Mask) (lat : Nat) (f : Nat → Word) : (s.writeV r m lat f).mbreqs = s.mbreqs := rfl
@[simp] theorem State.writeV_saved (s : State) (r : Nat) (m : Mask) (lat : Nat) (f : Nat → Word) : (s.writeV r m lat f).saved = s.saved := rfl
@[simp] theorem State.writeV_hostMsgs (s : State) (r : Nat) (m : Mask) (lat : Nat) (f : Nat → Word) : (s.writeV r m lat f).hostMsgs = s.hostMsgs := rfl
@[simp] theorem State.writeV_hostWaits (s : State) (r : Nat) (m : Mask) (lat : Nat) (f : Nat → Word) : (s.writeV r m lat f).hostWaits = s.hostWaits := rfl
@[simp] theorem State.writeV_doorWaits (s : State) (r : Nat) (m : Mask) (lat : Nat) (f : Nat → Word) : (s.writeV r m lat f).doorWaits = s.doorWaits := rfl
@[simp] theorem State.writeV_frames (s : State) (r : Nat) (m : Mask) (lat : Nat) (f : Nat → Word) : (s.writeV r m lat f).frames = s.frames := rfl
@[simp] theorem State.writeV_level (s : State) (r : Nat) (m : Mask) (lat : Nat) (f : Nat → Word) : (s.writeV r m lat f).level = s.level := rfl
@[simp] theorem State.writeV_links (s : State) (r : Nat) (m : Mask) (lat : Nat) (f : Nat → Word) : (s.writeV r m lat f).links = s.links := rfl
@[simp] theorem State.writeV_agenda (s : State) (r : Nat) (m : Mask) (lat : Nat) (f : Nat → Word) : (s.writeV r m lat f).agenda = s.agenda := rfl
@[simp] theorem State.writeV_served (s : State) (r : Nat) (m : Mask) (lat : Nat) (f : Nat → Word) : (s.writeV r m lat f).served = s.served := rfl
@[simp] theorem State.writeV_tick (s : State) (r : Nat) (m : Mask) (lat : Nat) (f : Nat → Word) : (s.writeV r m lat f).tick = s.tick := rfl
@[simp] theorem State.writeV_uid (s : State) (r : Nat) (m : Mask) (lat : Nat) (f : Nat → Word) : (s.writeV r m lat f).uid = s.uid := rfl
@[simp] theorem State.writeV_cur (s : State) (r : Nat) (m : Mask) (lat : Nat) (f : Nat → Word) : (s.writeV r m lat f).cur = s.cur := rfl

/-! ### writeU -/

@[simp] theorem State.writeU_clk (s : State) (r : Nat) (x : Word) (lat : Nat) : (s.writeU r x lat).clk = s.clk := rfl
@[simp] theorem State.writeU_blocks (s : State) (r : Nat) (x : Word) (lat : Nat) : (s.writeU r x lat).blocks = s.blocks := rfl
@[simp] theorem State.writeU_casts (s : State) (r : Nat) (x : Word) (lat : Nat) : (s.writeU r x lat).casts = s.casts := rfl
@[simp] theorem State.writeU_cores (s : State) (r : Nat) (x : Word) (lat : Nat) : (s.writeU r x lat).cores = s.cores := rfl
@[simp] theorem State.writeU_clusters (s : State) (r : Nat) (x : Word) (lat : Nat) : (s.writeU r x lat).clusters = s.clusters := rfl
@[simp] theorem State.writeU_dies (s : State) (r : Nat) (x : Word) (lat : Nat) : (s.writeU r x lat).dies = s.dies := rfl
@[simp] theorem State.writeU_mem (s : State) (r : Nat) (x : Word) (lat : Nat) : (s.writeU r x lat).mem = s.mem := rfl
@[simp] theorem State.writeU_mpois (s : State) (r : Nat) (x : Word) (lat : Nat) : (s.writeU r x lat).mpois = s.mpois := rfl
@[simp] theorem State.writeU_mwritten (s : State) (r : Nat) (x : Word) (lat : Nat) : (s.writeU r x lat).mwritten = s.mwritten := rfl
@[simp] theorem State.writeU_mdirty (s : State) (r : Nat) (x : Word) (lat : Nat) : (s.writeU r x lat).mdirty = s.mdirty := rfl
@[simp] theorem State.writeU_launches (s : State) (r : Nat) (x : Word) (lat : Nat) : (s.writeU r x lat).launches = s.launches := rfl
@[simp] theorem State.writeU_children (s : State) (r : Nat) (x : Word) (lat : Nat) : (s.writeU r x lat).children = s.children := rfl
@[simp] theorem State.writeU_pourCount (s : State) (r : Nat) (x : Word) (lat : Nat) : (s.writeU r x lat).pourCount = s.pourCount := rfl
@[simp] theorem State.writeU_lastQueue (s : State) (r : Nat) (x : Word) (lat : Nat) : (s.writeU r x lat).lastQueue = s.lastQueue := rfl
@[simp] theorem State.writeU_tails (s : State) (r : Nat) (x : Word) (lat : Nat) : (s.writeU r x lat).tails = s.tails := rfl
@[simp] theorem State.writeU_packets (s : State) (r : Nat) (x : Word) (lat : Nat) : (s.writeU r x lat).packets = s.packets := rfl
@[simp] theorem State.writeU_mbreqs (s : State) (r : Nat) (x : Word) (lat : Nat) : (s.writeU r x lat).mbreqs = s.mbreqs := rfl
@[simp] theorem State.writeU_saved (s : State) (r : Nat) (x : Word) (lat : Nat) : (s.writeU r x lat).saved = s.saved := rfl
@[simp] theorem State.writeU_hostMsgs (s : State) (r : Nat) (x : Word) (lat : Nat) : (s.writeU r x lat).hostMsgs = s.hostMsgs := rfl
@[simp] theorem State.writeU_hostWaits (s : State) (r : Nat) (x : Word) (lat : Nat) : (s.writeU r x lat).hostWaits = s.hostWaits := rfl
@[simp] theorem State.writeU_doorWaits (s : State) (r : Nat) (x : Word) (lat : Nat) : (s.writeU r x lat).doorWaits = s.doorWaits := rfl
@[simp] theorem State.writeU_frames (s : State) (r : Nat) (x : Word) (lat : Nat) : (s.writeU r x lat).frames = s.frames := rfl
@[simp] theorem State.writeU_level (s : State) (r : Nat) (x : Word) (lat : Nat) : (s.writeU r x lat).level = s.level := rfl
@[simp] theorem State.writeU_links (s : State) (r : Nat) (x : Word) (lat : Nat) : (s.writeU r x lat).links = s.links := rfl
@[simp] theorem State.writeU_agenda (s : State) (r : Nat) (x : Word) (lat : Nat) : (s.writeU r x lat).agenda = s.agenda := rfl
@[simp] theorem State.writeU_served (s : State) (r : Nat) (x : Word) (lat : Nat) : (s.writeU r x lat).served = s.served := rfl
@[simp] theorem State.writeU_tick (s : State) (r : Nat) (x : Word) (lat : Nat) : (s.writeU r x lat).tick = s.tick := rfl
@[simp] theorem State.writeU_uid (s : State) (r : Nat) (x : Word) (lat : Nat) : (s.writeU r x lat).uid = s.uid := rfl
@[simp] theorem State.writeU_cur (s : State) (r : Nat) (x : Word) (lat : Nat) : (s.writeU r x lat).cur = s.cur := rfl

/-! ### writeSc -/

@[simp] theorem State.writeSc_clk (s : State) (b : Bool) : (s.writeSc b).clk = s.clk := rfl
@[simp] theorem State.writeSc_blocks (s : State) (b : Bool) : (s.writeSc b).blocks = s.blocks := rfl
@[simp] theorem State.writeSc_casts (s : State) (b : Bool) : (s.writeSc b).casts = s.casts := rfl
@[simp] theorem State.writeSc_cores (s : State) (b : Bool) : (s.writeSc b).cores = s.cores := rfl
@[simp] theorem State.writeSc_clusters (s : State) (b : Bool) : (s.writeSc b).clusters = s.clusters := rfl
@[simp] theorem State.writeSc_dies (s : State) (b : Bool) : (s.writeSc b).dies = s.dies := rfl
@[simp] theorem State.writeSc_mem (s : State) (b : Bool) : (s.writeSc b).mem = s.mem := rfl
@[simp] theorem State.writeSc_mpois (s : State) (b : Bool) : (s.writeSc b).mpois = s.mpois := rfl
@[simp] theorem State.writeSc_mwritten (s : State) (b : Bool) : (s.writeSc b).mwritten = s.mwritten := rfl
@[simp] theorem State.writeSc_mdirty (s : State) (b : Bool) : (s.writeSc b).mdirty = s.mdirty := rfl
@[simp] theorem State.writeSc_launches (s : State) (b : Bool) : (s.writeSc b).launches = s.launches := rfl
@[simp] theorem State.writeSc_children (s : State) (b : Bool) : (s.writeSc b).children = s.children := rfl
@[simp] theorem State.writeSc_pourCount (s : State) (b : Bool) : (s.writeSc b).pourCount = s.pourCount := rfl
@[simp] theorem State.writeSc_lastQueue (s : State) (b : Bool) : (s.writeSc b).lastQueue = s.lastQueue := rfl
@[simp] theorem State.writeSc_tails (s : State) (b : Bool) : (s.writeSc b).tails = s.tails := rfl
@[simp] theorem State.writeSc_packets (s : State) (b : Bool) : (s.writeSc b).packets = s.packets := rfl
@[simp] theorem State.writeSc_mbreqs (s : State) (b : Bool) : (s.writeSc b).mbreqs = s.mbreqs := rfl
@[simp] theorem State.writeSc_saved (s : State) (b : Bool) : (s.writeSc b).saved = s.saved := rfl
@[simp] theorem State.writeSc_hostMsgs (s : State) (b : Bool) : (s.writeSc b).hostMsgs = s.hostMsgs := rfl
@[simp] theorem State.writeSc_hostWaits (s : State) (b : Bool) : (s.writeSc b).hostWaits = s.hostWaits := rfl
@[simp] theorem State.writeSc_doorWaits (s : State) (b : Bool) : (s.writeSc b).doorWaits = s.doorWaits := rfl
@[simp] theorem State.writeSc_frames (s : State) (b : Bool) : (s.writeSc b).frames = s.frames := rfl
@[simp] theorem State.writeSc_level (s : State) (b : Bool) : (s.writeSc b).level = s.level := rfl
@[simp] theorem State.writeSc_links (s : State) (b : Bool) : (s.writeSc b).links = s.links := rfl
@[simp] theorem State.writeSc_agenda (s : State) (b : Bool) : (s.writeSc b).agenda = s.agenda := rfl
@[simp] theorem State.writeSc_served (s : State) (b : Bool) : (s.writeSc b).served = s.served := rfl
@[simp] theorem State.writeSc_tick (s : State) (b : Bool) : (s.writeSc b).tick = s.tick := rfl
@[simp] theorem State.writeSc_uid (s : State) (b : Bool) : (s.writeSc b).uid = s.uid := rfl
@[simp] theorem State.writeSc_cur (s : State) (b : Bool) : (s.writeSc b).cur = s.cur := rfl

/-! ### setExec -/

@[simp] theorem State.setExec_clk (s : State) (m : Mask) : (s.setExec m).clk = s.clk := rfl
@[simp] theorem State.setExec_blocks (s : State) (m : Mask) : (s.setExec m).blocks = s.blocks := rfl
@[simp] theorem State.setExec_casts (s : State) (m : Mask) : (s.setExec m).casts = s.casts := rfl
@[simp] theorem State.setExec_cores (s : State) (m : Mask) : (s.setExec m).cores = s.cores := rfl
@[simp] theorem State.setExec_clusters (s : State) (m : Mask) : (s.setExec m).clusters = s.clusters := rfl
@[simp] theorem State.setExec_dies (s : State) (m : Mask) : (s.setExec m).dies = s.dies := rfl
@[simp] theorem State.setExec_mem (s : State) (m : Mask) : (s.setExec m).mem = s.mem := rfl
@[simp] theorem State.setExec_mpois (s : State) (m : Mask) : (s.setExec m).mpois = s.mpois := rfl
@[simp] theorem State.setExec_mwritten (s : State) (m : Mask) : (s.setExec m).mwritten = s.mwritten := rfl
@[simp] theorem State.setExec_mdirty (s : State) (m : Mask) : (s.setExec m).mdirty = s.mdirty := rfl
@[simp] theorem State.setExec_launches (s : State) (m : Mask) : (s.setExec m).launches = s.launches := rfl
@[simp] theorem State.setExec_children (s : State) (m : Mask) : (s.setExec m).children = s.children := rfl
@[simp] theorem State.setExec_pourCount (s : State) (m : Mask) : (s.setExec m).pourCount = s.pourCount := rfl
@[simp] theorem State.setExec_lastQueue (s : State) (m : Mask) : (s.setExec m).lastQueue = s.lastQueue := rfl
@[simp] theorem State.setExec_tails (s : State) (m : Mask) : (s.setExec m).tails = s.tails := rfl
@[simp] theorem State.setExec_packets (s : State) (m : Mask) : (s.setExec m).packets = s.packets := rfl
@[simp] theorem State.setExec_mbreqs (s : State) (m : Mask) : (s.setExec m).mbreqs = s.mbreqs := rfl
@[simp] theorem State.setExec_saved (s : State) (m : Mask) : (s.setExec m).saved = s.saved := rfl
@[simp] theorem State.setExec_hostMsgs (s : State) (m : Mask) : (s.setExec m).hostMsgs = s.hostMsgs := rfl
@[simp] theorem State.setExec_hostWaits (s : State) (m : Mask) : (s.setExec m).hostWaits = s.hostWaits := rfl
@[simp] theorem State.setExec_doorWaits (s : State) (m : Mask) : (s.setExec m).doorWaits = s.doorWaits := rfl
@[simp] theorem State.setExec_frames (s : State) (m : Mask) : (s.setExec m).frames = s.frames := rfl
@[simp] theorem State.setExec_level (s : State) (m : Mask) : (s.setExec m).level = s.level := rfl
@[simp] theorem State.setExec_links (s : State) (m : Mask) : (s.setExec m).links = s.links := rfl
@[simp] theorem State.setExec_agenda (s : State) (m : Mask) : (s.setExec m).agenda = s.agenda := rfl
@[simp] theorem State.setExec_served (s : State) (m : Mask) : (s.setExec m).served = s.served := rfl
@[simp] theorem State.setExec_tick (s : State) (m : Mask) : (s.setExec m).tick = s.tick := rfl
@[simp] theorem State.setExec_uid (s : State) (m : Mask) : (s.setExec m).uid = s.uid := rfl
@[simp] theorem State.setExec_cur (s : State) (m : Mask) : (s.setExec m).cur = s.cur := rfl

/-! ### setFlags -/

@[simp] theorem State.setFlags_clk (s : State) (f : FpFlags) : (s.setFlags f).clk = s.clk := rfl
@[simp] theorem State.setFlags_blocks (s : State) (f : FpFlags) : (s.setFlags f).blocks = s.blocks := rfl
@[simp] theorem State.setFlags_casts (s : State) (f : FpFlags) : (s.setFlags f).casts = s.casts := rfl
@[simp] theorem State.setFlags_cores (s : State) (f : FpFlags) : (s.setFlags f).cores = s.cores := rfl
@[simp] theorem State.setFlags_clusters (s : State) (f : FpFlags) : (s.setFlags f).clusters = s.clusters := rfl
@[simp] theorem State.setFlags_dies (s : State) (f : FpFlags) : (s.setFlags f).dies = s.dies := rfl
@[simp] theorem State.setFlags_mem (s : State) (f : FpFlags) : (s.setFlags f).mem = s.mem := rfl
@[simp] theorem State.setFlags_mpois (s : State) (f : FpFlags) : (s.setFlags f).mpois = s.mpois := rfl
@[simp] theorem State.setFlags_mwritten (s : State) (f : FpFlags) : (s.setFlags f).mwritten = s.mwritten := rfl
@[simp] theorem State.setFlags_mdirty (s : State) (f : FpFlags) : (s.setFlags f).mdirty = s.mdirty := rfl
@[simp] theorem State.setFlags_launches (s : State) (f : FpFlags) : (s.setFlags f).launches = s.launches := rfl
@[simp] theorem State.setFlags_children (s : State) (f : FpFlags) : (s.setFlags f).children = s.children := rfl
@[simp] theorem State.setFlags_pourCount (s : State) (f : FpFlags) : (s.setFlags f).pourCount = s.pourCount := rfl
@[simp] theorem State.setFlags_lastQueue (s : State) (f : FpFlags) : (s.setFlags f).lastQueue = s.lastQueue := rfl
@[simp] theorem State.setFlags_tails (s : State) (f : FpFlags) : (s.setFlags f).tails = s.tails := rfl
@[simp] theorem State.setFlags_packets (s : State) (f : FpFlags) : (s.setFlags f).packets = s.packets := rfl
@[simp] theorem State.setFlags_mbreqs (s : State) (f : FpFlags) : (s.setFlags f).mbreqs = s.mbreqs := rfl
@[simp] theorem State.setFlags_saved (s : State) (f : FpFlags) : (s.setFlags f).saved = s.saved := rfl
@[simp] theorem State.setFlags_hostMsgs (s : State) (f : FpFlags) : (s.setFlags f).hostMsgs = s.hostMsgs := rfl
@[simp] theorem State.setFlags_hostWaits (s : State) (f : FpFlags) : (s.setFlags f).hostWaits = s.hostWaits := rfl
@[simp] theorem State.setFlags_doorWaits (s : State) (f : FpFlags) : (s.setFlags f).doorWaits = s.doorWaits := rfl
@[simp] theorem State.setFlags_frames (s : State) (f : FpFlags) : (s.setFlags f).frames = s.frames := rfl
@[simp] theorem State.setFlags_level (s : State) (f : FpFlags) : (s.setFlags f).level = s.level := rfl
@[simp] theorem State.setFlags_links (s : State) (f : FpFlags) : (s.setFlags f).links = s.links := rfl
@[simp] theorem State.setFlags_agenda (s : State) (f : FpFlags) : (s.setFlags f).agenda = s.agenda := rfl
@[simp] theorem State.setFlags_served (s : State) (f : FpFlags) : (s.setFlags f).served = s.served := rfl
@[simp] theorem State.setFlags_tick (s : State) (f : FpFlags) : (s.setFlags f).tick = s.tick := rfl
@[simp] theorem State.setFlags_uid (s : State) (f : FpFlags) : (s.setFlags f).uid = s.uid := rfl
@[simp] theorem State.setFlags_cur (s : State) (f : FpFlags) : (s.setFlags f).cur = s.cur := rfl

/-! ### waitFor -/

@[simp] theorem State.waitFor_clk (s : State) (w : Wait) : (s.waitFor w).clk = s.clk := rfl
@[simp] theorem State.waitFor_blocks (s : State) (w : Wait) : (s.waitFor w).blocks = s.blocks := rfl
@[simp] theorem State.waitFor_casts (s : State) (w : Wait) : (s.waitFor w).casts = s.casts := rfl
@[simp] theorem State.waitFor_cores (s : State) (w : Wait) : (s.waitFor w).cores = s.cores := rfl
@[simp] theorem State.waitFor_clusters (s : State) (w : Wait) : (s.waitFor w).clusters = s.clusters := rfl
@[simp] theorem State.waitFor_dies (s : State) (w : Wait) : (s.waitFor w).dies = s.dies := rfl
@[simp] theorem State.waitFor_mem (s : State) (w : Wait) : (s.waitFor w).mem = s.mem := rfl
@[simp] theorem State.waitFor_mpois (s : State) (w : Wait) : (s.waitFor w).mpois = s.mpois := rfl
@[simp] theorem State.waitFor_mwritten (s : State) (w : Wait) : (s.waitFor w).mwritten = s.mwritten := rfl
@[simp] theorem State.waitFor_mdirty (s : State) (w : Wait) : (s.waitFor w).mdirty = s.mdirty := rfl
@[simp] theorem State.waitFor_launches (s : State) (w : Wait) : (s.waitFor w).launches = s.launches := rfl
@[simp] theorem State.waitFor_children (s : State) (w : Wait) : (s.waitFor w).children = s.children := rfl
@[simp] theorem State.waitFor_pourCount (s : State) (w : Wait) : (s.waitFor w).pourCount = s.pourCount := rfl
@[simp] theorem State.waitFor_lastQueue (s : State) (w : Wait) : (s.waitFor w).lastQueue = s.lastQueue := rfl
@[simp] theorem State.waitFor_tails (s : State) (w : Wait) : (s.waitFor w).tails = s.tails := rfl
@[simp] theorem State.waitFor_packets (s : State) (w : Wait) : (s.waitFor w).packets = s.packets := rfl
@[simp] theorem State.waitFor_mbreqs (s : State) (w : Wait) : (s.waitFor w).mbreqs = s.mbreqs := rfl
@[simp] theorem State.waitFor_saved (s : State) (w : Wait) : (s.waitFor w).saved = s.saved := rfl
@[simp] theorem State.waitFor_hostMsgs (s : State) (w : Wait) : (s.waitFor w).hostMsgs = s.hostMsgs := rfl
@[simp] theorem State.waitFor_hostWaits (s : State) (w : Wait) : (s.waitFor w).hostWaits = s.hostWaits := rfl
@[simp] theorem State.waitFor_doorWaits (s : State) (w : Wait) : (s.waitFor w).doorWaits = s.doorWaits := rfl
@[simp] theorem State.waitFor_frames (s : State) (w : Wait) : (s.waitFor w).frames = s.frames := rfl
@[simp] theorem State.waitFor_level (s : State) (w : Wait) : (s.waitFor w).level = s.level := rfl
@[simp] theorem State.waitFor_links (s : State) (w : Wait) : (s.waitFor w).links = s.links := rfl
@[simp] theorem State.waitFor_agenda (s : State) (w : Wait) : (s.waitFor w).agenda = s.agenda := rfl
@[simp] theorem State.waitFor_served (s : State) (w : Wait) : (s.waitFor w).served = s.served := rfl
@[simp] theorem State.waitFor_tick (s : State) (w : Wait) : (s.waitFor w).tick = s.tick := rfl
@[simp] theorem State.waitFor_uid (s : State) (w : Wait) : (s.waitFor w).uid = s.uid := rfl
@[simp] theorem State.waitFor_cur (s : State) (w : Wait) : (s.waitFor w).cur = { s.cur with flow := .stall } := rfl

/-! ### clearWoke -/

@[simp] theorem State.clearWoke_clk (s : State) : s.clearWoke.clk = s.clk := rfl
@[simp] theorem State.clearWoke_blocks (s : State) : s.clearWoke.blocks = s.blocks := rfl
@[simp] theorem State.clearWoke_casts (s : State) : s.clearWoke.casts = s.casts := rfl
@[simp] theorem State.clearWoke_cores (s : State) : s.clearWoke.cores = s.cores := rfl
@[simp] theorem State.clearWoke_clusters (s : State) : s.clearWoke.clusters = s.clusters := rfl
@[simp] theorem State.clearWoke_dies (s : State) : s.clearWoke.dies = s.dies := rfl
@[simp] theorem State.clearWoke_mem (s : State) : s.clearWoke.mem = s.mem := rfl
@[simp] theorem State.clearWoke_mpois (s : State) : s.clearWoke.mpois = s.mpois := rfl
@[simp] theorem State.clearWoke_mwritten (s : State) : s.clearWoke.mwritten = s.mwritten := rfl
@[simp] theorem State.clearWoke_mdirty (s : State) : s.clearWoke.mdirty = s.mdirty := rfl
@[simp] theorem State.clearWoke_launches (s : State) : s.clearWoke.launches = s.launches := rfl
@[simp] theorem State.clearWoke_children (s : State) : s.clearWoke.children = s.children := rfl
@[simp] theorem State.clearWoke_pourCount (s : State) : s.clearWoke.pourCount = s.pourCount := rfl
@[simp] theorem State.clearWoke_lastQueue (s : State) : s.clearWoke.lastQueue = s.lastQueue := rfl
@[simp] theorem State.clearWoke_tails (s : State) : s.clearWoke.tails = s.tails := rfl
@[simp] theorem State.clearWoke_packets (s : State) : s.clearWoke.packets = s.packets := rfl
@[simp] theorem State.clearWoke_mbreqs (s : State) : s.clearWoke.mbreqs = s.mbreqs := rfl
@[simp] theorem State.clearWoke_saved (s : State) : s.clearWoke.saved = s.saved := rfl
@[simp] theorem State.clearWoke_hostMsgs (s : State) : s.clearWoke.hostMsgs = s.hostMsgs := rfl
@[simp] theorem State.clearWoke_hostWaits (s : State) : s.clearWoke.hostWaits = s.hostWaits := rfl
@[simp] theorem State.clearWoke_doorWaits (s : State) : s.clearWoke.doorWaits = s.doorWaits := rfl
@[simp] theorem State.clearWoke_frames (s : State) : s.clearWoke.frames = s.frames := rfl
@[simp] theorem State.clearWoke_level (s : State) : s.clearWoke.level = s.level := rfl
@[simp] theorem State.clearWoke_links (s : State) : s.clearWoke.links = s.links := rfl
@[simp] theorem State.clearWoke_agenda (s : State) : s.clearWoke.agenda = s.agenda := rfl
@[simp] theorem State.clearWoke_served (s : State) : s.clearWoke.served = s.served := rfl
@[simp] theorem State.clearWoke_tick (s : State) : s.clearWoke.tick = s.tick := rfl
@[simp] theorem State.clearWoke_uid (s : State) : s.clearWoke.uid = s.uid := rfl
@[simp] theorem State.clearWoke_cur (s : State) : s.clearWoke.cur = s.cur := rfl

/-! ### Group.modSplit -/

@[simp] theorem Group.modSplit_cx (g : Group) (e : Nat) (f : Split → Split) : (g.modSplit e f).cx = g.cx := rfl
@[simp] theorem Group.modSplit_v (g : Group) (e : Nat) (f : Split → Split) : (g.modSplit e f).v = g.v := rfl
@[simp] theorem Group.modSplit_u (g : Group) (e : Nat) (f : Split → Split) : (g.modSplit e f).u = g.u := rfl
@[simp] theorem Group.modSplit_m (g : Group) (e : Nat) (f : Split → Split) : (g.modSplit e f).m = g.m := rfl
@[simp] theorem Group.modSplit_shadow (g : Group) (e : Nat) (f : Split → Split) : (g.modSplit e f).shadow = g.shadow := rfl
@[simp] theorem Group.modSplit_tf (g : Group) (e : Nat) (f : Split → Split) : (g.modSplit e f).tf = g.tf := rfl
@[simp] theorem Group.modSplit_planes (g : Group) (e : Nat) (f : Split → Split) : (g.modSplit e f).planes = g.planes := rfl
@[simp] theorem Group.modSplit_exited (g : Group) (e : Nat) (f : Split → Split) : (g.modSplit e f).exited = g.exited := rfl
@[simp] theorem Group.modSplit_splits (g : Group) (e : Nat) (f : Split → Split) : (g.modSplit e f).splits = g.splits.modify e f := rfl
@[simp] theorem Group.modSplit_defHead (g : Group) (e : Nat) (f : Split → Split) : (g.modSplit e f).defHead = g.defHead := rfl
@[simp] theorem Group.modSplit_defCount (g : Group) (e : Nat) (f : Split → Split) : (g.modSplit e f).defCount = g.defCount := rfl
@[simp] theorem Group.modSplit_defFrom (g : Group) (e : Nat) (f : Split → Split) : (g.modSplit e f).defFrom = g.defFrom := rfl
@[simp] theorem Group.modSplit_fpm (g : Group) (e : Nat) (f : Split → Split) : (g.modSplit e f).fpm = g.fpm := rfl
@[simp] theorem Group.modSplit_fpst (g : Group) (e : Nat) (f : Split → Split) : (g.modSplit e f).fpst = g.fpst := rfl
@[simp] theorem Group.modSplit_lcnt (g : Group) (e : Nat) (f : Split → Split) : (g.modSplit e f).lcnt = g.lcnt := rfl
@[simp] theorem Group.modSplit_mcnt (g : Group) (e : Nat) (f : Split → Split) : (g.modSplit e f).mcnt = g.mcnt := rfl
@[simp] theorem Group.modSplit_sbchk (g : Group) (e : Nat) (f : Split → Split) : (g.modSplit e f).sbchk = g.sbchk := rfl
@[simp] theorem Group.modSplit_bseq (g : Group) (e : Nat) (f : Split → Split) : (g.modSplit e f).bseq = g.bseq := rfl
@[simp] theorem Group.modSplit_bdone (g : Group) (e : Nat) (f : Split → Split) : (g.modSplit e f).bdone = g.bdone := rfl
@[simp] theorem Group.modSplit_batches (g : Group) (e : Nat) (f : Split → Split) : (g.modSplit e f).batches = g.batches := rfl
@[simp] theorem Group.modSplit_closed (g : Group) (e : Nat) (f : Split → Split) : (g.modSplit e f).closed = g.closed := rfl
@[simp] theorem Group.modSplit_tcause (g : Group) (e : Nat) (f : Split → Split) : (g.modSplit e f).tcause = g.tcause := rfl
@[simp] theorem Group.modSplit_taddr (g : Group) (e : Nat) (f : Split → Split) : (g.modSplit e f).taddr = g.taddr := rfl
@[simp] theorem Group.modSplit_toff (g : Group) (e : Nat) (f : Split → Split) : (g.modSplit e f).toff = g.toff := rfl
@[simp] theorem Group.modSplit_tmask (g : Group) (e : Nat) (f : Split → Split) : (g.modSplit e f).tmask = g.tmask := rfl
@[simp] theorem Group.modSplit_svpl0 (g : Group) (e : Nat) (f : Split → Split) : (g.modSplit e f).svpl0 = g.svpl0 := rfl
@[simp] theorem Group.modSplit_svpl1 (g : Group) (e : Nat) (f : Split → Split) : (g.modSplit e f).svpl1 = g.svpl1 := rfl
@[simp] theorem Group.modSplit_handler (g : Group) (e : Nat) (f : Split → Split) : (g.modSplit e f).handler = g.handler := rfl
@[simp] theorem Group.modSplit_aside (g : Group) (e : Nat) (f : Split → Split) : (g.modSplit e f).aside = g.aside := rfl
@[simp] theorem Group.modSplit_asideIid (g : Group) (e : Nat) (f : Split → Split) : (g.modSplit e f).asideIid = g.asideIid := rfl
@[simp] theorem Group.modSplit_vpois (g : Group) (e : Nat) (f : Split → Split) : (g.modSplit e f).vpois = g.vpois := rfl
@[simp] theorem Group.modSplit_upois (g : Group) (e : Nat) (f : Split → Split) : (g.modSplit e f).upois = g.upois := rfl
@[simp] theorem Group.modSplit_mpois (g : Group) (e : Nat) (f : Split → Split) : (g.modSplit e f).mpois = g.mpois := rfl
@[simp] theorem Group.modSplit_late (g : Group) (e : Nat) (f : Split → Split) : (g.modSplit e f).late = g.late := rfl
@[simp] theorem Group.modSplit_uncov (g : Group) (e : Nat) (f : Split → Split) : (g.modSplit e f).uncov = g.uncov := rfl
@[simp] theorem Group.modSplit_accs (g : Group) (e : Nat) (f : Split → Split) : (g.modSplit e f).accs = g.accs := rfl
@[simp] theorem Group.modSplit_mops (g : Group) (e : Nat) (f : Split → Split) : (g.modSplit e f).mops = g.mops := rfl
@[simp] theorem Group.modSplit_tags (g : Group) (e : Nat) (f : Split → Split) : (g.modSplit e f).tags = g.tags := rfl
@[simp] theorem Group.modSplit_merr (g : Group) (e : Nat) (f : Split → Split) : (g.modSplit e f).merr = g.merr := rfl
@[simp] theorem Group.modSplit_lerr (g : Group) (e : Nat) (f : Split → Split) : (g.modSplit e f).lerr = g.lerr := rfl
@[simp] theorem Group.modSplit_issueSeq (g : Group) (e : Nat) (f : Split → Split) : (g.modSplit e f).issueSeq = g.issueSeq := rfl
@[simp] theorem Group.modSplit_parks (g : Group) (e : Nat) (f : Split → Split) : (g.modSplit e f).parks = g.parks := rfl
@[simp] theorem Group.modSplit_resident (g : Group) (e : Nat) (f : Split → Split) : (g.modSplit e f).resident = g.resident := rfl
@[simp] theorem Group.modSplit_firedAt (g : Group) (e : Nat) (f : Split → Split) : (g.modSplit e f).firedAt = g.firedAt := rfl
@[simp] theorem Group.modSplit_eventAt (g : Group) (e : Nat) (f : Split → Split) : (g.modSplit e f).eventAt = g.eventAt := rfl
@[simp] theorem Group.modSplit_stuckAt (g : Group) (e : Nat) (f : Split → Split) : (g.modSplit e f).stuckAt = g.stuckAt := rfl
@[simp] theorem Group.modSplit_movedAt (g : Group) (e : Nat) (f : Split → Split) : (g.modSplit e f).movedAt = g.movedAt := rfl
@[simp] theorem Group.modSplit_calls (g : Group) (e : Nat) (f : Split → Split) : (g.modSplit e f).calls = g.calls := rfl
@[simp] theorem Group.modSplit_dgst (g : Group) (e : Nat) (f : Split → Split) : (g.modSplit e f).dgst = g.dgst := rfl
@[simp] theorem Group.modSplit_dgen (g : Group) (e : Nat) (f : Split → Split) : (g.modSplit e f).dgen = g.dgen := rfl
@[simp] theorem Group.modSplit_rerr (g : Group) (e : Nat) (f : Split → Split) : (g.modSplit e f).rerr = g.rerr := rfl
@[simp] theorem Group.modSplit_rreason (g : Group) (e : Nat) (f : Split → Split) : (g.modSplit e f).rreason = g.rreason := rfl
@[simp] theorem Group.modSplit_lastIssue (g : Group) (e : Nat) (f : Split → Split) : (g.modSplit e f).lastIssue = g.lastIssue := rfl
@[simp] theorem Group.modSplit_ended (g : Group) (e : Nat) (f : Split → Split) : (g.modSplit e f).ended = g.ended := rfl

/-! ### Group.setPlane -/

@[simp] theorem Group.setPlane_cx (g : Group) (i : Nat) (p : BitVec 3) : (g.setPlane i p).cx = g.cx := rfl
@[simp] theorem Group.setPlane_v (g : Group) (i : Nat) (p : BitVec 3) : (g.setPlane i p).v = g.v := rfl
@[simp] theorem Group.setPlane_u (g : Group) (i : Nat) (p : BitVec 3) : (g.setPlane i p).u = g.u := rfl
@[simp] theorem Group.setPlane_m (g : Group) (i : Nat) (p : BitVec 3) : (g.setPlane i p).m = g.m := rfl
@[simp] theorem Group.setPlane_shadow (g : Group) (i : Nat) (p : BitVec 3) : (g.setPlane i p).shadow = g.shadow := rfl
@[simp] theorem Group.setPlane_tf (g : Group) (i : Nat) (p : BitVec 3) : (g.setPlane i p).tf = g.tf := rfl
@[simp] theorem Group.setPlane_planes (g : Group) (i : Nat) (p : BitVec 3) : (g.setPlane i p).planes = g.planes.setD 0 i p := rfl
@[simp] theorem Group.setPlane_exited (g : Group) (i : Nat) (p : BitVec 3) : (g.setPlane i p).exited = g.exited := rfl
@[simp] theorem Group.setPlane_splits (g : Group) (i : Nat) (p : BitVec 3) : (g.setPlane i p).splits = g.splits := rfl
@[simp] theorem Group.setPlane_defHead (g : Group) (i : Nat) (p : BitVec 3) : (g.setPlane i p).defHead = g.defHead := rfl
@[simp] theorem Group.setPlane_defCount (g : Group) (i : Nat) (p : BitVec 3) : (g.setPlane i p).defCount = g.defCount := rfl
@[simp] theorem Group.setPlane_defFrom (g : Group) (i : Nat) (p : BitVec 3) : (g.setPlane i p).defFrom = g.defFrom := rfl
@[simp] theorem Group.setPlane_fpm (g : Group) (i : Nat) (p : BitVec 3) : (g.setPlane i p).fpm = g.fpm := rfl
@[simp] theorem Group.setPlane_fpst (g : Group) (i : Nat) (p : BitVec 3) : (g.setPlane i p).fpst = g.fpst := rfl
@[simp] theorem Group.setPlane_lcnt (g : Group) (i : Nat) (p : BitVec 3) : (g.setPlane i p).lcnt = g.lcnt := rfl
@[simp] theorem Group.setPlane_mcnt (g : Group) (i : Nat) (p : BitVec 3) : (g.setPlane i p).mcnt = g.mcnt := rfl
@[simp] theorem Group.setPlane_sbchk (g : Group) (i : Nat) (p : BitVec 3) : (g.setPlane i p).sbchk = g.sbchk := rfl
@[simp] theorem Group.setPlane_bseq (g : Group) (i : Nat) (p : BitVec 3) : (g.setPlane i p).bseq = g.bseq := rfl
@[simp] theorem Group.setPlane_bdone (g : Group) (i : Nat) (p : BitVec 3) : (g.setPlane i p).bdone = g.bdone := rfl
@[simp] theorem Group.setPlane_batches (g : Group) (i : Nat) (p : BitVec 3) : (g.setPlane i p).batches = g.batches := rfl
@[simp] theorem Group.setPlane_closed (g : Group) (i : Nat) (p : BitVec 3) : (g.setPlane i p).closed = g.closed := rfl
@[simp] theorem Group.setPlane_tcause (g : Group) (i : Nat) (p : BitVec 3) : (g.setPlane i p).tcause = g.tcause := rfl
@[simp] theorem Group.setPlane_taddr (g : Group) (i : Nat) (p : BitVec 3) : (g.setPlane i p).taddr = g.taddr := rfl
@[simp] theorem Group.setPlane_toff (g : Group) (i : Nat) (p : BitVec 3) : (g.setPlane i p).toff = g.toff := rfl
@[simp] theorem Group.setPlane_tmask (g : Group) (i : Nat) (p : BitVec 3) : (g.setPlane i p).tmask = g.tmask := rfl
@[simp] theorem Group.setPlane_svpl0 (g : Group) (i : Nat) (p : BitVec 3) : (g.setPlane i p).svpl0 = g.svpl0 := rfl
@[simp] theorem Group.setPlane_svpl1 (g : Group) (i : Nat) (p : BitVec 3) : (g.setPlane i p).svpl1 = g.svpl1 := rfl
@[simp] theorem Group.setPlane_handler (g : Group) (i : Nat) (p : BitVec 3) : (g.setPlane i p).handler = g.handler := rfl
@[simp] theorem Group.setPlane_aside (g : Group) (i : Nat) (p : BitVec 3) : (g.setPlane i p).aside = g.aside := rfl
@[simp] theorem Group.setPlane_asideIid (g : Group) (i : Nat) (p : BitVec 3) : (g.setPlane i p).asideIid = g.asideIid := rfl
@[simp] theorem Group.setPlane_vpois (g : Group) (i : Nat) (p : BitVec 3) : (g.setPlane i p).vpois = g.vpois := rfl
@[simp] theorem Group.setPlane_upois (g : Group) (i : Nat) (p : BitVec 3) : (g.setPlane i p).upois = g.upois := rfl
@[simp] theorem Group.setPlane_mpois (g : Group) (i : Nat) (p : BitVec 3) : (g.setPlane i p).mpois = g.mpois := rfl
@[simp] theorem Group.setPlane_late (g : Group) (i : Nat) (p : BitVec 3) : (g.setPlane i p).late = g.late := rfl
@[simp] theorem Group.setPlane_uncov (g : Group) (i : Nat) (p : BitVec 3) : (g.setPlane i p).uncov = g.uncov := rfl
@[simp] theorem Group.setPlane_accs (g : Group) (i : Nat) (p : BitVec 3) : (g.setPlane i p).accs = g.accs := rfl
@[simp] theorem Group.setPlane_mops (g : Group) (i : Nat) (p : BitVec 3) : (g.setPlane i p).mops = g.mops := rfl
@[simp] theorem Group.setPlane_tags (g : Group) (i : Nat) (p : BitVec 3) : (g.setPlane i p).tags = g.tags := rfl
@[simp] theorem Group.setPlane_merr (g : Group) (i : Nat) (p : BitVec 3) : (g.setPlane i p).merr = g.merr := rfl
@[simp] theorem Group.setPlane_lerr (g : Group) (i : Nat) (p : BitVec 3) : (g.setPlane i p).lerr = g.lerr := rfl
@[simp] theorem Group.setPlane_issueSeq (g : Group) (i : Nat) (p : BitVec 3) : (g.setPlane i p).issueSeq = g.issueSeq := rfl
@[simp] theorem Group.setPlane_parks (g : Group) (i : Nat) (p : BitVec 3) : (g.setPlane i p).parks = g.parks := rfl
@[simp] theorem Group.setPlane_resident (g : Group) (i : Nat) (p : BitVec 3) : (g.setPlane i p).resident = g.resident := rfl
@[simp] theorem Group.setPlane_firedAt (g : Group) (i : Nat) (p : BitVec 3) : (g.setPlane i p).firedAt = g.firedAt := rfl
@[simp] theorem Group.setPlane_eventAt (g : Group) (i : Nat) (p : BitVec 3) : (g.setPlane i p).eventAt = g.eventAt := rfl
@[simp] theorem Group.setPlane_stuckAt (g : Group) (i : Nat) (p : BitVec 3) : (g.setPlane i p).stuckAt = g.stuckAt := rfl
@[simp] theorem Group.setPlane_movedAt (g : Group) (i : Nat) (p : BitVec 3) : (g.setPlane i p).movedAt = g.movedAt := rfl
@[simp] theorem Group.setPlane_calls (g : Group) (i : Nat) (p : BitVec 3) : (g.setPlane i p).calls = g.calls := rfl
@[simp] theorem Group.setPlane_dgst (g : Group) (i : Nat) (p : BitVec 3) : (g.setPlane i p).dgst = g.dgst := rfl
@[simp] theorem Group.setPlane_dgen (g : Group) (i : Nat) (p : BitVec 3) : (g.setPlane i p).dgen = g.dgen := rfl
@[simp] theorem Group.setPlane_rerr (g : Group) (i : Nat) (p : BitVec 3) : (g.setPlane i p).rerr = g.rerr := rfl
@[simp] theorem Group.setPlane_rreason (g : Group) (i : Nat) (p : BitVec 3) : (g.setPlane i p).rreason = g.rreason := rfl
@[simp] theorem Group.setPlane_lastIssue (g : Group) (i : Nat) (p : BitVec 3) : (g.setPlane i p).lastIssue = g.lastIssue := rfl
@[simp] theorem Group.setPlane_ended (g : Group) (i : Nat) (p : BitVec 3) : (g.setPlane i p).ended = g.ended := rfl

/-! ### putV -/

@[simp] theorem State.putV_cx (s : State) (g : Group) (r lane : Nat) (x : Word) (lat : Nat) (own : Mask) : (s.putV g r lane x lat own).cx = g.cx := rfl
@[simp] theorem State.putV_u (s : State) (g : Group) (r lane : Nat) (x : Word) (lat : Nat) (own : Mask) : (s.putV g r lane x lat own).u = g.u := rfl
@[simp] theorem State.putV_m (s : State) (g : Group) (r lane : Nat) (x : Word) (lat : Nat) (own : Mask) : (s.putV g r lane x lat own).m = g.m := rfl
@[simp] theorem State.putV_shadow (s : State) (g : Group) (r lane : Nat) (x : Word) (lat : Nat) (own : Mask) : (s.putV g r lane x lat own).shadow = g.shadow := rfl
@[simp] theorem State.putV_tf (s : State) (g : Group) (r lane : Nat) (x : Word) (lat : Nat) (own : Mask) : (s.putV g r lane x lat own).tf = g.tf := rfl
@[simp] theorem State.putV_planes (s : State) (g : Group) (r lane : Nat) (x : Word) (lat : Nat) (own : Mask) : (s.putV g r lane x lat own).planes = g.planes := rfl
@[simp] theorem State.putV_exited (s : State) (g : Group) (r lane : Nat) (x : Word) (lat : Nat) (own : Mask) : (s.putV g r lane x lat own).exited = g.exited := rfl
@[simp] theorem State.putV_splits (s : State) (g : Group) (r lane : Nat) (x : Word) (lat : Nat) (own : Mask) : (s.putV g r lane x lat own).splits = g.splits := rfl
@[simp] theorem State.putV_defHead (s : State) (g : Group) (r lane : Nat) (x : Word) (lat : Nat) (own : Mask) : (s.putV g r lane x lat own).defHead = g.defHead := rfl
@[simp] theorem State.putV_defCount (s : State) (g : Group) (r lane : Nat) (x : Word) (lat : Nat) (own : Mask) : (s.putV g r lane x lat own).defCount = g.defCount := rfl
@[simp] theorem State.putV_defFrom (s : State) (g : Group) (r lane : Nat) (x : Word) (lat : Nat) (own : Mask) : (s.putV g r lane x lat own).defFrom = g.defFrom := rfl
@[simp] theorem State.putV_fpm (s : State) (g : Group) (r lane : Nat) (x : Word) (lat : Nat) (own : Mask) : (s.putV g r lane x lat own).fpm = g.fpm := rfl
@[simp] theorem State.putV_fpst (s : State) (g : Group) (r lane : Nat) (x : Word) (lat : Nat) (own : Mask) : (s.putV g r lane x lat own).fpst = g.fpst := rfl
@[simp] theorem State.putV_lcnt (s : State) (g : Group) (r lane : Nat) (x : Word) (lat : Nat) (own : Mask) : (s.putV g r lane x lat own).lcnt = g.lcnt := rfl
@[simp] theorem State.putV_mcnt (s : State) (g : Group) (r lane : Nat) (x : Word) (lat : Nat) (own : Mask) : (s.putV g r lane x lat own).mcnt = g.mcnt := rfl
@[simp] theorem State.putV_sbchk (s : State) (g : Group) (r lane : Nat) (x : Word) (lat : Nat) (own : Mask) : (s.putV g r lane x lat own).sbchk = g.sbchk := rfl
@[simp] theorem State.putV_bseq (s : State) (g : Group) (r lane : Nat) (x : Word) (lat : Nat) (own : Mask) : (s.putV g r lane x lat own).bseq = g.bseq := rfl
@[simp] theorem State.putV_bdone (s : State) (g : Group) (r lane : Nat) (x : Word) (lat : Nat) (own : Mask) : (s.putV g r lane x lat own).bdone = g.bdone := rfl
@[simp] theorem State.putV_batches (s : State) (g : Group) (r lane : Nat) (x : Word) (lat : Nat) (own : Mask) : (s.putV g r lane x lat own).batches = g.batches := rfl
@[simp] theorem State.putV_closed (s : State) (g : Group) (r lane : Nat) (x : Word) (lat : Nat) (own : Mask) : (s.putV g r lane x lat own).closed = g.closed := rfl
@[simp] theorem State.putV_tcause (s : State) (g : Group) (r lane : Nat) (x : Word) (lat : Nat) (own : Mask) : (s.putV g r lane x lat own).tcause = g.tcause := rfl
@[simp] theorem State.putV_taddr (s : State) (g : Group) (r lane : Nat) (x : Word) (lat : Nat) (own : Mask) : (s.putV g r lane x lat own).taddr = g.taddr := rfl
@[simp] theorem State.putV_toff (s : State) (g : Group) (r lane : Nat) (x : Word) (lat : Nat) (own : Mask) : (s.putV g r lane x lat own).toff = g.toff := rfl
@[simp] theorem State.putV_tmask (s : State) (g : Group) (r lane : Nat) (x : Word) (lat : Nat) (own : Mask) : (s.putV g r lane x lat own).tmask = g.tmask := rfl
@[simp] theorem State.putV_svpl0 (s : State) (g : Group) (r lane : Nat) (x : Word) (lat : Nat) (own : Mask) : (s.putV g r lane x lat own).svpl0 = g.svpl0 := rfl
@[simp] theorem State.putV_svpl1 (s : State) (g : Group) (r lane : Nat) (x : Word) (lat : Nat) (own : Mask) : (s.putV g r lane x lat own).svpl1 = g.svpl1 := rfl
@[simp] theorem State.putV_handler (s : State) (g : Group) (r lane : Nat) (x : Word) (lat : Nat) (own : Mask) : (s.putV g r lane x lat own).handler = g.handler := rfl
@[simp] theorem State.putV_aside (s : State) (g : Group) (r lane : Nat) (x : Word) (lat : Nat) (own : Mask) : (s.putV g r lane x lat own).aside = g.aside := rfl
@[simp] theorem State.putV_asideIid (s : State) (g : Group) (r lane : Nat) (x : Word) (lat : Nat) (own : Mask) : (s.putV g r lane x lat own).asideIid = g.asideIid := rfl
@[simp] theorem State.putV_upois (s : State) (g : Group) (r lane : Nat) (x : Word) (lat : Nat) (own : Mask) : (s.putV g r lane x lat own).upois = g.upois := rfl
@[simp] theorem State.putV_mpois (s : State) (g : Group) (r lane : Nat) (x : Word) (lat : Nat) (own : Mask) : (s.putV g r lane x lat own).mpois = g.mpois := rfl
@[simp] theorem State.putV_accs (s : State) (g : Group) (r lane : Nat) (x : Word) (lat : Nat) (own : Mask) : (s.putV g r lane x lat own).accs = g.accs := rfl
@[simp] theorem State.putV_mops (s : State) (g : Group) (r lane : Nat) (x : Word) (lat : Nat) (own : Mask) : (s.putV g r lane x lat own).mops = g.mops := rfl
@[simp] theorem State.putV_tags (s : State) (g : Group) (r lane : Nat) (x : Word) (lat : Nat) (own : Mask) : (s.putV g r lane x lat own).tags = g.tags := rfl
@[simp] theorem State.putV_merr (s : State) (g : Group) (r lane : Nat) (x : Word) (lat : Nat) (own : Mask) : (s.putV g r lane x lat own).merr = g.merr := rfl
@[simp] theorem State.putV_lerr (s : State) (g : Group) (r lane : Nat) (x : Word) (lat : Nat) (own : Mask) : (s.putV g r lane x lat own).lerr = g.lerr := rfl
@[simp] theorem State.putV_issueSeq (s : State) (g : Group) (r lane : Nat) (x : Word) (lat : Nat) (own : Mask) : (s.putV g r lane x lat own).issueSeq = g.issueSeq := rfl
@[simp] theorem State.putV_parks (s : State) (g : Group) (r lane : Nat) (x : Word) (lat : Nat) (own : Mask) : (s.putV g r lane x lat own).parks = g.parks := rfl
@[simp] theorem State.putV_resident (s : State) (g : Group) (r lane : Nat) (x : Word) (lat : Nat) (own : Mask) : (s.putV g r lane x lat own).resident = g.resident := rfl
@[simp] theorem State.putV_firedAt (s : State) (g : Group) (r lane : Nat) (x : Word) (lat : Nat) (own : Mask) : (s.putV g r lane x lat own).firedAt = g.firedAt := rfl
@[simp] theorem State.putV_eventAt (s : State) (g : Group) (r lane : Nat) (x : Word) (lat : Nat) (own : Mask) : (s.putV g r lane x lat own).eventAt = g.eventAt := rfl
@[simp] theorem State.putV_stuckAt (s : State) (g : Group) (r lane : Nat) (x : Word) (lat : Nat) (own : Mask) : (s.putV g r lane x lat own).stuckAt = g.stuckAt := rfl
@[simp] theorem State.putV_movedAt (s : State) (g : Group) (r lane : Nat) (x : Word) (lat : Nat) (own : Mask) : (s.putV g r lane x lat own).movedAt = g.movedAt := rfl
@[simp] theorem State.putV_calls (s : State) (g : Group) (r lane : Nat) (x : Word) (lat : Nat) (own : Mask) : (s.putV g r lane x lat own).calls = g.calls := rfl
@[simp] theorem State.putV_dgst (s : State) (g : Group) (r lane : Nat) (x : Word) (lat : Nat) (own : Mask) : (s.putV g r lane x lat own).dgst = g.dgst := rfl
@[simp] theorem State.putV_dgen (s : State) (g : Group) (r lane : Nat) (x : Word) (lat : Nat) (own : Mask) : (s.putV g r lane x lat own).dgen = g.dgen := rfl
@[simp] theorem State.putV_rerr (s : State) (g : Group) (r lane : Nat) (x : Word) (lat : Nat) (own : Mask) : (s.putV g r lane x lat own).rerr = g.rerr := rfl
@[simp] theorem State.putV_rreason (s : State) (g : Group) (r lane : Nat) (x : Word) (lat : Nat) (own : Mask) : (s.putV g r lane x lat own).rreason = g.rreason := rfl
@[simp] theorem State.putV_lastIssue (s : State) (g : Group) (r lane : Nat) (x : Word) (lat : Nat) (own : Mask) : (s.putV g r lane x lat own).lastIssue = g.lastIssue := rfl
@[simp] theorem State.putV_ended (s : State) (g : Group) (r lane : Nat) (x : Word) (lat : Nat) (own : Mask) : (s.putV g r lane x lat own).ended = g.ended := rfl

/-! ### putU -/

@[simp] theorem State.putU_cx (s : State) (g : Group) (r : Nat) (x : Word) (lat : Nat) (own : Mask) : (s.putU g r x lat own).cx = g.cx := rfl
@[simp] theorem State.putU_v (s : State) (g : Group) (r : Nat) (x : Word) (lat : Nat) (own : Mask) : (s.putU g r x lat own).v = g.v := rfl
@[simp] theorem State.putU_m (s : State) (g : Group) (r : Nat) (x : Word) (lat : Nat) (own : Mask) : (s.putU g r x lat own).m = g.m := rfl
@[simp] theorem State.putU_shadow (s : State) (g : Group) (r : Nat) (x : Word) (lat : Nat) (own : Mask) : (s.putU g r x lat own).shadow = g.shadow := rfl
@[simp] theorem State.putU_tf (s : State) (g : Group) (r : Nat) (x : Word) (lat : Nat) (own : Mask) : (s.putU g r x lat own).tf = g.tf := rfl
@[simp] theorem State.putU_planes (s : State) (g : Group) (r : Nat) (x : Word) (lat : Nat) (own : Mask) : (s.putU g r x lat own).planes = g.planes := rfl
@[simp] theorem State.putU_exited (s : State) (g : Group) (r : Nat) (x : Word) (lat : Nat) (own : Mask) : (s.putU g r x lat own).exited = g.exited := rfl
@[simp] theorem State.putU_splits (s : State) (g : Group) (r : Nat) (x : Word) (lat : Nat) (own : Mask) : (s.putU g r x lat own).splits = g.splits := rfl
@[simp] theorem State.putU_defHead (s : State) (g : Group) (r : Nat) (x : Word) (lat : Nat) (own : Mask) : (s.putU g r x lat own).defHead = g.defHead := rfl
@[simp] theorem State.putU_defCount (s : State) (g : Group) (r : Nat) (x : Word) (lat : Nat) (own : Mask) : (s.putU g r x lat own).defCount = g.defCount := rfl
@[simp] theorem State.putU_defFrom (s : State) (g : Group) (r : Nat) (x : Word) (lat : Nat) (own : Mask) : (s.putU g r x lat own).defFrom = g.defFrom := rfl
@[simp] theorem State.putU_fpm (s : State) (g : Group) (r : Nat) (x : Word) (lat : Nat) (own : Mask) : (s.putU g r x lat own).fpm = g.fpm := rfl
@[simp] theorem State.putU_fpst (s : State) (g : Group) (r : Nat) (x : Word) (lat : Nat) (own : Mask) : (s.putU g r x lat own).fpst = g.fpst := rfl
@[simp] theorem State.putU_lcnt (s : State) (g : Group) (r : Nat) (x : Word) (lat : Nat) (own : Mask) : (s.putU g r x lat own).lcnt = g.lcnt := rfl
@[simp] theorem State.putU_mcnt (s : State) (g : Group) (r : Nat) (x : Word) (lat : Nat) (own : Mask) : (s.putU g r x lat own).mcnt = g.mcnt := rfl
@[simp] theorem State.putU_sbchk (s : State) (g : Group) (r : Nat) (x : Word) (lat : Nat) (own : Mask) : (s.putU g r x lat own).sbchk = g.sbchk := rfl
@[simp] theorem State.putU_bseq (s : State) (g : Group) (r : Nat) (x : Word) (lat : Nat) (own : Mask) : (s.putU g r x lat own).bseq = g.bseq := rfl
@[simp] theorem State.putU_bdone (s : State) (g : Group) (r : Nat) (x : Word) (lat : Nat) (own : Mask) : (s.putU g r x lat own).bdone = g.bdone := rfl
@[simp] theorem State.putU_batches (s : State) (g : Group) (r : Nat) (x : Word) (lat : Nat) (own : Mask) : (s.putU g r x lat own).batches = g.batches := rfl
@[simp] theorem State.putU_closed (s : State) (g : Group) (r : Nat) (x : Word) (lat : Nat) (own : Mask) : (s.putU g r x lat own).closed = g.closed := rfl
@[simp] theorem State.putU_tcause (s : State) (g : Group) (r : Nat) (x : Word) (lat : Nat) (own : Mask) : (s.putU g r x lat own).tcause = g.tcause := rfl
@[simp] theorem State.putU_taddr (s : State) (g : Group) (r : Nat) (x : Word) (lat : Nat) (own : Mask) : (s.putU g r x lat own).taddr = g.taddr := rfl
@[simp] theorem State.putU_toff (s : State) (g : Group) (r : Nat) (x : Word) (lat : Nat) (own : Mask) : (s.putU g r x lat own).toff = g.toff := rfl
@[simp] theorem State.putU_tmask (s : State) (g : Group) (r : Nat) (x : Word) (lat : Nat) (own : Mask) : (s.putU g r x lat own).tmask = g.tmask := rfl
@[simp] theorem State.putU_svpl0 (s : State) (g : Group) (r : Nat) (x : Word) (lat : Nat) (own : Mask) : (s.putU g r x lat own).svpl0 = g.svpl0 := rfl
@[simp] theorem State.putU_svpl1 (s : State) (g : Group) (r : Nat) (x : Word) (lat : Nat) (own : Mask) : (s.putU g r x lat own).svpl1 = g.svpl1 := rfl
@[simp] theorem State.putU_handler (s : State) (g : Group) (r : Nat) (x : Word) (lat : Nat) (own : Mask) : (s.putU g r x lat own).handler = g.handler := rfl
@[simp] theorem State.putU_aside (s : State) (g : Group) (r : Nat) (x : Word) (lat : Nat) (own : Mask) : (s.putU g r x lat own).aside = g.aside := rfl
@[simp] theorem State.putU_asideIid (s : State) (g : Group) (r : Nat) (x : Word) (lat : Nat) (own : Mask) : (s.putU g r x lat own).asideIid = g.asideIid := rfl
@[simp] theorem State.putU_vpois (s : State) (g : Group) (r : Nat) (x : Word) (lat : Nat) (own : Mask) : (s.putU g r x lat own).vpois = g.vpois := rfl
@[simp] theorem State.putU_mpois (s : State) (g : Group) (r : Nat) (x : Word) (lat : Nat) (own : Mask) : (s.putU g r x lat own).mpois = g.mpois := rfl
@[simp] theorem State.putU_accs (s : State) (g : Group) (r : Nat) (x : Word) (lat : Nat) (own : Mask) : (s.putU g r x lat own).accs = g.accs := rfl
@[simp] theorem State.putU_mops (s : State) (g : Group) (r : Nat) (x : Word) (lat : Nat) (own : Mask) : (s.putU g r x lat own).mops = g.mops := rfl
@[simp] theorem State.putU_tags (s : State) (g : Group) (r : Nat) (x : Word) (lat : Nat) (own : Mask) : (s.putU g r x lat own).tags = g.tags := rfl
@[simp] theorem State.putU_merr (s : State) (g : Group) (r : Nat) (x : Word) (lat : Nat) (own : Mask) : (s.putU g r x lat own).merr = g.merr := rfl
@[simp] theorem State.putU_lerr (s : State) (g : Group) (r : Nat) (x : Word) (lat : Nat) (own : Mask) : (s.putU g r x lat own).lerr = g.lerr := rfl
@[simp] theorem State.putU_issueSeq (s : State) (g : Group) (r : Nat) (x : Word) (lat : Nat) (own : Mask) : (s.putU g r x lat own).issueSeq = g.issueSeq := rfl
@[simp] theorem State.putU_parks (s : State) (g : Group) (r : Nat) (x : Word) (lat : Nat) (own : Mask) : (s.putU g r x lat own).parks = g.parks := rfl
@[simp] theorem State.putU_resident (s : State) (g : Group) (r : Nat) (x : Word) (lat : Nat) (own : Mask) : (s.putU g r x lat own).resident = g.resident := rfl
@[simp] theorem State.putU_firedAt (s : State) (g : Group) (r : Nat) (x : Word) (lat : Nat) (own : Mask) : (s.putU g r x lat own).firedAt = g.firedAt := rfl
@[simp] theorem State.putU_eventAt (s : State) (g : Group) (r : Nat) (x : Word) (lat : Nat) (own : Mask) : (s.putU g r x lat own).eventAt = g.eventAt := rfl
@[simp] theorem State.putU_stuckAt (s : State) (g : Group) (r : Nat) (x : Word) (lat : Nat) (own : Mask) : (s.putU g r x lat own).stuckAt = g.stuckAt := rfl
@[simp] theorem State.putU_movedAt (s : State) (g : Group) (r : Nat) (x : Word) (lat : Nat) (own : Mask) : (s.putU g r x lat own).movedAt = g.movedAt := rfl
@[simp] theorem State.putU_calls (s : State) (g : Group) (r : Nat) (x : Word) (lat : Nat) (own : Mask) : (s.putU g r x lat own).calls = g.calls := rfl
@[simp] theorem State.putU_dgst (s : State) (g : Group) (r : Nat) (x : Word) (lat : Nat) (own : Mask) : (s.putU g r x lat own).dgst = g.dgst := rfl
@[simp] theorem State.putU_dgen (s : State) (g : Group) (r : Nat) (x : Word) (lat : Nat) (own : Mask) : (s.putU g r x lat own).dgen = g.dgen := rfl
@[simp] theorem State.putU_rerr (s : State) (g : Group) (r : Nat) (x : Word) (lat : Nat) (own : Mask) : (s.putU g r x lat own).rerr = g.rerr := rfl
@[simp] theorem State.putU_rreason (s : State) (g : Group) (r : Nat) (x : Word) (lat : Nat) (own : Mask) : (s.putU g r x lat own).rreason = g.rreason := rfl
@[simp] theorem State.putU_lastIssue (s : State) (g : Group) (r : Nat) (x : Word) (lat : Nat) (own : Mask) : (s.putU g r x lat own).lastIssue = g.lastIssue := rfl
@[simp] theorem State.putU_ended (s : State) (g : Group) (r : Nat) (x : Word) (lat : Nat) (own : Mask) : (s.putU g r x lat own).ended = g.ended := rfl

end Sys2Proof.Machine
end

