-- ==== Sys2Proof/Laws/Tab.lean ====
section
/-! SUPPORT. Sorted tables: what a lookup answers after each operation, and that every operation keeps the canonical form. -/

namespace Sys2Proof.Machine

variable {α : Type}

/-! ### Lookups -/

@[simp] theorem Tab.find?_nil (i : Nat) : Tab.find? ([] : Tab α) i = none := rfl

@[simp] theorem Tab.find?_insert_self (t : Tab α) (i : Nat) (x : α) : Tab.find? (Tab.insert t i x) i = some x := by
  induction t with
  | nil => simp [Tab.insert, Tab.find?]
  | cons p t ih =>
    obtain ⟨k, v⟩ := p
    simp only [Tab.insert]
    split
    · simp [Tab.find?]
    · split
      · simp [Tab.find?]
      · simp only [Tab.find?]
        rw [if_neg (by omega)]
        exact ih

theorem Tab.find?_insert_ne (t : Tab α) {i j : Nat} (x : α) (h : j ≠ i) : Tab.find? (Tab.insert t i x) j = Tab.find? t j := by
  induction t with
  | nil => simp [Tab.insert, Tab.find?, Ne.symm h]
  | cons p t ih =>
    obtain ⟨k, v⟩ := p
    simp only [Tab.insert]
    split
    · simp [Tab.find?, Ne.symm h]
    · split
      · subst_vars
        simp [Tab.find?, Ne.symm h]
      · simp only [Tab.find?, ih]

@[simp] theorem Tab.find?_erase_self (t : Tab α) (i : Nat) : Tab.find? (Tab.erase t i) i = none := by
  induction t with
  | nil => rfl
  | cons p t ih =>
    obtain ⟨k, v⟩ := p
    simp only [Tab.erase]
    split
    · exact ih
    · simp [Tab.find?, *]

theorem Tab.find?_erase_ne (t : Tab α) {i j : Nat} (h : j ≠ i) : Tab.find? (Tab.erase t i) j = Tab.find? t j := by
  induction t with
  | nil => rfl
  | cons p t ih =>
    obtain ⟨k, v⟩ := p
    simp only [Tab.erase]
    split
    · rename_i hk
      subst hk
      simp [Tab.find?, Ne.symm h, ih]
    · simp [Tab.find?, ih]

theorem Tab.find?_modify (t : Tab α) (i j : Nat) (f : α → α) :
    Tab.find? (Tab.modify t i f) j = if j = i then (Tab.find? t j).map f else Tab.find? t j := by
  induction t with
  | nil => simp [Tab.modify, Tab.find?]
  | cons p t ih =>
    obtain ⟨k, v⟩ := p
    simp only [Tab.modify]
    by_cases h : k = i
    · subst h
      simp only [if_true, Tab.find?]
      by_cases hj : k = j
      · simp [hj]
      · simp [hj, Ne.symm hj]
    · simp only [h, if_false, Tab.find?, ih]
      by_cases hj : k = j
      · have : j ≠ i := fun e => h (hj.trans e)
        simp [hj, this]
      · simp [hj]

@[simp] theorem Tab.find?_modify_self (t : Tab α) (i : Nat) (f : α → α) :
    Tab.find? (Tab.modify t i f) i = (Tab.find? t i).map f := by simp [Tab.find?_modify]

theorem Tab.find?_modify_ne (t : Tab α) {i j : Nat} (f : α → α) (h : j ≠ i) :
    Tab.find? (Tab.modify t i f) j = Tab.find? t j := by simp [Tab.find?_modify, h]

/-- A change of a key that is not listed changes nothing. -/
theorem Tab.modify_of_none (t : Tab α) {i : Nat} (f : α → α) (h : Tab.find? t i = none) : Tab.modify t i f = t := by
  induction t with
  | nil => rfl
  | cons p t ih =>
    obtain ⟨k, v⟩ := p
    simp only [Tab.find?] at h
    by_cases hk : k = i
    · simp [hk] at h
    · simp only [hk, if_false] at h
      simp [Tab.modify, hk, ih h]

/-- Two changes of one key are one. -/
theorem Tab.modify_modify (t : Tab α) (i : Nat) (f g : α → α) : Tab.modify (Tab.modify t i f) i g = Tab.modify t i (g ∘ f) := by
  induction t with
  | nil => rfl
  | cons p t ih =>
    obtain ⟨k, v⟩ := p
    by_cases hk : k = i
    · simp [Tab.modify, hk]
    · simp [Tab.modify, hk, ih]

@[simp] theorem Tab.getD_nil (d : α) (i : Nat) : Tab.getD ([] : Tab α) d i = d := rfl

section Default
variable [DecidableEq α]

@[simp] theorem Tab.getD_setD_self (t : Tab α) (d : α) (i : Nat) (x : α) : Tab.getD (Tab.setD t d i x) d i = x := by
  unfold Tab.getD Tab.setD
  split
  · rename_i h; simp [h]
  · simp

theorem Tab.getD_setD_ne (t : Tab α) (d : α) {i j : Nat} (x : α) (h : j ≠ i) : Tab.getD (Tab.setD t d i x) d j = Tab.getD t d j := by
  unfold Tab.getD Tab.setD
  split
  · rw [Tab.find?_erase_ne _ h]
  · rw [Tab.find?_insert_ne _ _ h]

theorem Tab.getD_setD (t : Tab α) (d : α) (i j : Nat) (x : α) :
    Tab.getD (Tab.setD t d i x) d j = if j = i then x else Tab.getD t d j := by
  split
  · subst_vars; simp
  · exact Tab.getD_setD_ne _ _ _ ‹_›

end Default

/-! ### The canonical form -/

/-- Every key of a table is above k. -/
def Tab.above (k : Nat) (t : Tab α) : Prop := ∀ p ∈ t, k < p.1

theorem Tab.sorted_cons (k : Nat) (v : α) (t : Tab α) : Tab.sorted ((k, v) :: t) = true ↔ Tab.above k t ∧ Tab.sorted t = true := by
  induction t generalizing k v with
  | nil => simp [Tab.sorted, Tab.above]
  | cons p t ih =>
    obtain ⟨k', v'⟩ := p
    have h' := ih k' v'
    constructor
    · intro h
      simp only [Tab.sorted, Bool.and_eq_true, decide_eq_true_eq] at h
      obtain ⟨hk, hs⟩ := h
      have hs' : Tab.sorted ((k', v') :: t) = true := by simpa [Tab.sorted] using hs
      obtain ⟨ha, -⟩ := h'.1 hs'
      refine ⟨fun p hp => ?_, hs'⟩
      rcases List.mem_cons.1 hp with rfl | hp
      · exact hk
      · exact Nat.lt_trans hk (ha p hp)
    · rintro ⟨ha, hs⟩
      have hk : k < k' := ha (k', v') (by simp)
      show (decide (k < k') && Tab.sorted ((k', v') :: t)) = true
      simp [hk, hs]

theorem Tab.mem_erase {t : Tab α} {i : Nat} {p : Nat × α} (h : p ∈ Tab.erase t i) : p ∈ t := by
  induction t with
  | nil => simp [Tab.erase] at h
  | cons q t ih =>
    obtain ⟨k, v⟩ := q
    simp only [Tab.erase] at h
    split at h
    · exact List.mem_cons_of_mem _ (ih h)
    · rcases List.mem_cons.1 h with rfl | h
      · simp
      · exact List.mem_cons_of_mem _ (ih h)

theorem Tab.mem_insert {t : Tab α} {i : Nat} {x : α} {p : Nat × α} (h : p ∈ Tab.insert t i x) : p = (i, x) ∨ p ∈ t := by
  induction t with
  | nil => simpa [Tab.insert] using h
  | cons q t ih =>
    obtain ⟨k, v⟩ := q
    simp only [Tab.insert] at h
    split at h
    · rcases List.mem_cons.1 h with rfl | h
      · exact .inl rfl
      · exact .inr h
    · split at h
      · rcases List.mem_cons.1 h with rfl | h
        · exact .inl rfl
        · exact .inr (List.mem_cons_of_mem _ h)
      · rcases List.mem_cons.1 h with rfl | h
        · exact .inr (by simp)
        · rcases ih h with rfl | h
          · exact .inl rfl
          · exact .inr (List.mem_cons_of_mem _ h)

theorem Tab.sorted_erase {t : Tab α} {i : Nat} (h : Tab.sorted t = true) : Tab.sorted (Tab.erase t i) = true := by
  induction t with
  | nil => rfl
  | cons q t ih =>
    obtain ⟨k, v⟩ := q
    obtain ⟨ha, hs⟩ := (Tab.sorted_cons _ _ _).1 h
    simp only [Tab.erase]
    split
    · exact ih hs
    · exact (Tab.sorted_cons _ _ _).2 ⟨fun p hp => ha p (Tab.mem_erase hp), ih hs⟩

theorem Tab.sorted_insert {t : Tab α} {i : Nat} {x : α} (h : Tab.sorted t = true) : Tab.sorted (Tab.insert t i x) = true := by
  induction t with
  | nil => rfl
  | cons q t ih =>
    obtain ⟨k, v⟩ := q
    obtain ⟨ha, hs⟩ := (Tab.sorted_cons _ _ _).1 h
    simp only [Tab.insert]
    split
    · rename_i hik
      refine (Tab.sorted_cons _ _ _).2 ⟨fun p hp => ?_, h⟩
      rcases List.mem_cons.1 hp with rfl | hp
      · exact hik
      · exact Nat.lt_trans hik (ha p hp)
    · split
      · subst_vars
        exact (Tab.sorted_cons _ _ _).2 ⟨ha, hs⟩
      · refine (Tab.sorted_cons _ _ _).2 ⟨fun p hp => ?_, ih hs⟩
        rcases Tab.mem_insert hp with rfl | hp
        · show k < i; omega
        · exact ha p hp

section Canonical
variable [DecidableEq α]

/-- The canonical form, as its two conditions. -/
theorem Tab.wf_iff (d : α) (t : Tab α) : Tab.wf d t = true ↔ Tab.sorted t = true ∧ ∀ p ∈ t, p.2 ≠ d := by
  simp [Tab.wf]

theorem Tab.wf_nil (d : α) : Tab.wf d ([] : Tab α) = true := rfl

/-- A write keeps the canonical form. -/
theorem Tab.wf_setD {d : α} {t : Tab α} (h : Tab.wf d t = true) (i : Nat) (x : α) : Tab.wf d (Tab.setD t d i x) = true := by
  obtain ⟨hs, hd⟩ := (Tab.wf_iff d t).1 h
  refine (Tab.wf_iff _ _).2 ?_
  unfold Tab.setD
  split
  · exact ⟨Tab.sorted_erase hs, fun p hp => hd p (Tab.mem_erase hp)⟩
  · refine ⟨Tab.sorted_insert hs, fun p hp => ?_⟩
    rcases Tab.mem_insert hp with rfl | hp
    · assumption
    · exact hd p hp

omit [DecidableEq α] in
/-- A filter keeps the order of keys. -/
theorem Tab.sorted_filter {t : Tab α} (f : Nat × α → Bool) (h : Tab.sorted t = true) : Tab.sorted (List.filter f t) = true := by
  induction t with
  | nil => rfl
  | cons q t ih =>
    obtain ⟨k, v⟩ := q
    obtain ⟨ha, hs⟩ := (Tab.sorted_cons _ _ _).1 h
    simp only [List.filter]
    split
    · exact (Tab.sorted_cons _ _ _).2 ⟨fun p hp => ha p (List.mem_filter.1 hp).1, ih hs⟩
    · exact ih hs

/-- A filter keeps the canonical form. -/
theorem Tab.wf_filter {d : α} {t : Tab α} (f : Nat × α → Bool) (h : Tab.wf d t = true) : Tab.wf d (List.filter f t) = true := by
  obtain ⟨hs, hd⟩ := (Tab.wf_iff d t).1 h
  exact (Tab.wf_iff _ _).2 ⟨Tab.sorted_filter f hs, fun p hp => hd p (List.mem_filter.1 hp).1⟩

omit [DecidableEq α] in
/-- A key below every key of a table is not listed. -/
theorem Tab.find?_of_above {t : Tab α} {k i : Nat} (h : Tab.above k t) (hi : i ≤ k) : Tab.find? t i = none := by
  induction t with
  | nil => rfl
  | cons q t ih =>
    obtain ⟨k', v⟩ := q
    have : k < k' := h (k', v) (by simp)
    simp only [Tab.find?]
    rw [if_neg (by omega)]
    exact ih fun p hp => h p (List.mem_cons_of_mem _ hp)

/-- Tables in canonical form that answer alike at every key are one table. -/
theorem Tab.ext_of_wf {d : α} {t u : Tab α} (ht : Tab.wf d t = true) (hu : Tab.wf d u = true)
    (h : ∀ i, Tab.getD t d i = Tab.getD u d i) : t = u := by
  obtain ⟨hts, htd⟩ := (Tab.wf_iff d t).1 ht
  obtain ⟨hus, hud⟩ := (Tab.wf_iff d u).1 hu
  clear ht hu
  induction t generalizing u with
  | nil =>
    cases u with
    | nil => rfl
    | cons q u =>
      obtain ⟨k, v⟩ := q
      have := h k
      simp [Tab.getD, Tab.find?] at this
      exact absurd this.symm (hud (k, v) (by simp))
  | cons p t ih =>
    obtain ⟨k, v⟩ := p
    obtain ⟨hta, hts⟩ := (Tab.sorted_cons _ _ _).1 hts
    cases u with
    | nil =>
      have := h k
      simp [Tab.getD, Tab.find?] at this
      exact absurd this (htd (k, v) (by simp))
    | cons q u =>
      obtain ⟨k', v'⟩ := q
      obtain ⟨hua, hus'⟩ := (Tab.sorted_cons _ _ _).1 hus
      have hkk : k = k' := by
        rcases Nat.lt_trichotomy k k' with hlt | heq | hlt
        · have := h k
          simp only [Tab.getD, Tab.find?, if_true, Option.getD_some] at this
          rw [if_neg (by omega), Tab.find?_of_above hua (by omega)] at this
          exact absurd this (htd (k, v) (by simp))
        · exact heq
        · have := h k'
          simp only [Tab.getD, Tab.find?, if_true, Option.getD_some] at this
          rw [if_neg (by omega), Tab.find?_of_above hta (by omega)] at this
          exact absurd this.symm (hud (k', v') (by simp))
      subst hkk
      have hv : v = v' := by simpa [Tab.getD, Tab.find?] using h k
      subst hv
      congr 1
      refine ih (fun i => ?_) hts (fun p hp => htd p (List.mem_cons_of_mem _ hp)) hus' (fun p hp => hud p (List.mem_cons_of_mem _ hp))
      by_cases hi : i = k
      · subst hi
        simp [Tab.getD, Tab.find?_of_above hta (Nat.le_refl _), Tab.find?_of_above hua (Nat.le_refl _)]
      · have := h i
        simpa [Tab.getD, Tab.find?, Ne.symm hi] using this

end Canonical

end Sys2Proof.Machine
end

