-- ==== Sys2Proof/Laws/Registers.lean ====
section
/-! SUPPORT. The shared operations on registers: what a read answers where nothing is pending, what a write leaves in every register and what it
leaves alone, and that an issue whose registers pass their checks runs its meaning. -/

namespace Sys2Proof.Machine

/-! ### Groups and splits by name -/

/-- A changed group that exists is the change of the group. -/
theorem State.group_modGroup_self (s : State) (g : Nat) (f : Group → Group) (h : (s.groups.find? g).isSome = true) :
    (s.modGroup g f).group g = f (s.group g) := by
  obtain ⟨x, hx⟩ := Option.isSome_iff_exists.1 h
  simp [State.group, State.modGroup, hx]

/-- Every other group is unchanged. -/
theorem State.group_modGroup_ne (s : State) {g k : Nat} (f : Group → Group) (h : k ≠ g) : (s.modGroup g f).group k = s.group k := by
  simp [State.group, State.modGroup, Tab.find?_modify_ne _ _ h]

/-- The issuing group after a change of it. -/
theorem State.grp_modGrp (s : State) (f : Group → Group) (h : (s.groups.find? s.cur.gid).isSome = true) : (s.modGrp f).grp = f s.grp :=
  s.group_modGroup_self s.cur.gid f h

/-- A change of a group keeps which groups exist. -/
theorem State.find?_modGroup (s : State) (g k : Nat) (f : Group → Group) :
    (s.modGroup g f).groups.find? k = if k = g then (s.groups.find? k).map f else s.groups.find? k := Tab.find?_modify _ _ _ _

/-- The issuing group still exists after a change of it. -/
theorem State.issuing_modGrp (s : State) (f : Group → Group) (h : (s.groups.find? s.cur.gid).isSome = true) :
    ((s.modGrp f).groups.find? (s.modGrp f).cur.gid).isSome = true := by
  simpa [State.modGrp, State.modGroup] using h

/-- A changed split that exists is the change of the split. -/
theorem Group.split_modSplit_self (g : Group) (e : Nat) (f : Split → Split) (h : (g.splits.find? e).isSome = true) :
    (g.modSplit e f).split e = f (g.split e) := by
  obtain ⟨x, hx⟩ := Option.isSome_iff_exists.1 h
  simp [Group.split, Group.modSplit, hx]

/-- The issuing split after a change of it. -/
theorem State.spl_modSpl (s : State) (f : Split → Split) (h : (s.groups.find? s.cur.gid).isSome = true)
    (hs : (s.grp.splits.find? s.cur.ent).isSome = true) : (s.modSpl f).spl = f s.spl := by
  have : (s.modSpl f).grp = s.grp.modSplit s.cur.ent f := s.grp_modGrp _ h
  show (s.modSpl f).grp.split s.cur.ent = f (s.grp.split s.cur.ent)
  rw [this, Group.split_modSplit_self _ _ _ hs]

/-! ### Keys -/

/-- Keys of vector registers tell registers and lanes apart. -/
theorem vkey_inj {r r' k k' : Nat} (hr : r < 128) (hr' : r' < 128) : vkey r k = vkey r' k' ↔ r = r' ∧ k = k' := by
  unfold vkey; omega

/-! ### What is pending -/

/-- Nothing of another instruction is pending for a register in a lane, and no load of it is uncovered (R186, R228). -/
def State.Settled (s : State) (g : Group) (k : RegKind) (num lane : Nat) : Prop :=
  g.uncovered s.iid k num lane = false ∧ g.lateOf s.now s.iid k num lane = none

/-- A register whose use has nothing pending is settled in every lane. -/
theorem State.settled_of_pendingUse (s : State) (g : Group) (own : Mask) (u : Use) (hk : u.kind ≠ .sc)
    (h : g.pendingUse s.now s.iid own u = false) (lane : Nat) : s.Settled g u.kind u.num lane := by
  simp only [Group.pendingUse, Bool.or_eq_false_iff, List.any_eq_false] at h
  obtain ⟨hl, hu⟩ := h
  constructor
  · simp only [Group.uncovered, List.any_eq_false]
    intro x hx hp
    refine hu x hx ?_
    simp only [Bool.and_eq_true] at hp ⊢
    exact ⟨⟨hp.1.1.1, hp.1.1.2⟩, hp.2⟩
  · simp only [Group.lateOf, List.find?_eq_none]
    intro x hx hp
    refine hl x hx ?_
    simp only [Bool.and_eq_true] at hp ⊢
    obtain ⟨⟨⟨⟨h1, h2⟩, h3⟩, h4⟩, h5⟩ := hp
    refine ⟨⟨⟨⟨h1, by simp [h2]⟩, h4⟩, h5⟩, ?_⟩
    cases hh : u.kind <;> simp_all

/-- A settled register reads as the register file holds it. -/
theorem State.observe_settled (s : State) (g : Group) (k : RegKind) (num lane : Nat) (v : Word) (h : s.Settled g k num lane) :
    s.observe g k num lane v = v := by
  simp [State.observe, h.1, h.2]

/-- A write of a settled register leaves the new value. -/
theorem State.settleWrite_settled (s : State) (g : Group) (k : RegKind) (num lane : Nat) (old new : Word) (h : s.Settled g k num lane) :
    s.settleWrite g k num lane old new = new := by
  simp [State.settleWrite, h.1, h.2]

/-! ### One write -/

/-- What a write of a vector register leaves in every register of every lane. -/
theorem State.putV_vreg (s : State) (g : Group) (r lane : Nat) (x : Word) (lat : Nat) (own : Mask) (h : s.Settled g .vec r lane)
    (hr : r < 128) (q k : Nat) (hq : q < 128) :
    (s.putV g r lane x lat own).vreg q k = if q = r ∧ k = lane then x else g.vreg q k := by
  simp only [State.putV, Group.vreg, s.settleWrite_settled g _ _ _ _ _ h, Tab.getD_setD, vkey_inj hq hr]

/-- What a write of a uniform register leaves in every uniform register. -/
theorem State.putU_ureg (s : State) (g : Group) (r : Nat) (x : Word) (lat : Nat) (own : Mask) (h : s.Settled g .uni r 0) (q : Nat) :
    (s.putU g r x lat own).ureg q = if q = r then x else g.ureg q := by
  simp only [State.putU, Group.ureg, s.settleWrite_settled g _ _ _ _ _ h, Tab.getD_setD]

/-- The pending writes of other instructions are those from before a write, or fewer. -/
theorem State.lateAfter_sub (s : State) (g : Group) (k : RegKind) (num lane : Nat) (old : Word) (lat : Nat) (own : Mask) (l : Late)
    (h : l ∈ s.lateAfter g k num lane old lat own) : l ∈ g.late ∨ l.iid = s.iid := by
  unfold State.lateAfter at h
  split at h
  · exact .inl h
  · simp only [List.mem_append, List.mem_filter, List.mem_singleton] at h
    rcases h with ⟨h, -⟩ | h
    · exact .inl h
    · exact .inr (by rw [h])

/-- A write with a latency is pending. -/
theorem State.lateAfter_new (s : State) (g : Group) (k : RegKind) (num lane : Nat) (old : Word) (lat : Nat) (own : Mask) (h : lat ≠ 0) :
    ∃ l ∈ s.lateAfter g k num lane old lat own, l.kind = k ∧ l.num = num ∧ l.lane = lane ∧ l.land = s.now + lat := by
  unfold State.lateAfter
  rw [if_neg h]
  exact ⟨_, List.mem_append_right _ (List.mem_singleton.2 rfl), rfl, rfl, rfl, rfl⟩

/-- A group whose pending writes of other instructions are among those of another group, and whose uncovered loads are the same but for marks. -/
theorem State.settled_mono (s : State) (g g' : Group) (k : RegKind) (num lane : Nat)
    (hl : ∀ l ∈ g'.late, l ∈ g.late ∨ l.iid = s.iid)
    (hu : ∀ u ∈ g'.uncov, ∃ v ∈ g.uncov, v.kind = u.kind ∧ v.num = u.num ∧ v.lane = u.lane ∧ v.iid = u.iid)
    (h : s.Settled g k num lane) : s.Settled g' k num lane := by
  obtain ⟨h1, h2⟩ := h
  simp only [Group.uncovered, List.any_eq_false] at h1
  simp only [Group.lateOf, List.find?_eq_none] at h2
  constructor
  · simp only [Group.uncovered, List.any_eq_false]
    intro u hum hp
    obtain ⟨v, hv, e1, e2, e3, e4⟩ := hu u hum
    exact h1 v hv (by rw [e1, e2, e3, e4]; exact hp)
  · simp only [Group.lateOf, List.find?_eq_none]
    intro l hlm hp
    rcases hl l hlm with h | h
    · exact h2 l h hp
    · simp [h] at hp

/-- Marking loads as clobbered changes nothing else of them. -/
theorem Group.clobber_spec (g : Group) (iid : Nat) (k : RegKind) (num lane : Nat) (u : Uncov) (h : u ∈ g.clobber iid k num lane) :
    ∃ v ∈ g.uncov, v.kind = u.kind ∧ v.num = u.num ∧ v.lane = u.lane ∧ v.iid = u.iid := by
  simp only [Group.clobber, List.mem_map] at h
  obtain ⟨v, hv, rfl⟩ := h
  exact ⟨v, hv, by split <;> simp⟩

/-- A write of a vector register leaves settled what was settled. -/
theorem State.settled_putV (s : State) (g : Group) (r lane : Nat) (x : Word) (lat : Nat) (own : Mask) (k : RegKind) (num i : Nat)
    (h : s.Settled g k num i) : s.Settled (s.putV g r lane x lat own) k num i :=
  s.settled_mono g _ k num i (fun _ hl => s.lateAfter_sub g _ _ _ _ _ _ _ hl) (fun _ hu => g.clobber_spec _ _ _ _ _ hu) h

/-- A write of a uniform register leaves settled what was settled. -/
theorem State.settled_putU (s : State) (g : Group) (r : Nat) (x : Word) (lat : Nat) (own : Mask) (k : RegKind) (num i : Nat)
    (h : s.Settled g k num i) : s.Settled (s.putU g r x lat own) k num i :=
  s.settled_mono g _ k num i (fun _ hl => s.lateAfter_sub g _ _ _ _ _ _ _ hl) (fun _ hu => g.clobber_spec _ _ _ _ _ hu) h

/-! ### Writes of lanes -/

/-- The lanes of a mask. -/
theorem mem_lanesOf (m : Mask) (k : Nat) : k ∈ lanesOf m ↔ k < 32 ∧ m.getLsbD k = true := by
  simp [lanesOf]

/-- The group after writes of a vector register in a list of lanes. -/
def State.putLanes (s : State) (r lat : Nat) (own : Mask) (f : Nat → Word) (ls : List Nat) (g : Group) : Group :=
  ls.foldl (fun g i => s.putV g r i (f i) lat own) g

theorem State.putLanes_nil (s : State) (r lat : Nat) (own : Mask) (f : Nat → Word) (g : Group) : s.putLanes r lat own f [] g = g := rfl
theorem State.putLanes_cons (s : State) (r lat : Nat) (own : Mask) (f : Nat → Word) (i : Nat) (ls : List Nat) (g : Group) :
    s.putLanes r lat own f (i :: ls) g = s.putLanes r lat own f ls (s.putV g r i (f i) lat own) := rfl

/-- What writes of lanes leave in every register of every lane. -/
theorem State.putLanes_vreg (s : State) (r lat : Nat) (own : Mask) (f : Nat → Word) (ls : List Nat) (g : Group)
    (h : ∀ i, s.Settled g .vec r i) (hr : r < 128) (q k : Nat) (hq : q < 128) :
    (s.putLanes r lat own f ls g).vreg q k = if q = r ∧ k ∈ ls then f k else g.vreg q k := by
  induction ls generalizing g with
  | nil => simp [State.putLanes_nil]
  | cons i ls ih =>
    rw [State.putLanes_cons, ih _ fun j => s.settled_putV g r i (f i) lat own .vec r j (h j), s.putV_vreg g r i _ lat own (h i) hr q k hq]
    by_cases hq' : q = r <;> by_cases hk : k ∈ ls <;> by_cases hi : k = i <;> simp_all

/-- Writes of lanes touch only the vector registers, their poison and what is pending. -/
theorem State.putLanes_frame (s : State) (r lat : Nat) (own : Mask) (f : Nat → Word) (ls : List Nat) (g : Group) :
    s.putLanes r lat own f ls g = { g with
      v := (s.putLanes r lat own f ls g).v, vpois := (s.putLanes r lat own f ls g).vpois,
      late := (s.putLanes r lat own f ls g).late, uncov := (s.putLanes r lat own f ls g).uncov } := by
  induction ls generalizing g with
  | nil => rfl
  | cons i ls ih =>
    rw [State.putLanes_cons, ih (s.putV g r i (f i) lat own)]
    rfl

/-- A pending write of a lane stays pending while other lanes are written. -/
theorem State.putLanes_late_keep (s : State) (r lat : Nat) (own : Mask) (f : Nat → Word) (ls : List Nat) (g : Group) (l : Late)
    (hl : l ∈ g.late) (h : l.lane ∉ ls) : l ∈ (s.putLanes r lat own f ls g).late := by
  induction ls generalizing g with
  | nil => exact hl
  | cons i ls ih =>
    rw [State.putLanes_cons]
    refine ih _ ?_ (fun h' => h (by simp [h']))
    show l ∈ s.lateAfter g .vec r i (g.vreg r i) lat own
    unfold State.lateAfter
    split
    · exact hl
    · have : l.lane ≠ i := fun e => h (by simp [e])
      simp [hl, this]

/-- Writes of lanes with a latency are pending in each of them. -/
theorem State.putLanes_late (s : State) (r lat : Nat) (own : Mask) (f : Nat → Word) (ls : List Nat) (g : Group) (hlat : lat ≠ 0)
    (hn : ls.Nodup) (k : Nat) (hk : k ∈ ls) :
    ∃ l ∈ (s.putLanes r lat own f ls g).late, l.kind = .vec ∧ l.num = r ∧ l.lane = k ∧ l.land = s.now + lat := by
  induction ls generalizing g with
  | nil => simp at hk
  | cons i ls ih =>
    rw [State.putLanes_cons]
    obtain ⟨hi, hn⟩ := List.nodup_cons.1 hn
    by_cases hki : k = i
    · subst hki
      obtain ⟨l, hl, h1, h2, h3, h4⟩ := s.lateAfter_new g .vec r k (g.vreg r k) lat own hlat
      exact ⟨l, s.putLanes_late_keep r lat own f ls _ l hl (h3 ▸ hi), h1, h2, h3, h4⟩
    · exact ih _ hn (by simpa [hki] using hk)

/-- The state after a write of a vector register in the lanes of a mask, as a change of the issuing group. -/
theorem State.writeV_eq (s : State) (r : Nat) (m : Mask) (lat : Nat) (f : Nat → Word) :
    s.writeV r m lat f = s.modGrp (s.putLanes r lat s.spl.owned f (lanesOf m)) := rfl

/-! ### Issues whose registers pass their checks -/

/-- An issue whose registers pass their checks runs its meaning (R46, R67, R186, R234, R275). -/
theorem State.guarded_clear (s : State) (lanes : Mask) (uses : List Use) (body : State → State)
    (h1 : uses.any s.grp.unallocated = false) (h2 : uses.any (s.grp.pendingUse s.now s.iid s.spl.owned) = false)
    (h3 : s.operandHazards uses = []) (h4 : s.firstPoison lanes uses = none) : s.guarded lanes uses body = body s := by
  have h2' : uses.find? (s.grp.pendingUse s.now s.iid s.spl.owned) = none := by
    simp only [List.any_eq_false] at h2
    simpa [List.find?_eq_none] using h2
  unfold State.guarded
  simp only [h1, h3, State.guarded.poisonCheck, h4, h2']
  split <;> simp_all

/-- A register named among uses with nothing pending is settled in every lane. -/
theorem State.settled_of_any (s : State) (uses : List Use) (h : uses.any (s.grp.pendingUse s.now s.iid s.spl.owned) = false) (u : Use)
    (hu : u ∈ uses) (hk : u.kind ≠ .sc) (lane : Nat) : s.Settled s.grp u.kind u.num lane :=
  s.settled_of_pendingUse s.grp s.spl.owned u hk (by simpa using List.any_eq_false.1 h u hu) lane

/-- A settled vector register reads as the register file holds it. -/
theorem State.readV_settled (s : State) (r lane : Nat) (h : s.Settled s.grp .vec r lane) : s.readV r lane = s.grp.vreg r lane :=
  s.observe_settled _ _ _ _ _ h

/-- A settled uniform register reads as the register file holds it. -/
theorem State.readU_settled (s : State) (r : Nat) (h : s.Settled s.grp .uni r 0) : s.readU r = s.grp.ureg r :=
  s.observe_settled _ _ _ _ _ h

/-- SC reads as the split holds it where no VVOTE of another instruction is pending. -/
theorem State.readSc_of_any (s : State) (uses : List Use) (h : uses.any (s.grp.pendingUse s.now s.iid s.spl.owned) = false) (u : Use)
    (hu : u ∈ uses) (hk : u.kind = .sc) : s.readSc = s.spl.sc := by
  have hp := List.any_eq_false.1 h u hu
  simp only [Group.pendingUse, hk, Bool.or_eq_true, not_or] at hp
  have : (s.grp.late.find? fun l => l.kind = .sc && (l.own &&& s.spl.owned) != 0 && decide (s.now < l.land) && l.iid != s.iid) = none := by
    rw [List.find?_eq_none]
    intro l hl hc
    simp only [List.any_eq_true, not_exists, not_and, Bool.and_eq_true, decide_eq_true_eq, bne_iff_ne, ne_eq] at hp hc
    obtain ⟨⟨⟨h1, h2⟩, h3⟩, h4⟩ := hc
    exact hp.1 l hl (by simp [h1, h3, h4]) (by simpa using h2)
  unfold State.readSc
  rw [this]

end Sys2Proof.Machine
end

