-- ==== Sys2Proof/Laws/Lanes.lean ====
section
/-! SUPPORT. What a write of a vector or a uniform register leaves, and what the entry of a trap leaves. -/

namespace Sys2Proof.Machine

theorem activeFlags_zero (m : Mask) : activeFlags m (fun _ => 0) = 0 := by
  unfold activeFlags
  induction lanesOf m with
  | nil => rfl
  | cons a l ih => simpa using ih

theorem memoryKept_of_groups (s t : State) (h : t = { s with groups := t.groups }) : MemoryKept s t := by
  rw [h]; exact ⟨fun _ => rfl, fun c n => by cases c <;> rfl, fun _ _ => rfl⟩

theorem writeV_post (s : State) (d : VReg) (m : Mask) (lat : Nat) (f : Nat → Word) (fl : FpFlags) (hi : s.Issuing)
    (hlat : lat ≠ 0) (hs : ∀ k, s.Settled s.grp .vec d.toNat k) :
    LaneWritten s ((s.setFlags fl).writeV d.toNat m lat f) d m lat f fl := by
  have hg : ((s.setFlags fl).groups.find? (s.setFlags fl).cur.gid).isSome = true := s.issuing_modGrp _ hi.1
  have h1 : (s.setFlags fl).grp = { s.grp with fpst := s.grp.fpst ||| fl } := s.grp_modGrp _ hi.1
  let g1 : Group := { s.grp with fpst := s.grp.fpst ||| fl }
  let own := (s.setFlags fl).spl.owned
  have h2 : ((s.setFlags fl).writeV d.toNat m lat f).grp = (s.setFlags fl).putLanes d.toNat lat own f (lanesOf m) g1 := by
    rw [State.writeV_eq, State.grp_modGrp _ _ hg, h1]
  have hset : ∀ k, (s.setFlags fl).Settled g1 .vec d.toNat k := hs
  refine ⟨?_, ?_, ?_, ?_⟩
  · intro r k hk
    rw [h2, State.putLanes_vreg _ _ _ _ _ _ _ hset d.isLt _ _ r.isLt]
    simp only [mem_lanesOf, hk, true_and, BitVec.toNat_inj]
    rfl
  · rw [h2, State.putLanes_frame]
  · intro k hk hm
    rw [h2]
    obtain ⟨l, hl, a, b, c, e⟩ := State.putLanes_late (s.setFlags fl) d.toNat lat own f (lanesOf m) g1 hlat
      (List.Pairwise.filter _ List.nodup_range) k ((mem_lanesOf _ _).2 ⟨hk, hm⟩)
    exact ⟨l, hl, a, b, c, e⟩
  · have ht : (s.setFlags fl).writeV d.toNat m lat f = { s with groups := ((s.setFlags fl).writeV d.toNat m lat f).groups } := rfl
    refine ⟨⟨ht, ?_, memoryKept_of_groups _ _ ht⟩, ?_⟩
    · intro g hne
      simp only [State.writeV_eq, State.setFlags, State.modGrp, State.modGroup]
      rw [Tab.find?_modify_ne _ _ hne, Tab.find?_modify_ne _ _ hne]
    · rw [h2, State.putLanes_frame]

theorem laneFlagOp_post (s : State) (d : VReg) (uses : List Use) (lat : Nat) (f : State → Nat → Word × FpFlags)
    (hi : s.Issuing) (hc : s.Clear s.lanes uses) (hd : wrV d ∈ uses) (hlat : lat ≠ 0)
    (hf : activeFlags s.cur.mask (fun k => (f s k).2) &&& s.grp.enabled = 0) :
    LaneWritten s (s.laneFlagOp d uses lat f) d s.lanes lat (fun k => (f s k).1) (activeFlags s.cur.mask fun k => (f s k).2) := by
  obtain ⟨c1, c2, c3, c4⟩ := hc
  have : s.laneFlagOp d uses lat f = (s.setFlags (activeFlags s.cur.mask fun k => (f s k).2)).writeV d.toNat s.lanes lat fun i => (f s i).1 := by
    unfold State.laneFlagOp
    rw [s.guarded_clear _ _ _ c1 c2 c3 c4]
    unfold State.withFlags
    rw [if_pos hf]
  rw [this]
  refine writeV_post s d s.lanes lat _ _ hi hlat ?_
  intro k
  exact s.settled_of_any uses c2 _ hd (by simp [wrV]) k

theorem setFlags_zero (s : State) : s.setFlags 0 = s := by
  have h : (fun g : Group => { g with fpst := g.fpst ||| 0 }) = id := by
    funext g; simp
  unfold State.setFlags State.modGrp State.modGroup
  rw [h]
  have : ∀ t : Tab Group, Tab.modify t s.cur.gid id = t := by
    intro t; induction t with
    | nil => rfl
    | cons p t ih => obtain ⟨k, v⟩ := p; simp [Tab.modify, ih]
  rw [this]

theorem laneOp_eq (s : State) (d : VReg) (uses : List Use) (lat : Nat) (f : State → Nat → Word) (h : s.Clear s.lanes uses) :
    s.laneOp d uses lat f = s.laneFlagOp d uses lat fun s i => (f s i, 0) := by
  obtain ⟨c1, c2, c3, c4⟩ := h
  unfold State.laneOp State.laneFlagOp
  rw [s.guarded_clear _ _ _ c1 c2 c3 c4, s.guarded_clear _ _ _ c1 c2 c3 c4]
  simp only [State.withFlags, activeFlags_zero, setFlags_zero]
  simp

/-- What a write of a uniform register leaves, after the flags are set. -/
theorem writeU_post (s : State) (d : UReg) (lat : Nat) (x : Word) (fl : FpFlags) (hi : s.Issuing)
    (hlat : lat ≠ 0) (hs : s.Settled s.grp .uni d.toNat 0) :
    UniWritten s ((s.setFlags fl).writeU d.toNat x lat) d lat x fl := by
  have hg : ((s.setFlags fl).groups.find? (s.setFlags fl).cur.gid).isSome = true := s.issuing_modGrp _ hi.1
  have h1 : (s.setFlags fl).grp = { s.grp with fpst := s.grp.fpst ||| fl } := s.grp_modGrp _ hi.1
  let g1 : Group := { s.grp with fpst := s.grp.fpst ||| fl }
  let own := (s.setFlags fl).spl.owned
  have h2 : ((s.setFlags fl).writeU d.toNat x lat).grp = (s.setFlags fl).putU g1 d.toNat x lat own := by
    unfold State.writeU; rw [State.grp_modGrp _ _ hg, h1]
  have hset : (s.setFlags fl).Settled g1 .uni d.toNat 0 := hs
  refine ⟨?_, ?_, ?_, ?_⟩
  · intro r
    rw [h2, State.putU_ureg _ _ _ _ _ _ hset]
    simp only [BitVec.toNat_inj]
    rfl
  · rw [h2]; rfl
  · unfold UniformPending
    rw [h2]
    obtain ⟨l, hl, a, b, _, e⟩ := State.lateAfter_new (s.setFlags fl) g1 .uni d.toNat 0 (g1.ureg d.toNat) lat own hlat
    exact ⟨l, hl, a, b, e⟩
  · have ht : (s.setFlags fl).writeU d.toNat x lat = { s with groups := ((s.setFlags fl).writeU d.toNat x lat).groups } := rfl
    refine ⟨⟨ht, ?_, memoryKept_of_groups _ _ ht⟩, ?_⟩
    · intro g hne
      simp only [State.writeU, State.setFlags, State.modGrp, State.modGroup]
      rw [Tab.find?_modify_ne _ _ hne, Tab.find?_modify_ne _ _ hne]
    · rw [h2]; rfl

/-- A vector register that an issue names reads as the register file holds it, once its checks have passed. -/
theorem readV_named {s : State} {lanes : Mask} {uses : List Use} (c : s.Clear lanes uses) (r : VReg)
    (h : (uses.any fun u => u.kind = .vec && u.num == r.toNat) = true) (k : Nat) : s.readV r.toNat k = s.grp.vreg r.toNat k := by
  simp only [List.any_eq_true, Bool.and_eq_true, decide_eq_true_eq, beq_iff_eq] at h
  obtain ⟨u, hu, h1, h2⟩ := h
  apply State.readV_settled
  have := s.settled_of_any uses c.2.1 u hu (by simp [h1]) k
  simpa [h1, h2] using this

/-- A uniform register that an issue names reads as the register file holds it, once its checks have passed. -/
theorem readU_named {s : State} {lanes : Mask} {uses : List Use} (c : s.Clear lanes uses) (r : UReg)
    (h : (uses.any fun u => u.kind = .uni && u.num == r.toNat) = true) : s.readU r.toNat = s.grp.ureg r.toNat := by
  simp only [List.any_eq_true, Bool.and_eq_true, decide_eq_true_eq, beq_iff_eq] at h
  obtain ⟨u, hu, h1, h2⟩ := h
  apply State.readU_settled
  have := s.settled_of_any uses c.2.1 u hu (by simp [h1]) 0
  simpa [h1, h2] using this

/-- A sub-element of source B (R111). -/
theorem readB_elem {s : State} {lanes : Mask} {uses : List Use} (c : s.Clear lanes uses) (w : Nat) (b : VSrc) (hu : useB w b ∈ uses)
    (k j : Nat) (hj : j < 64 / w) : elemAt w j (s.readB w b k) = s.srcs.bElem w b k j := by
  cases b with
  | vec r =>
    have h : (uses.any fun u => u.kind = .vec && u.num == r.toNat) = true := List.any_eq_true.2 ⟨_, hu, by simp [useB, rdV]⟩
    simp only [State.readB, readV_named c r h, Srcs.bElem, State.srcs]
  | uni r =>
    have h : (uses.any fun u => u.kind = .uni && u.num == r.toNat) = true := List.any_eq_true.2 ⟨_, hu, by simp [useB, rdUw]⟩
    simp only [State.readB, readU_named c r h, Srcs.bElem, State.srcs, elemAt_packElems w j _ hj]
    simp [elemAt]

/-- Source B, whole. -/
theorem readB_whole {s : State} {lanes : Mask} {uses : List Use} (c : s.Clear lanes uses) (w : Nat) (b : VSrc) (hu : useB w b ∈ uses)
    (k : Nat) : s.readBAll b k = s.srcs.whole b k := by
  cases b with
  | vec r =>
    have h : (uses.any fun u => u.kind = .vec && u.num == r.toNat) = true := List.any_eq_true.2 ⟨_, hu, by simp [useB, rdV]⟩
    simp only [State.readBAll, readV_named c r h, Srcs.whole, State.srcs]
  | uni r =>
    have h : (uses.any fun u => u.kind = .uni && u.num == r.toNat) = true := List.any_eq_true.2 ⟨_, hu, by simp [useB, rdUw]⟩
    simp only [State.readBAll, readU_named c r h, Srcs.whole, State.srcs]

/-- A uniform second source. -/
theorem readS_named {s : State} {lanes : Mask} {uses : List Use} (c : s.Clear lanes uses) (w : Nat) (b : USrc)
    (hu : ∀ u ∈ usesS w b, u ∈ uses) : s.readS b = s.src2 b := by
  cases b with
  | reg r =>
    have h : (uses.any fun u => u.kind = .uni && u.num == r.toNat) = true :=
      List.any_eq_true.2 ⟨rdUw w r, hu _ (by simp [usesS]), by simp [rdUw]⟩
    simp only [State.readS, readU_named c r h, State.src2]
  | imm k => rfl

end Sys2Proof.Machine
end

