-- ==== Sys2Proof/Laws/PerInstr.lean ====
section
/-! SUPPORT. Statements made per instruction: the fields that the encoder writes for an instruction are those that the decoder names the same
instruction from, operand for operand (R72 to R92). -/

namespace Sys2Proof.Laws.ParseBack

/-- The fields of an instruction name that instruction. -/
def Statement (i : Instr) : Prop := ∀ r, i.toRaw = some r → r.parse = some i

/-- From the fields themselves. -/
theorem of_fields {i : Instr} {x : Raw} (h : i.toRaw = some x) (hp : x.parse = some i) : Statement i := by
  intro r hr; rw [h] at hr; cases hr; exact hp

theorem vaddShort (o : ShV) : Statement (.vaddShort o) := of_fields rfl (congrArg (Option.map Instr.vaddShort) (ShV.of_raw 0x00 o))
theorem vsubShort (o : ShV) : Statement (.vsubShort o) := of_fields rfl (congrArg (Option.map Instr.vsubShort) (ShV.of_raw 0x01 o))
theorem vaddi (o : ShI) : Statement (.vaddi o) := of_fields rfl (congrArg (Option.map Instr.vaddi) (ShI.of_raw 0x02 o))
theorem vmulShort (o : ShV) : Statement (.vmulShort o) := of_fields rfl (congrArg (Option.map Instr.vmulShort) (ShV.of_raw 0x03 o))
theorem vandShort (o : ShV) : Statement (.vandShort o) := of_fields rfl (congrArg (Option.map Instr.vandShort) (ShV.of_raw 0x04 o))
theorem vorShort (o : ShV) : Statement (.vorShort o) := of_fields rfl (congrArg (Option.map Instr.vorShort) (ShV.of_raw 0x05 o))
theorem vxorShort (o : ShV) : Statement (.vxorShort o) := of_fields rfl (congrArg (Option.map Instr.vxorShort) (ShV.of_raw 0x06 o))
theorem vshli (o : ShI) : Statement (.vshli o) := of_fields rfl (congrArg (Option.map Instr.vshli) (ShI.of_raw 0x07 o))
theorem vshri (o : ShI) : Statement (.vshri o) := of_fields rfl (congrArg (Option.map Instr.vshri) (ShI.of_raw 0x08 o))
theorem vsrai (o : ShI) : Statement (.vsrai o) := of_fields rfl (congrArg (Option.map Instr.vsrai) (ShI.of_raw 0x09 o))
theorem vminShort (o : ShV) : Statement (.vminShort o) := of_fields rfl (congrArg (Option.map Instr.vminShort) (ShV.of_raw 0x0A o))
theorem vmaxShort (o : ShV) : Statement (.vmaxShort o) := of_fields rfl (congrArg (Option.map Instr.vmaxShort) (ShV.of_raw 0x0B o))
theorem vadds (o : ShS) : Statement (.vadds o) := of_fields rfl (congrArg (Option.map Instr.vadds) (ShS.of_raw 0x0C o))
theorem vmuls (o : ShS) : Statement (.vmuls o) := of_fields rfl (congrArg (Option.map Instr.vmuls) (ShS.of_raw 0x0D o))
theorem faddShort (o : ShV) : Statement (.faddShort o) := of_fields rfl (congrArg (Option.map Instr.faddShort) (ShV.of_raw 0x0E o))
theorem fsubShort (o : ShV) : Statement (.fsubShort o) := of_fields rfl (congrArg (Option.map Instr.fsubShort) (ShV.of_raw 0x0F o))
theorem fmulShort (o : ShV) : Statement (.fmulShort o) := of_fields rfl (congrArg (Option.map Instr.fmulShort) (ShV.of_raw 0x10 o))
theorem fadds (o : ShS) : Statement (.fadds o) := of_fields rfl (congrArg (Option.map Instr.fadds) (ShS.of_raw 0x11 o))
theorem fmuls (o : ShS) : Statement (.fmuls o) := of_fields rfl (congrArg (Option.map Instr.fmuls) (ShS.of_raw 0x12 o))
theorem fminShort (o : ShV) : Statement (.fminShort o) := of_fields rfl (congrArg (Option.map Instr.fminShort) (ShV.of_raw 0x13 o))
theorem fmaxShort (o : ShV) : Statement (.fmaxShort o) := of_fields rfl (congrArg (Option.map Instr.fmaxShort) (ShV.of_raw 0x14 o))
theorem ffmaShort (o : ShV) : Statement (.ffmaShort o) := of_fields rfl (congrArg (Option.map Instr.ffmaShort) (ShV.of_raw 0x15 o))
theorem ldsShort (o : ShI) : Statement (.ldsShort o) := of_fields rfl (congrArg (Option.map Instr.ldsShort) (ShI.of_raw 0x16 o))
theorem stsShort (o : ShI) : Statement (.stsShort o) := of_fields rfl (congrArg (Option.map Instr.stsShort) (ShI.of_raw 0x17 o))
theorem vmovsShort (o : ShMovS) : Statement (.vmovsShort o) := of_fields rfl (congrArg (Option.map Instr.vmovsShort) (ShMovS.of_raw 0x18 o))
theorem smovShort (o : ShU) : Statement (.smovShort o) := of_fields rfl (congrArg (Option.map Instr.smovShort) (ShU.of_raw 0x00 0 o))
theorem saddShort (o : ShU) : Statement (.saddShort o) := of_fields rfl (congrArg (Option.map Instr.saddShort) (ShU.of_raw 0x00 1 o))
theorem ssubShort (o : ShU) : Statement (.ssubShort o) := of_fields rfl (congrArg (Option.map Instr.ssubShort) (ShU.of_raw 0x00 2 o))
theorem smulShort (o : ShU) : Statement (.smulShort o) := of_fields rfl (congrArg (Option.map Instr.smulShort) (ShU.of_raw 0x00 3 o))
theorem sandShort (o : ShU) : Statement (.sandShort o) := of_fields rfl (congrArg (Option.map Instr.sandShort) (ShU.of_raw 0x00 4 o))
theorem sorShort (o : ShU) : Statement (.sorShort o) := of_fields rfl (congrArg (Option.map Instr.sorShort) (ShU.of_raw 0x00 5 o))
theorem sxorShort (o : ShU) : Statement (.sxorShort o) := of_fields rfl (congrArg (Option.map Instr.sxorShort) (ShU.of_raw 0x00 6 o))
theorem sshlShort (o : ShU) : Statement (.sshlShort o) := of_fields rfl (congrArg (Option.map Instr.sshlShort) (ShU.of_raw 0x00 7 o))
theorem sshrShort (o : ShU) : Statement (.sshrShort o) := of_fields rfl (congrArg (Option.map Instr.sshrShort) (ShU.of_raw 0x00 8 o))
theorem ssraShort (o : ShU) : Statement (.ssraShort o) := of_fields rfl (congrArg (Option.map Instr.ssraShort) (ShU.of_raw 0x00 9 o))
theorem sminShort (o : ShU) : Statement (.sminShort o) := of_fields rfl (congrArg (Option.map Instr.sminShort) (ShU.of_raw 0x00 10 o))
theorem smaxShort (o : ShU) : Statement (.smaxShort o) := of_fields rfl (congrArg (Option.map Instr.smaxShort) (ShU.of_raw 0x00 11 o))
theorem sminn (o : ShU) : Statement (.sminn o) := of_fields rfl (congrArg (Option.map Instr.sminn) (ShU.of_raw 0x00 12 o))
theorem smaxn (o : ShU) : Statement (.smaxn o) := of_fields rfl (congrArg (Option.map Instr.smaxn) (ShU.of_raw 0x00 13 o))
theorem scmpShort (o : ShCmp) : Statement (.scmpShort o) := of_fields rfl (congrArg (Option.map Instr.scmpShort) (ShCmp.of_raw 0x01 o))
theorem brs (o : ShBr) : Statement (.brs o) := of_fields rfl (congrArg (Option.map Instr.brs) (ShBr.of_raw 0x02 o))
theorem msave (o : ShReg) : Statement (.msave o) := of_fields rfl (congrArg (Option.map Instr.msave) (ShReg.of_raw 0x03 0 o))
theorem mload (o : ShReg) : Statement (.mload o) := of_fields rfl (congrArg (Option.map Instr.mload) (ShReg.of_raw 0x03 1 o))
theorem mand (o : ShReg) : Statement (.mand o) := of_fields rfl (congrArg (Option.map Instr.mand) (ShReg.of_raw 0x03 2 o))
theorem mandn (o : ShReg) : Statement (.mandn o) := of_fields rfl (congrArg (Option.map Instr.mandn) (ShReg.of_raw 0x03 3 o))
theorem mor (o : ShReg) : Statement (.mor o) := of_fields rfl (congrArg (Option.map Instr.mor) (ShReg.of_raw 0x03 4 o))
theorem mxor (o : ShReg) : Statement (.mxor o) := of_fields rfl (congrArg (Option.map Instr.mxor) (ShReg.of_raw 0x03 5 o))
theorem waitcntShort (o : ShCount) : Statement (.waitcntShort o) := of_fields rfl (congrArg (Option.map Instr.waitcntShort) (ShCount.of_raw 0x04 0 o))
theorem bwaitShort (o : ShReg) : Statement (.bwaitShort o) := of_fields rfl (congrArg (Option.map Instr.bwaitShort) (ShReg.of_raw 0x04 1 o))
theorem bcloseShort (o : ShReg) : Statement (.bcloseShort o) := of_fields rfl (congrArg (Option.map Instr.bcloseShort) (ShReg.of_raw 0x04 2 o))
theorem mwaitShort (o : ShCount) : Statement (.mwaitShort o) := of_fields rfl (congrArg (Option.map Instr.mwaitShort) (ShCount.of_raw 0x04 3 o))
theorem nop : Statement .nop := of_fields rfl rfl
theorem vadd (o : LaneBin) : Statement (.vadd o) := of_fields rfl (congrArg (Option.map Instr.vadd) (LaneBin.of_raw 0x000 o))
theorem vsub (o : LaneBin) : Statement (.vsub o) := of_fields rfl (congrArg (Option.map Instr.vsub) (LaneBin.of_raw 0x001 o))
theorem vmul (o : LaneBin) : Statement (.vmul o) := of_fields rfl (congrArg (Option.map Instr.vmul) (LaneBin.of_raw 0x002 o))
theorem vmulh (o : LaneBin) : Statement (.vmulh o) := of_fields rfl (congrArg (Option.map Instr.vmulh) (LaneBin.of_raw 0x003 o))
theorem vmad (o : LaneTri) : Statement (.vmad o) := of_fields rfl (congrArg (Option.map Instr.vmad) (LaneTri.of_raw 0x004 o))
theorem vand (o : LaneBin) : Statement (.vand o) := of_fields rfl (congrArg (Option.map Instr.vand) (LaneBin.of_raw 0x005 o))
theorem vor (o : LaneBin) : Statement (.vor o) := of_fields rfl (congrArg (Option.map Instr.vor) (LaneBin.of_raw 0x006 o))
theorem vxor (o : LaneBin) : Statement (.vxor o) := of_fields rfl (congrArg (Option.map Instr.vxor) (LaneBin.of_raw 0x007 o))
theorem vnot (o : LaneUn) : Statement (.vnot o) := of_fields rfl (congrArg (Option.map Instr.vnot) (LaneUn.of_raw 0x008 o))
theorem vshl (o : LaneShift) : Statement (.vshl o) := of_fields rfl (congrArg (Option.map Instr.vshl) (LaneShift.of_raw 0x009 o))
theorem vshr (o : LaneShift) : Statement (.vshr o) := of_fields rfl (congrArg (Option.map Instr.vshr) (LaneShift.of_raw 0x00A o))
theorem vsra (o : LaneShift) : Statement (.vsra o) := of_fields rfl (congrArg (Option.map Instr.vsra) (LaneShift.of_raw 0x00B o))
theorem vrot (o : LaneShift) : Statement (.vrot o) := of_fields rfl (congrArg (Option.map Instr.vrot) (LaneShift.of_raw 0x00C o))
theorem vmin (o : LaneBin) : Statement (.vmin o) := of_fields rfl (congrArg (Option.map Instr.vmin) (LaneBin.of_raw 0x00D o))
theorem vmax (o : LaneBin) : Statement (.vmax o) := of_fields rfl (congrArg (Option.map Instr.vmax) (LaneBin.of_raw 0x00E o))
theorem vabs (o : LaneUn) : Statement (.vabs o) := of_fields rfl (congrArg (Option.map Instr.vabs) (LaneUn.of_raw 0x00F o))
theorem vneg (o : LaneUn) : Statement (.vneg o) := of_fields rfl (congrArg (Option.map Instr.vneg) (LaneUn.of_raw 0x010 o))
theorem vclz (o : LaneUn) : Statement (.vclz o) := of_fields rfl (congrArg (Option.map Instr.vclz) (LaneUn.of_raw 0x011 o))
theorem vpopc (o : LaneUn) : Statement (.vpopc o) := of_fields rfl (congrArg (Option.map Instr.vpopc) (LaneUn.of_raw 0x012 o))
theorem vbrev (o : LaneUn) : Statement (.vbrev o) := of_fields rfl (congrArg (Option.map Instr.vbrev) (LaneUn.of_raw 0x013 o))
theorem vbfx (o : LaneBin) : Statement (.vbfx o) := of_fields rfl (congrArg (Option.map Instr.vbfx) (LaneBin.of_raw 0x014 o))
theorem vbfi (o : LaneBin) : Statement (.vbfi o) := of_fields rfl (congrArg (Option.map Instr.vbfi) (LaneBin.of_raw 0x015 o))
theorem vsel (o : LaneTri) : Statement (.vsel o) := of_fields rfl (congrArg (Option.map Instr.vsel) (LaneTri.of_raw 0x016 o))
theorem vcmp (o : LaneCmp) : Statement (.vcmp o) := of_fields rfl (congrArg (Option.map Instr.vcmp) (LaneCmp.of_raw 0x017 o))
theorem vcmpv (o : LaneCmpV) : Statement (.vcmpv o) := of_fields rfl (congrArg (Option.map Instr.vcmpv) (LaneCmpV.of_raw 0x018 o))
theorem vmov (o : LaneMov) : Statement (.vmov o) := of_fields rfl (congrArg (Option.map Instr.vmov) (LaneMov.of_raw 0x019 o))
theorem vmovs (o : LaneMovS) : Statement (.vmovs o) := of_fields rfl (congrArg (Option.map Instr.vmovs) (LaneMovS.of_raw 0x01A o))
theorem vidx (o : LaneIdx) : Statement (.vidx o) := of_fields rfl (congrArg (Option.map Instr.vidx) (LaneIdx.of_raw 0x01B o))
theorem vpack (o : LanePack) : Statement (.vpack o) := of_fields rfl (congrArg (Option.map Instr.vpack) (LanePack.of_raw 0x01C o))
theorem vunpk (o : LaneUnX) : Statement (.vunpk o) := of_fields rfl (congrArg (Option.map Instr.vunpk) (LaneUnX.of_raw 0x01D o))
theorem fadd (o : LaneBin) : Statement (.fadd o) := of_fields rfl (congrArg (Option.map Instr.fadd) (LaneBin.of_raw 0x040 o))
theorem fsub (o : LaneBin) : Statement (.fsub o) := of_fields rfl (congrArg (Option.map Instr.fsub) (LaneBin.of_raw 0x041 o))
theorem fmul (o : LaneBin) : Statement (.fmul o) := of_fields rfl (congrArg (Option.map Instr.fmul) (LaneBin.of_raw 0x042 o))
theorem ffma (o : LaneTriX) : Statement (.ffma o) := of_fields rfl (congrArg (Option.map Instr.ffma) (LaneTriX.of_raw 0x043 o))
theorem fmin (o : LaneBin) : Statement (.fmin o) := of_fields rfl (congrArg (Option.map Instr.fmin) (LaneBin.of_raw 0x044 o))
theorem fmax (o : LaneBin) : Statement (.fmax o) := of_fields rfl (congrArg (Option.map Instr.fmax) (LaneBin.of_raw 0x045 o))
theorem fabs (o : LaneUn) : Statement (.fabs o) := of_fields rfl (congrArg (Option.map Instr.fabs) (LaneUn.of_raw 0x046 o))
theorem fneg (o : LaneUn) : Statement (.fneg o) := of_fields rfl (congrArg (Option.map Instr.fneg) (LaneUn.of_raw 0x047 o))
theorem fcmp (o : LaneFCmp) : Statement (.fcmp o) := of_fields rfl (congrArg (Option.map Instr.fcmp) (LaneFCmp.of_raw 0x048 o))
theorem fcmpv (o : LaneFCmpV) : Statement (.fcmpv o) := of_fields rfl (congrArg (Option.map Instr.fcmpv) (LaneFCmpV.of_raw 0x049 o))
theorem fclass (o : LaneUn) : Statement (.fclass o) := of_fields rfl (congrArg (Option.map Instr.fclass) (LaneUn.of_raw 0x04A o))
theorem fscale (o : LaneBin) : Statement (.fscale o) := of_fields rfl (congrArg (Option.map Instr.fscale) (LaneBin.of_raw 0x04B o))
theorem frnd (o : LaneUnX) : Statement (.frnd o) := of_fields rfl (congrArg (Option.map Instr.frnd) (LaneUnX.of_raw 0x04C o))
theorem fcvt (o : LaneCvt) : Statement (.fcvt o) := of_fields rfl (congrArg (Option.map Instr.fcvt) (LaneCvt.of_raw 0x04D o))
theorem icvt (o : LaneCvt) : Statement (.icvt o) := of_fields rfl (congrArg (Option.map Instr.icvt) (LaneCvt.of_raw 0x04E o))
theorem ftoi (o : LaneCvt) : Statement (.ftoi o) := of_fields rfl (congrArg (Option.map Instr.ftoi) (LaneCvt.of_raw 0x04F o))
theorem fdot (o : LaneTriX) : Statement (.fdot o) := of_fields rfl (congrArg (Option.map Instr.fdot) (LaneTriX.of_raw 0x050 o))
theorem frcp (o : LaneUn) : Statement (.frcp o) := of_fields rfl (congrArg (Option.map Instr.frcp) (LaneUn.of_raw 0x080 o))
theorem frsq (o : LaneUn) : Statement (.frsq o) := of_fields rfl (congrArg (Option.map Instr.frsq) (LaneUn.of_raw 0x081 o))
theorem fexp2 (o : LaneUn) : Statement (.fexp2 o) := of_fields rfl (congrArg (Option.map Instr.fexp2) (LaneUn.of_raw 0x082 o))
theorem flog2 (o : LaneUn) : Statement (.flog2 o) := of_fields rfl (congrArg (Option.map Instr.flog2) (LaneUn.of_raw 0x083 o))
theorem fsin (o : LaneUn) : Statement (.fsin o) := of_fields rfl (congrArg (Option.map Instr.fsin) (LaneUn.of_raw 0x084 o))
theorem fcos (o : LaneUn) : Statement (.fcos o) := of_fields rfl (congrArg (Option.map Instr.fcos) (LaneUn.of_raw 0x085 o))
theorem ftanh (o : LaneUn) : Statement (.ftanh o) := of_fields rfl (congrArg (Option.map Instr.ftanh) (LaneUn.of_raw 0x086 o))
theorem vshf (o : LaneBin) : Statement (.vshf o) := of_fields rfl (congrArg (Option.map Instr.vshf) (LaneBin.of_raw 0x0A0 o))
theorem vshfi (o : ShufImm) : Statement (.vshfi o) := of_fields rfl (congrArg (Option.map Instr.vshfi) (ShufImm.of_raw 0x0A1 o))
theorem qswp (o : QuadSwap) : Statement (.qswp o) := of_fields rfl (congrArg (Option.map Instr.qswp) (QuadSwap.of_raw 0x0A2 o))
theorem qbc (o : QuadBc) : Statement (.qbc o) := of_fields rfl (congrArg (Option.map Instr.qbc) (QuadBc.of_raw 0x0A3 o))
theorem vbal (o : Ballot) : Statement (.vbal o) := of_fields rfl (congrArg (Option.map Instr.vbal) (Ballot.of_raw 0x0A4 o))
theorem vvote (o : Vote) : Statement (.vvote o) := of_fields rfl (congrArg (Option.map Instr.vvote) (Vote.of_raw 0x0A5 o))
theorem vred (o : Reduce) : Statement (.vred o) := of_fields rfl (congrArg (Option.map Instr.vred) (Reduce.of_raw 0x0A6 o))
theorem vscan (o : Scan) : Statement (.vscan o) := of_fields rfl (congrArg (Option.map Instr.vscan) (Scan.of_raw 0x0A7 o))
theorem vconf (o : LaneMono) : Statement (.vconf o) := of_fields rfl (congrArg (Option.map Instr.vconf) (LaneMono.of_raw 0x0A8 o))
theorem visect (o : Isect) : Statement (.visect o) := of_fields rfl (congrArg (Option.map Instr.visect) (Isect.of_raw 0x0A9 o))
theorem vtopk (o : LaneUn) : Statement (.vtopk o) := of_fields rfl (congrArg (Option.map Instr.vtopk) (LaneUn.of_raw 0x0AA o))
theorem vmrank (o : Rank) : Statement (.vmrank o) := of_fields rfl (congrArg (Option.map Instr.vmrank) (Rank.of_raw 0x0AB o))
theorem ld (o : MemAcc) : Statement (.ld o) := of_fields rfl (congrArg (Option.map Instr.ld) (MemAcc.of_raw 0x0E0 o))
theorem st (o : MemAcc) : Statement (.st o) := of_fields rfl (congrArg (Option.map Instr.st) (MemAcc.of_raw 0x0E1 o))
theorem lds (o : ScrAcc) : Statement (.lds o) := of_fields rfl (congrArg (Option.map Instr.lds) (ScrAcc.of_raw 0x0E2 o))
theorem sts (o : ScrAcc) : Statement (.sts o) := of_fields rfl (congrArg (Option.map Instr.sts) (ScrAcc.of_raw 0x0E3 o))
theorem ldc (o : ScrAcc) : Statement (.ldc o) := of_fields rfl (congrArg (Option.map Instr.ldc) (ScrAcc.of_raw 0x0E4 o))
theorem stc (o : ScrAcc) : Statement (.stc o) := of_fields rfl (congrArg (Option.map Instr.stc) (ScrAcc.of_raw 0x0E5 o))
theorem atom (o : LaneAtom) : Statement (.atom o) := of_fields rfl (congrArg (Option.map Instr.atom) (LaneAtom.of_raw 0x0E6 o))
theorem atoms (o : ScrAtom) : Statement (.atoms o) := of_fields rfl (congrArg (Option.map Instr.atoms) (ScrAtom.of_raw 0x0E7 o))
theorem atomc (o : WinAtom) : Statement (.atomc o) := of_fields rfl (congrArg (Option.map Instr.atomc) (WinAtom.of_raw 0x0E8 o))
theorem ldf (o : FaultLd) : Statement (.ldf o) := of_fields rfl (congrArg (Option.map Instr.ldf) (FaultLd.of_raw 0x0E9 o))
theorem radd (o : Remote) : Statement (.radd o) := of_fields rfl (congrArg (Option.map Instr.radd) (Remote.of_raw 0x120 o))
theorem rmin (o : Remote) : Statement (.rmin o) := of_fields rfl (congrArg (Option.map Instr.rmin) (Remote.of_raw 0x121 o))
theorem rmax (o : Remote) : Statement (.rmax o) := of_fields rfl (congrArg (Option.map Instr.rmax) (Remote.of_raw 0x122 o))
theorem ror (o : Remote) : Statement (.ror o) := of_fields rfl (congrArg (Option.map Instr.ror) (Remote.of_raw 0x123 o))
theorem rwo (o : Remote) : Statement (.rwo o) := of_fields rfl (congrArg (Option.map Instr.rwo) (Remote.of_raw 0x124 o))
theorem rarr (o : RemArr) : Statement (.rarr o) := of_fields rfl (congrArg (Option.map Instr.rarr) (RemArr.of_raw 0x125 o))
theorem rget (o : RemGet) : Statement (.rget o) := of_fields rfl (congrArg (Option.map Instr.rget) (RemGet.of_raw 0x126 o))
theorem cradd (o : Remote) : Statement (.cradd o) := of_fields rfl (congrArg (Option.map Instr.cradd) (Remote.of_raw 0x127 o))
theorem crrd (o : CrRead) : Statement (.crrd o) := of_fields rfl (congrArg (Option.map Instr.crrd) (CrRead.of_raw 0x128 o))
theorem mma (o : Mma) : Statement (.mma o) := of_fields rfl (congrArg (Option.map Instr.mma) (Mma.of_raw 0x140 o))
theorem oadd (o : Oadd) : Statement (.oadd o) := of_fields rfl (congrArg (Option.map Instr.oadd) (Oadd.of_raw 0x141 o))
theorem mld (o : TileMem) : Statement (.mld o) := of_fields rfl (congrArg (Option.map Instr.mld) (TileMem.of_raw 0x142 o))
theorem mst (o : TileMem) : Statement (.mst o) := of_fields rfl (congrArg (Option.map Instr.mst) (TileMem.of_raw 0x143 o))
theorem mzero (o : TileOne) : Statement (.mzero o) := of_fields rfl (congrArg (Option.map Instr.mzero) (TileOne.of_raw 0x144 o))
theorem hpack (o : Hpack) : Statement (.hpack o) := of_fields rfl (congrArg (Option.map Instr.hpack) (Hpack.of_raw 0x145 o))
theorem msts (o : TileSts) : Statement (.msts o) := of_fields rfl (congrArg (Option.map Instr.msts) (TileSts.of_raw 0x146 o))
theorem plsetv (o : PlSetV) : Statement (.plsetv o) := of_fields rfl (congrArg (Option.map Instr.plsetv) (PlSetV.of_raw 0x160 o))
theorem plget (o : PlGet) : Statement (.plget o) := of_fields rfl (congrArg (Option.map Instr.plget) (PlGet.of_raw 0x161 o))
theorem sadd (o : UniBin) : Statement (.sadd o) := of_fields rfl (congrArg (Option.map Instr.sadd) (UniBin.of_raw 0x000 o))
theorem ssub (o : UniBin) : Statement (.ssub o) := of_fields rfl (congrArg (Option.map Instr.ssub) (UniBin.of_raw 0x001 o))
theorem smul (o : UniBin) : Statement (.smul o) := of_fields rfl (congrArg (Option.map Instr.smul) (UniBin.of_raw 0x002 o))
theorem smulh (o : UniBin) : Statement (.smulh o) := of_fields rfl (congrArg (Option.map Instr.smulh) (UniBin.of_raw 0x003 o))
theorem sdiv (o : UniBin) : Statement (.sdiv o) := of_fields rfl (congrArg (Option.map Instr.sdiv) (UniBin.of_raw 0x004 o))
theorem srem (o : UniBin) : Statement (.srem o) := of_fields rfl (congrArg (Option.map Instr.srem) (UniBin.of_raw 0x005 o))
theorem sand (o : UniBin) : Statement (.sand o) := of_fields rfl (congrArg (Option.map Instr.sand) (UniBin.of_raw 0x006 o))
theorem sor (o : UniBin) : Statement (.sor o) := of_fields rfl (congrArg (Option.map Instr.sor) (UniBin.of_raw 0x007 o))
theorem sxor (o : UniBin) : Statement (.sxor o) := of_fields rfl (congrArg (Option.map Instr.sxor) (UniBin.of_raw 0x008 o))
theorem snot (o : UniUn) : Statement (.snot o) := of_fields rfl (congrArg (Option.map Instr.snot) (UniUn.of_raw 0x009 o))
theorem sshl (o : UniBin) : Statement (.sshl o) := of_fields rfl (congrArg (Option.map Instr.sshl) (UniBin.of_raw 0x00A o))
theorem sshr (o : UniBin) : Statement (.sshr o) := of_fields rfl (congrArg (Option.map Instr.sshr) (UniBin.of_raw 0x00B o))
theorem ssra (o : UniBin) : Statement (.ssra o) := of_fields rfl (congrArg (Option.map Instr.ssra) (UniBin.of_raw 0x00C o))
theorem smin (o : UniBin) : Statement (.smin o) := of_fields rfl (congrArg (Option.map Instr.smin) (UniBin.of_raw 0x00D o))
theorem smax (o : UniBin) : Statement (.smax o) := of_fields rfl (congrArg (Option.map Instr.smax) (UniBin.of_raw 0x00E o))
theorem sclz (o : UniUn) : Statement (.sclz o) := of_fields rfl (congrArg (Option.map Instr.sclz) (UniUn.of_raw 0x00F o))
theorem sctz (o : UniUn) : Statement (.sctz o) := of_fields rfl (congrArg (Option.map Instr.sctz) (UniUn.of_raw 0x010 o))
theorem spopc (o : UniUn) : Statement (.spopc o) := of_fields rfl (congrArg (Option.map Instr.spopc) (UniUn.of_raw 0x011 o))
theorem sbfx (o : UniTri) : Statement (.sbfx o) := of_fields rfl (congrArg (Option.map Instr.sbfx) (UniTri.of_raw 0x012 o))
theorem sbfi (o : UniTri) : Statement (.sbfi o) := of_fields rfl (congrArg (Option.map Instr.sbfi) (UniTri.of_raw 0x013 o))
theorem ssel (o : UniBin) : Statement (.ssel o) := of_fields rfl (congrArg (Option.map Instr.ssel) (UniBin.of_raw 0x014 o))
theorem scmp (o : UniCmp) : Statement (.scmp o) := of_fields rfl (congrArg (Option.map Instr.scmp) (UniCmp.of_raw 0x015 o))
theorem smov (o : UniMov) : Statement (.smov o) := of_fields rfl (congrArg (Option.map Instr.smov) (UniMov.of_raw 0x016 o))
theorem smovi (o : UniMovI) : Statement (.smovi o) := of_fields rfl (congrArg (Option.map Instr.smovi) (UniMovI.of_raw 0x017 o))
theorem sinsi (o : UniIns) : Statement (.sinsi o) := of_fields rfl (congrArg (Option.map Instr.sinsi) (UniIns.of_raw 0x018 o))
theorem sld (o : UniMem) : Statement (.sld o) := of_fields rfl (congrArg (Option.map Instr.sld) (UniMem.of_raw 0x019 o))
theorem sst (o : UniMem) : Statement (.sst o) := of_fields rfl (congrArg (Option.map Instr.sst) (UniMem.of_raw 0x01A o))
theorem satom (o : UniAtom) : Statement (.satom o) := of_fields rfl (congrArg (Option.map Instr.satom) (UniAtom.of_raw 0x01B o))
theorem br (o : Branch) : Statement (.br o) := of_fields rfl (congrArg (Option.map Instr.br) (Branch.of_raw 0x040 o))
theorem brd (o : BranchDiv) : Statement (.brd o) := of_fields rfl (congrArg (Option.map Instr.brd) (BranchDiv.of_raw 0x041 o))
theorem jmp (o : JumpAbs) : Statement (.jmp o) := of_fields rfl (congrArg (Option.map Instr.jmp) (JumpAbs.of_raw 0x042 o))
theorem jmpr (o : OneU) : Statement (.jmpr o) := of_fields rfl (congrArg (Option.map Instr.jmpr) (OneU.of_raw 0x043 o))
theorem call (o : CallRel) : Statement (.call o) := of_fields rfl (congrArg (Option.map Instr.call) (CallRel.of_raw 0x044 o))
theorem callr (o : TwoU) : Statement (.callr o) := of_fields rfl (congrArg (Option.map Instr.callr) (TwoU.of_raw 0x045 o))
theorem ret (o : OneU) : Statement (.ret o) := of_fields rfl (congrArg (Option.map Instr.ret) (OneU.of_raw 0x046 o))
theorem loop (o : LoopOp) : Statement (.loop o) := of_fields rfl (congrArg (Option.map Instr.loop) (LoopOp.of_raw 0x047 o))
theorem lbreak (o : CondOnly) : Statement (.lbreak o) := of_fields rfl (congrArg (Option.map Instr.lbreak) (CondOnly.of_raw 0x048 o))
theorem rcv (o : Rcv) : Statement (.rcv o) := of_fields rfl (congrArg (Option.map Instr.rcv) (Rcv.of_raw 0x049 o))
theorem rcvw (o : Rcvw) : Statement (.rcvw o) := of_fields rfl (congrArg (Option.map Instr.rcvw) (Rcvw.of_raw 0x04A o))
theorem exit : Statement .exit := of_fields rfl rfl
theorem trap (o : Imm8) : Statement (.trap o) := of_fields rfl (congrArg (Option.map Instr.trap) (Imm8.of_raw 0x04C o))
theorem tret : Statement .tret := of_fields rfl rfl
theorem plset (o : PlaneImm) : Statement (.plset o) := of_fields rfl (congrArg (Option.map Instr.plset) (PlaneImm.of_raw 0x04E o))
theorem plmask (o : PlaneMask) : Statement (.plmask o) := of_fields rfl (congrArg (Option.map Instr.plmask) (PlaneMask.of_raw 0x04F o))
theorem mskop (o : ThreeU) : Statement (.mskop o) := of_fields rfl (congrArg (Option.map Instr.mskop) (ThreeU.of_raw 0x050 o))
theorem qhlp : Statement .qhlp := of_fields rfl rfl
theorem waitcnt (o : Count) : Statement (.waitcnt o) := of_fields rfl (congrArg (Option.map Instr.waitcnt) (Count.of_raw 0x080 o))
theorem bclose (o : DestU) : Statement (.bclose o) := of_fields rfl (congrArg (Option.map Instr.bclose) (DestU.of_raw 0x081 o))
theorem bwait (o : OneU) : Statement (.bwait o) := of_fields rfl (congrArg (Option.map Instr.bwait) (OneU.of_raw 0x082 o))
theorem mwait (o : Count) : Statement (.mwait o) := of_fields rfl (congrArg (Option.map Instr.mwait) (Count.of_raw 0x083 o))
theorem bar (o : BarNo) : Statement (.bar o) := of_fields rfl (congrArg (Option.map Instr.bar) (BarNo.of_raw 0x084 o))
theorem cbar (o : BarNo) : Statement (.cbar o) := of_fields rfl (congrArg (Option.map Instr.cbar) (BarNo.of_raw 0x085 o))
theorem barv (o : PhaseArr) : Statement (.barv o) := of_fields rfl (congrArg (Option.map Instr.barv) (PhaseArr.of_raw 0x086 o))
theorem bwaitp (o : PhaseWait) : Statement (.bwaitp o) := of_fields rfl (congrArg (Option.map Instr.bwaitp) (PhaseWait.of_raw 0x087 o))
theorem fence (o : ScopeOnly) : Statement (.fence o) := of_fields rfl (congrArg (Option.map Instr.fence) (ScopeOnly.of_raw 0x088 o))
theorem fencee : Statement .fencee := of_fields rfl rfl
theorem waita (o : WaitLine) : Statement (.waita o) := of_fields rfl (congrArg (Option.map Instr.waita) (WaitLine.of_raw 0x08A o))
theorem arrst (o : TwoU) : Statement (.arrst o) := of_fields rfl (congrArg (Option.map Instr.arrst) (TwoU.of_raw 0x08B o))
theorem rflush : Statement .rflush := of_fields rfl rfl
theorem mbsend (o : MbSend) : Statement (.mbsend o) := of_fields rfl (congrArg (Option.map Instr.mbsend) (MbSend.of_raw 0x08D o))
theorem mbrecv (o : MbTake) : Statement (.mbrecv o) := of_fields rfl (congrArg (Option.map Instr.mbrecv) (MbTake.of_raw 0x08E o))
theorem mbpush (o : MbPush) : Statement (.mbpush o) := of_fields rfl (congrArg (Option.map Instr.mbpush) (MbPush.of_raw 0x08F o))
theorem mbpop (o : MbTake) : Statement (.mbpop o) := of_fields rfl (congrArg (Option.map Instr.mbpop) (MbTake.of_raw 0x090 o))
theorem mbsteal (o : MbSteal) : Statement (.mbsteal o) := of_fields rfl (congrArg (Option.map Instr.mbsteal) (MbSteal.of_raw 0x091 o))
theorem sleep (o : Sleep) : Statement (.sleep o) := of_fields rfl (congrArg (Option.map Instr.sleep) (Sleep.of_raw 0x092 o))
theorem ltile (o : Ladle) : Statement (.ltile o) := of_fields rfl (congrArg (Option.map Instr.ltile) (Ladle.of_raw 0x0C0 o))
theorem lgath (o : LadleZ) : Statement (.lgath o) := of_fields rfl (congrArg (Option.map Instr.lgath) (LadleZ.of_raw 0x0C1 o))
theorem lscat (o : LadleZ) : Statement (.lscat o) := of_fields rfl (congrArg (Option.map Instr.lscat) (LadleZ.of_raw 0x0C2 o))
theorem lcbld (o : LcBld) : Statement (.lcbld o) := of_fields rfl (congrArg (Option.map Instr.lcbld) (LcBld.of_raw 0x0C3 o))
theorem tsend (o : OneU) : Statement (.tsend o) := of_fields rfl (congrArg (Option.map Instr.tsend) (OneU.of_raw 0x0C4 o))
theorem sload (o : Storage) : Statement (.sload o) := of_fields rfl (congrArg (Option.map Instr.sload) (Storage.of_raw 0x0C5 o))
theorem sstore (o : Storage) : Statement (.sstore o) := of_fields rfl (congrArg (Option.map Instr.sstore) (Storage.of_raw 0x0C6 o))
theorem ckpt (o : Ckpt) : Statement (.ckpt o) := of_fields rfl (congrArg (Option.map Instr.ckpt) (Ckpt.of_raw 0x0C7 o))
theorem spec (o : TwoU) : Statement (.spec o) := of_fields rfl (congrArg (Option.map Instr.spec) (TwoU.of_raw 0x0C8 o))
theorem spcommit (o : OneU) : Statement (.spcommit o) := of_fields rfl (congrArg (Option.map Instr.spcommit) (OneU.of_raw 0x0C9 o))
theorem spdrop (o : OneU) : Statement (.spdrop o) := of_fields rfl (congrArg (Option.map Instr.spdrop) (OneU.of_raw 0x0CA o))
theorem tfset (o : ThreeU) : Statement (.tfset o) := of_fields rfl (congrArg (Option.map Instr.tfset) (ThreeU.of_raw 0x0CB o))
theorem arrinit (o : ArrInit) : Statement (.arrinit o) := of_fields rfl (congrArg (Option.map Instr.arrinit) (ArrInit.of_raw 0x0CC o))
theorem crclr (o : OneU) : Statement (.crclr o) := of_fields rfl (congrArg (Option.map Instr.crclr) (OneU.of_raw 0x0CD o))
theorem mclr (o : MClr) : Statement (.mclr o) := of_fields rfl (congrArg (Option.map Instr.mclr) (MClr.of_raw 0x0CE o))
theorem hprobe (o : Hprobe) : Statement (.hprobe o) := of_fields rfl (congrArg (Option.map Instr.hprobe) (Hprobe.of_raw 0x100 o))
theorem hins (o : Hlist) : Statement (.hins o) := of_fields rfl (congrArg (Option.map Instr.hins) (Hlist.of_raw 0x101 o))
theorem hdel (o : Hlist) : Statement (.hdel o) := of_fields rfl (congrArg (Option.map Instr.hdel) (Hlist.of_raw 0x102 o))
theorem hadv (o : HslotTwo) : Statement (.hadv o) := of_fields rfl (congrArg (Option.map Instr.hadv) (HslotTwo.of_raw 0x103 o))
theorem hswap (o : Hswap) : Statement (.hswap o) := of_fields rfl (congrArg (Option.map Instr.hswap) (Hswap.of_raw 0x104 o))
theorem hfence (o : Hfence) : Statement (.hfence o) := of_fields rfl (congrArg (Option.map Instr.hfence) (Hfence.of_raw 0x105 o))
theorem hstat (o : Hstat) : Statement (.hstat o) := of_fields rfl (congrArg (Option.map Instr.hstat) (Hstat.of_raw 0x106 o))
theorem hbind (o : HslotTwo) : Statement (.hbind o) := of_fields rfl (congrArg (Option.map Instr.hbind) (HslotTwo.of_raw 0x107 o))
theorem getsr (o : GetSr) : Statement (.getsr o) := of_fields rfl (congrArg (Option.map Instr.getsr) (GetSr.of_raw 0x120 o))
theorem setsr (o : SetSr) : Statement (.setsr o) := of_fields rfl (congrArg (Option.map Instr.setsr) (SetSr.of_raw 0x121 o))
theorem pour (o : Pour) : Statement (.pour o) := of_fields rfl (congrArg (Option.map Instr.pour) (Pour.of_raw 0x122 o))
theorem dgon (o : FlagOnly) : Statement (.dgon o) := of_fields rfl (congrArg (Option.map Instr.dgon) (FlagOnly.of_raw 0x123 o))
theorem dgoff : Statement .dgoff := of_fields rfl rfl
theorem dgfold (o : DgFold) : Statement (.dgfold o) := of_fields rfl (congrArg (Option.map Instr.dgfold) (DgFold.of_raw 0x125 o))
theorem dgchk (o : SrcTwo) : Statement (.dgchk o) := of_fields rfl (congrArg (Option.map Instr.dgchk) (SrcTwo.of_raw 0x126 o))
theorem yield : Statement .yield := of_fields rfl rfl
theorem trapEntry (g : Nat) (e : Nat) : Statement (.trapEntry g e) := nofun
theorem splitMerge (g : Nat) (e : Nat) (f : Nat) : Statement (.splitMerge g e f) := nofun
theorem splitPromotion (g : Nat) (e : Nat) : Statement (.splitPromotion g e) := nofun
theorem rcvwTimeout (g : Nat) (e : Nat) : Statement (.rcvwTimeout g e) := nofun
theorem sleepExpiry (g : Nat) (e : Nat) : Statement (.sleepExpiry g e) := nofun
theorem waitaTimeout (g : Nat) (e : Nat) : Statement (.waitaTimeout g e) := nofun
theorem loadCompletion (g : Nat) (k : Nat) : Statement (.loadCompletion g k) := nofun
theorem ladlePiece (core : Nat) (k : Nat) (j : Nat) : Statement (.ladlePiece core k j) := nofun
theorem matrixOpStart (core : Nat) : Statement (.matrixOpStart core) := nofun
theorem matrixOpCompletion (core : Nat) : Statement (.matrixOpCompletion core) := nofun
theorem castWindowMessage (g : Nat) (k : Nat) (j : Nat) : Statement (.castWindowMessage g k j) := nofun
theorem castWindowReply (g : Nat) (k : Nat) (j : Nat) : Statement (.castWindowReply g k j) := nofun
theorem mailboxOperation (core : Nat) (m : Nat) : Statement (.mailboxOperation core m) := nofun
theorem coreClockGate (core : Nat) : Statement (.coreClockGate core) := nofun
theorem coreWake (core : Nat) (why : BitVec 8) : Statement (.coreWake core why) := nofun
theorem groupUnpark (g : Nat) : Statement (.groupUnpark g) := nofun
theorem forcedPark (g : Nat) : Statement (.forcedPark g) := nofun
theorem placementDecision (die : Nat) : Statement (.placementDecision die) := nofun
theorem drainReservation (die : Nat) : Statement (.drainReservation die) := nofun
theorem launchTake (q : Nat) : Statement (.launchTake q) := nofun
theorem launchStart  : Statement (.launchStart ) := nofun
theorem priorityAging (l : Nat) : Statement (.priorityAging l) := nofun
theorem blockPreempt (b : Nat) : Statement (.blockPreempt b) := nofun
theorem dieEndReport (die : Nat) (l : Nat) : Statement (.dieEndReport die l) := nofun
theorem completionArrival (die : Nat) (l : Nat) : Statement (.completionArrival die l) := nofun
theorem pageWalk (core : Nat) (asid : Nat) (va : Nat) : Statement (.pageWalk core asid va) := nofun
theorem staleAccessRetry (core : Nat) (asid : Nat) (va : Nat) : Statement (.staleAccessRetry core asid va) := nofun
theorem faultQueueAppend (die : Nat) (k : Nat) : Statement (.faultQueueAppend die k) := nofun
theorem cacheLineFetch (c : CacheId) (line : Nat) : Statement (.cacheLineFetch c line) := nofun
theorem cacheLineDrop (c : CacheId) (line : Nat) : Statement (.cacheLineDrop c line) := nofun
theorem cacheWriteBack (c : CacheId) (word : Nat) : Statement (.cacheWriteBack c word) := nofun
theorem bucketInsert (die : Nat) (k : Nat) : Statement (.bucketInsert die k) := nofun
theorem bucketDelete (die : Nat) (k : Nat) : Statement (.bucketDelete die k) := nofun
theorem bucketSnapshot (die : Nat) (k : Nat) : Statement (.bucketSnapshot die k) := nofun
theorem riddleCommandCompletion (die : Nat) (k : Nat) : Statement (.riddleCommandCompletion die k) := nofun
theorem raddPacket (p : Nat) : Statement (.raddPacket p) := nofun
theorem rminPacket (p : Nat) : Statement (.rminPacket p) := nofun
theorem rmaxPacket (p : Nat) : Statement (.rmaxPacket p) := nofun
theorem rorPacket (p : Nat) : Statement (.rorPacket p) := nofun
theorem rwoPacket (p : Nat) : Statement (.rwoPacket p) := nofun
theorem rarrPacket (p : Nat) : Statement (.rarrPacket p) := nofun
theorem craddPacket (p : Nat) : Statement (.craddPacket p) := nofun
theorem rgetRequest (p : Nat) : Statement (.rgetRequest p) := nofun
theorem rgetReply (p : Nat) : Statement (.rgetReply p) := nofun
theorem ladlePiecePacket (p : Nat) : Statement (.ladlePiecePacket p) := nofun
theorem tsendSignal (p : Nat) : Statement (.tsendSignal p) := nofun
theorem checkpointFrame (p : Nat) : Statement (.checkpointFrame p) := nofun
theorem checkpointMark (p : Nat) : Statement (.checkpointMark p) := nofun
theorem arrinitPacket (p : Nat) : Statement (.arrinitPacket p) := nofun
theorem crclrPacket (p : Nat) : Statement (.crclrPacket p) := nofun
theorem mclrPacket (p : Nat) : Statement (.mclrPacket p) := nofun
theorem waitaWatch (p : Nat) : Statement (.waitaWatch p) := nofun
theorem arrstRead (p : Nat) : Statement (.arrstRead p) := nofun
theorem responseAcknowledged (p : Nat) : Statement (.responseAcknowledged p) := nofun
theorem responseRetryLater (p : Nat) : Statement (.responseRetryLater p) := nofun
theorem responseStale (p : Nat) : Statement (.responseStale p) := nofun
theorem responseReject (p : Nat) : Statement (.responseReject p) := nofun
theorem responseLineAnswer (p : Nat) : Statement (.responseLineAnswer p) := nofun
theorem retransmitTimeout (p : Nat) : Statement (.retransmitTimeout p) := nofun
theorem frameReceive (port : Nat) (f : Frame) : Statement (.frameReceive port f) := nofun
theorem nvmeCompletion (pair : Nat) (entry : BitVec 128) : Statement (.nvmeCompletion pair entry) := nofun
theorem checkpointCut (die : Nat) : Statement (.checkpointCut die) := nofun
theorem checkpointStream (die : Nat) : Statement (.checkpointStream die) := nofun
theorem dbellWrite (core : Nat) : Statement (.dbellWrite core) := nofun
theorem qdoorWrite (q : Nat) : Statement (.qdoorWrite q) := nofun
theorem mailboxClr (core : Nat) (m : Nat) : Statement (.mailboxClr core m) := nofun
theorem gensetWrite (die : Nat) (v : Word) : Statement (.gensetWrite die v) := nofun
theorem gensetComplete (die : Nat) : Statement (.gensetComplete die) := nofun
theorem fltdoneWrite (die : Nat) (v : Word) : Statement (.fltdoneWrite die v) := nofun
theorem hslotUnbind (die : Nat) (n : Nat) : Statement (.hslotUnbind die n) := nofun
theorem preemptGo (die : Nat) (pour : BitVec 32) : Statement (.preemptGo die pour) := nofun
theorem preemptHold (die : Nat) (pour : BitVec 32) : Statement (.preemptHold die pour) := nofun
theorem preemptRelease (die : Nat) (pour : BitVec 32) : Statement (.preemptRelease die pour) := nofun
theorem hflushWrite (die : Nat) (v : Word) : Statement (.hflushWrite die v) := nofun
theorem hflushComplete (die : Nat) : Statement (.hflushComplete die) := nofun
theorem watchArm (w : Nat) (v : Word) : Statement (.watchArm w v) := nofun
theorem dieDrain (die : Nat) : Statement (.dieDrain die) := nofun
theorem dieUndrain (die : Nat) : Statement (.dieUndrain die) := nofun
theorem firmwareSwitch (die : Nat) : Statement (.firmwareSwitch die) := nofun
theorem linkWithdraw (die : Nat) (links : BitVec 4) : Statement (.linkWithdraw die links) := nofun
theorem splitModeWrite (die : Nat) (v : Word) : Statement (.splitModeWrite die v) := nofun
theorem modeChangeEffect (die : Nat) (n : Nat) : Statement (.modeChangeEffect die n) := nofun
theorem plcoreWrite (die : Nat) (v : Word) : Statement (.plcoreWrite die v) := nofun
theorem errverdWrite (die : Nat) (v : Word) : Statement (.errverdWrite die v) := nofun
theorem registerWrite (die : Nat) (off : Nat) (v : Word) : Statement (.registerWrite die off v) := nofun
theorem hostApertureAccess (endpoint : Nat) (off : Nat) (data : List Byte) : Statement (.hostApertureAccess endpoint off data) := nofun
theorem softError (u : StorageUnit) (fatal : Bool) : Statement (.softError u fatal) := nofun
theorem scrub (addr : Nat) : Statement (.scrub addr) := nofun
theorem selfTest (u : TestUnit) (pass : Bool) : Statement (.selfTest u pass) := nofun
theorem linkStateChange (port : Nat) (up : Bool) : Statement (.linkStateChange port up) := nofun
theorem serviceLevelRise  : Statement (.serviceLevelRise ) := nofun
theorem thermalStep (die : Nat) (up : Bool) : Statement (.thermalStep die up) := nofun
theorem fixedLatencyResult (g : Nat) (k : Nat) : Statement (.fixedLatencyResult g k) := nofun
theorem meshPacketDrop (p : Nat) (resp : Bool) : Statement (.meshPacketDrop p resp) := nofun
theorem dieReset (die : Nat) : Statement (.dieReset die) := nofun
theorem packageReset  : Statement (.packageReset ) := nofun
theorem pcieLinkStateChange (endpoint : Nat) (up : Bool) : Statement (.pcieLinkStateChange endpoint up) := nofun

end Sys2Proof.Laws.ParseBack
end

