-- ==== Sys2Proof/Laws/Traps.lean ====
section
/-! SUPPORT. The entry of a trap: what it leaves when the group may enter its handler at once (R191). -/

namespace Sys2Proof.Machine

/-- Setting the planes of a list of lanes. -/
theorem planes_foldl (l : List Nat) (t : Tab (BitVec 3)) (f : Nat → BitVec 3) (i : Nat) :
    (l.foldl (fun ps k => ps.setD 0 k (f k)) t).getD 0 i = if i ∈ l then f i else t.getD 0 i := by
  induction l generalizing t with
  | nil => simp
  | cons k l ih =>
    rw [List.foldl_cons, ih, Tab.getD_setD]
    by_cases h : i ∈ l
    · simp [h]
    · by_cases hk : i = k
      · subst hk; simp
      · simp [h, hk]

/-- No new planes, no change. -/
theorem applyPlanes_none (s : State) (h : s.cur.newPlanes = []) : s.applyPlanes = s := by
  have h1 : s.modGrp (fun g => s.cur.newPlanes.foldl (fun g p => g.setPlane p.1 p.2) g) = s := by
    rw [h]
    simp only [List.foldl_nil, State.modGrp, State.modGroup]
    have : ∀ t : Tab Group, Tab.modify t s.cur.gid (fun g => g) = t := by
      intro t; induction t with
      | nil => rfl
      | cons p t ih => obtain ⟨k, v⟩ := p; simp [Tab.modify, ih]
    rw [this]
  unfold State.applyPlanes
  rw [h1]
  unfold State.modCur
  rw [← h]


/-- The choice among TRAPPED splits, one split further. -/
def trapPick (best : Option (Nat × Nat × Trap)) (p : Nat × Split) : Option (Nat × Nat × Trap) :=
  match p.2.st with
  | .trapped t a => match best with
    | none => some (a, p.1, t)
    | some b => if a < b.1 then some (a, p.1, t) else best
  | _ => best

/-- The first TRAPPED split is the pick over the split table. -/
theorem firstTrapped_eq (g : Group) : g.firstTrapped = (g.splits.foldl trapPick none).map (·.2) := rfl

/-- A pick once made is never lost. -/
theorem trapPick_some (l : Tab Split) (b : Nat × Nat × Trap) : ∃ c, l.foldl trapPick (some b) = some c := by
  induction l generalizing b with
  | nil => exact ⟨b, rfl⟩
  | cons p l ih =>
    rw [List.foldl_cons]
    have : ∃ c, trapPick (some b) p = some c := by
      unfold trapPick
      split
      · simp only; split <;> exact ⟨_, rfl⟩
      · exact ⟨b, rfl⟩
    obtain ⟨c, hc⟩ := this
    rw [hc]; exact ih c

/-- Where nothing is picked, no split is TRAPPED. -/
theorem trapPick_none (l : Tab Split) (h : l.foldl trapPick none = none) (p : Nat × Split) (hp : p ∈ l) (b : Option (Nat × Nat × Trap)) :
    trapPick b p = b := by
  induction l with
  | nil => cases hp
  | cons q l ih =>
    rw [List.foldl_cons] at h
    have hq : trapPick none q = none := by
      cases hn : trapPick none q with
      | none => rfl
      | some c =>
        rw [hn] at h
        obtain ⟨d, hd⟩ := trapPick_some l c
        rw [hd] at h; cases h
    rw [hq] at h
    rcases List.mem_cons.1 hp with rfl | hp
    · unfold trapPick at hq ⊢
      split
      · next heq => rw [heq] at hq; cases hq
      · rfl
    · exact ih h hp

/-- Splits that are not TRAPPED leave the pick as it is. -/
theorem trapPick_skip (l : Tab Split) (h : ∀ p ∈ l, ∀ b, trapPick b p = b) (b : Option (Nat × Nat × Trap)) : l.foldl trapPick b = b := by
  induction l generalizing b with
  | nil => rfl
  | cons p l ih => rw [List.foldl_cons, h p (List.mem_cons_self ..)]; exact ih (fun q hq => h q (List.mem_cons_of_mem _ hq)) b

/-- A split that becomes TRAPPED while no other is, is the first. -/
theorem firstTrapped_modify (g : Group) (e : Nat) (f : Split → Split) (t : Trap) (a : Nat) (h0 : g.firstTrapped = none)
    (he : (g.splits.find? e).isSome = true) (hf : ∀ p, (f p).st = .trapped t a) : (g.modSplit e f).firstTrapped = some (e, t) := by
  rw [firstTrapped_eq, Option.map_eq_none_iff] at h0
  have hn := trapPick_none _ h0
  rw [firstTrapped_eq]
  have : ∀ l : Tab Split, (∀ p ∈ l, ∀ b, trapPick b p = b) → (Tab.find? l e).isSome = true →
      (Tab.modify l e f).foldl trapPick none = some (a, e, t) := by
    intro l
    induction l with
    | nil => intro _ h; cases h
    | cons p l ih =>
      obtain ⟨k, v⟩ := p
      intro hl h
      simp only [Tab.modify]
      by_cases hk : k = e
      · subst hk
        rw [if_pos rfl, List.foldl_cons]
        have : trapPick none (k, f v) = some (a, k, t) := by unfold trapPick; simp only [hf]
        rw [this]
        exact trapPick_skip l (fun q hq => hl q (List.mem_cons_of_mem _ hq)) _
      · rw [if_neg hk, List.foldl_cons, hl _ (List.mem_cons_self ..)]
        refine ih (fun q hq => hl q (List.mem_cons_of_mem _ hq)) ?_
        simpa [Tab.find?, hk] using h
  show ((Tab.modify g.splits e f).foldl trapPick none).map (·.2) = _
  rw [this g.splits hn he]
  rfl

/-- The state after the entry of a trap (R191). -/
theorem takeTrapAt_entered (s : State) (cause toff : Nat) (taddr : Word) (blame : Mask) (hi : s.Issuing) (hm : s.MayTrap) :
    TrapEntered s (s.takeTrapAt cause toff taddr blame) cause toff taddr blame := by
  obtain ⟨h1, h2, h3, h4, h5, h6⟩ := hm
  obtain ⟨i1, i2⟩ := hi
  have hg : s.group s.cur.gid = s.grp := rfl
  let rpl : BitVec 3 := if s.cur.lower then BitVec.ofNat 3 s.cur.plane else 0
  let t : Trap := ⟨BitVec.ofNat 8 cause, toff, taddr, blame, rpl, .none⟩
  let f : Split → Split := fun p => p.asTrapped t s.clk
  let s1 := s.modGroup s.cur.gid fun g => g.modSplit s.cur.ent f
  have e1 : s1.group s.cur.gid = s.grp.modSplit s.cur.ent f := s.group_modGroup_self _ _ i1
  have e2 : (s.grp.modSplit s.cur.ent f).split s.cur.ent = f s.spl := Group.split_modSplit_self _ _ _ i2
  have i3 : (s1.groups.find? s.cur.gid).isSome = true := by rw [State.find?_modGroup]; simp [i1]
  have key : s.takeTrapAt cause toff taddr blame = (s1.enterTrap s.cur.gid s.cur.ent t).setFlow .trapped := by
    unfold State.takeTrapAt
    have : Trap.lower ⟨BitVec.ofNat 8 cause, toff, taddr, blame, if s.cur.lower then BitVec.ofNat 3 s.cur.plane else 0, .none⟩ s.spl.held = t := by
      rw [h4]; rfl
    simp only [this, applyPlanes_none s h6, h5, ne_eq, not_true_eq_false, if_false]
    unfold State.raiseAt
    rw [hg, h1, if_neg (by simp)]
    congr 1
    show s1.tryTrap s.cur.gid = _
    unfold State.tryTrap
    have e3 : (s1.group s.cur.gid).handler = none := by rw [e1]; exact h1
    have e4 : (s1.group s.cur.gid).firstTrapped = some (s.cur.ent, t) := by
      rw [e1]; exact firstTrapped_modify _ _ _ _ s.clk h2 i2 fun _ => rfl
    simp only [e3, e4]
    rw [if_neg]
    rw [e1, e2]
    simp only [Group.latePending] at h3 ⊢
    simp only [Bool.not_eq_true]
    exact h3
  let F : Group → Group := fun g => g.enterTrap s.cur.ent t s.clk
  have fin : (s.takeTrapAt cause toff taddr blame).grp = F (s.grp.modSplit s.cur.ent f) := by
    rw [key]
    show (s1.modGroup s.cur.gid F).group s.cur.gid = _
    rw [State.group_modGroup_self _ _ _ i3, e1]
  have shape : s.takeTrapAt cause toff taddr blame
      = { s with groups := (s.takeTrapAt cause toff taddr blame).groups, cur := { s.cur with flow := .trapped } } := by rw [key]; rfl
  have hspl : (s.takeTrapAt cause toff taddr blame).spl = (F (s.grp.modSplit s.cur.ent f)).split s.cur.ent := by
    unfold State.spl; rw [fin]; rw [key]; rfl
  have e2' : ((s.grp.modSplit s.cur.ent f).splits.find? s.cur.ent).getD default = f s.spl := e2
  have hspl2 : (s.takeTrapAt cause toff taddr blame).spl = (f s.spl).atHandler s.grp.cx.trapOff s.clk := by
    rw [hspl]
    simp only [F, Group.enterTrap, Group.split, Tab.find?_insert_self, Option.getD_some, e2']
    rfl
  have hcause : t.cause.toNat = cause % 256 := by simp [t]
  have hrpl : t.rpl.toNat = if s.cur.lower then s.cur.plane % 8 else 0 := by
    show (if s.cur.lower = true then BitVec.ofNat 3 s.cur.plane else 0).toNat = _
    split <;> simp
  refine ⟨shape, ?_, ?_, ?_, ?_, ?_, ?_, ?_, ?_, ?_, ?_, ?_, ?_, ?_, ?_, ?_, ?_, ?_, ?_, ?_, ?_, ?_, ?_, ?_, ?_, ?_⟩
  · intro g hne
    rw [key]
    show Tab.find? (Tab.modify (Tab.modify s.groups s.cur.gid _) s.cur.gid F) g = _
    rw [Tab.find?_modify_ne _ _ hne, Tab.find?_modify_ne _ _ hne]
  · rw [shape]; exact ⟨fun _ => rfl, fun c n => by cases c <;> rfl, fun _ _ => rfl⟩
  · rw [fin]; simp only [F, Group.enterTrap, e2, hcause, hrpl]; rfl
  · rw [fin]; rfl
  · rw [fin]; rfl
  · rw [fin]; simp only [F, Group.enterTrap, e2]; rfl
  · rw [fin]; rfl
  · rw [fin]; rfl
  · rw [fin]; rfl
  · rw [fin]; simp only [F, Group.enterTrap, e2]; rfl
  · intro k hk
    rw [fin]
    have : (F (s.grp.modSplit s.cur.ent f)).planes = (lanesOf s.spl.owned).foldl (fun ps i => ps.setD 0 i 0) s.grp.planes := by
      simp only [F, Group.enterTrap, e2]; rfl
    simp only [Group.plane, this, planes_foldl, mem_lanesOf, hk, true_and]
    split <;> rfl
  all_goals first | (rw [hspl2]; rfl) | (rw [hspl2]) | (rw [fin]; rfl)
end Sys2Proof.Machine
end

