-- ==== Sys2Proof/Tests/Slice0.lean ====
section
/-! SUPPORT. Tests: words of the spec's own encodings decode as the spec reads them, each check of well-formedness refuses a term that
breaks it, single steps on small states end as the spec's examples say, and witnesses that the hypotheses of each statement can be met. -/

namespace Sys2Proof.Tests

open Sys2Proof Sys2Proof.Machine

set_option maxRecDepth 20000

/-! ### Decoding: words that the spec writes out -/

/-- R97 example. -/
theorem test_decode_fadd_prefixed : (decodeWords [0x49000000, 0x21001015, 0x60C00003]).toOption = some (⟨some ⟨2, 1, false⟩, 0, .fadd ⟨4, 5, .vec 6, .bf16⟩⟩, 3) := by decide

/-- R97 example. -/
theorem test_decode_fadd_short : (decodeWords [0x03820506]).toOption = some (⟨none, 0, .faddShort ⟨4, 5, 6⟩⟩, 1) := by decide

/-- 03, paired layout example. -/
theorem test_decode_ffma_short : (decodeWords [0x05420507]).toOption = some (⟨none, 0, .ffmaShort ⟨4, 5, 7⟩⟩, 1) := by decide

/-- 03, paired layout example. -/
theorem test_decode_brs : (decodeWords [0x80803F61]).toOption = some (⟨none, 0, .brs ⟨.sc, -3⟩⟩, 1) := by decide

/-- R91. -/
theorem test_decode_nop : (decodeWords [0x8100001F]).toOption = some (⟨none, 0, .nop⟩, 1) := by decide

/-- R97 example. -/
theorem test_decode_sadd_short : (decodeWords [0x8002BF61]).toOption = some (⟨none, 0, .saddShort ⟨10, .imm (-3)⟩⟩, 1) := by decide

/-- R90. -/
theorem test_decode_smov_short_zero : (decodeWords [0x80000000]).toOption = some (⟨none, 0, .smovShort ⟨0, .reg 0⟩⟩, 1) := by decide

/-- 04, SADD example. -/
theorem test_decode_sadd_long : (decodeWords [0xA0002022, 0xE0000208]).toOption = some (⟨none, 0, .sadd ⟨8, 8, .imm 16, .i64⟩⟩, 2) := by decide

/-- 04, VPACK example. -/
theorem test_decode_vpack : (decodeWords [0x20700C07, 0x60400000]).toOption = some (⟨none, 0, .vpack ⟨3, 1, 2, .i8⟩⟩, 2) := by decide

/-- 04, VPACK example. -/
theorem test_decode_vpack_satf : (decodeWords [0x42000000, 0x20700C07, 0x60400000]).toOption = some (⟨some ⟨0, 2, false⟩, 0, .vpack ⟨3, 1, 2, .i8⟩⟩, 3) := by decide

/-- 04, VPACK example. -/
theorem test_decode_vpack_n8 : (decodeWords [0x41000000, 0x20700C07, 0x60400001]).toOption = some (⟨some ⟨0, 1, false⟩, 0, .vpack ⟨3, 1, 2, .n8⟩⟩, 3) := by decide

/-- 04, SMOVI example. -/
theorem test_decode_smovi : (decodeWords [0xA05C1003, 0xE0000001]).toOption = some (⟨none, 0, .smovi ⟨4, 0, false⟩⟩, 2) := by decide

/-- 04, SINSI example. -/
theorem test_decode_sinsi : (decodeWords [0xA0601000, 0xE0001E81]).toOption = some (⟨none, 0, .sinsi ⟨4, 0xF4, 1⟩⟩, 2) := by decide

/-- 04, GETSR example. -/
theorem test_decode_getsr : (decodeWords [0xA480A000, 0xE0000600]).toOption = some (⟨none, 0, .getsr ⟨40, .tcause⟩⟩, 2) := by decide

/-- 04, SETSR example. -/
theorem test_decode_setsr : (decodeWords [0xA48400AC, 0xE0000660]).toOption = some (⟨none, 0, .setsr ⟨.tmask, 43⟩⟩, 2) := by decide

/-- 05, FCVT example. -/
theorem test_decode_fcvt : (decodeWords [0x41000000, 0x21340C13, 0x60A00502]).toOption = some (⟨some ⟨0, 1, false⟩, 0, .fcvt ⟨3, 4, 5, .e4m3, .f32, 1, false⟩⟩, 3) := by decide

/-- 06, BRD example. -/
theorem test_decode_brd : (decodeWords [0xA1040010, 0xE00007C0]).toOption = some (⟨none, 0, .brd ⟨4, false, 62⟩⟩, 2) := by decide

/-- 08. -/
theorem test_decode_ld : (decodeWords [0x23800C08, 0x60008041]).toOption = some (⟨none, 0, .ld ⟨3, 2, 4, 2, .w32, .none, .grp, true⟩⟩, 2) := by decide

/-- 08. -/
theorem test_decode_atoms_chk : (decodeWords [0x239C1404, 0x60C28110]).toOption = some (⟨none, 0, .atoms ⟨5, 1, 6, 20, 0, .fadd, false, .none, true, false⟩⟩, 2) := by decide

/-- 09. -/
theorem test_decode_mma : (decodeWords [0x25000823, 0x61806022]).toOption = some (⟨none, 0, .mma ⟨2, 8, 12, some 3, false, false, false, .e4m3⟩⟩, 2) := by decide

/-- 09, R272 table. -/
theorem test_decode_spec : (decodeWords [0xA320282C, 0xE0000000]).toOption = some (⟨none, 0, .spec ⟨10, 11⟩⟩, 2) := by decide

/-- 09, R272 table. -/
theorem test_decode_spcommit : (decodeWords [0xA3240028, 0xE0000000]).toOption = some (⟨none, 0, .spcommit ⟨10⟩⟩, 2) := by decide

/-- 10 example. -/
theorem test_decode_cbar : (decodeWords [0xA2140000, 0xE0000000]).toOption = some (⟨none, 0, .cbar ⟨0⟩⟩, 2) := by decide

/-- R360. -/
theorem test_decode_yield : (decodeWords [0xA49C0000, 0xE0000000]).toOption = some (⟨none, 0, .yield⟩, 2) := by decide

/-- 13. -/
theorem test_decode_hprobe : (decodeWords [0xA40000A0, 0xE0000040]).toOption = some (⟨none, 0, .hprobe ⟨2, 40⟩⟩, 2) := by decide

/-- 13. -/
theorem test_decode_hins : (decodeWords [0xA40400B0, 0xE5A00041]).toOption = some (⟨none, 0, .hins ⟨2, 44, 45, true⟩⟩, 2) := by decide

/-- 13. -/
theorem test_decode_hadv : (decodeWords [0xA40CB8BC, 0xE0000040]).toOption = some (⟨none, 0, .hadv ⟨46, 2, 47⟩⟩, 2) := by decide

/-- 14 example. -/
theorem test_decode_radd : (decodeWords [0x2480180A, 0x62808030]).toOption = some (⟨none, 0, .radd ⟨6, 2, 4, 1, .i64, some 20⟩⟩, 2) := by decide

/-- 16. -/
theorem test_decode_tsend : (decodeWords [0xA3100200, 0xE0000000]).toOption = some (⟨none, 0, .tsend ⟨128⟩⟩, 2) := by decide

/-- 08 example. -/
theorem test_decode_lgath_z : (decodeWords [0xA3040200, 0xE0000002]).toOption = some (⟨none, 0, .lgath ⟨128, true⟩⟩, 2) := by decide

/-- 08 example. -/
theorem test_decode_bclose_short : (decodeWords [0x81020002]).toOption = some (⟨none, 0, .bcloseShort ⟨8⟩⟩, 1) := by decide

/-- 06. -/
theorem test_decode_plset : (decodeWords [0xA1380000, 0xE0000000]).toOption = some (⟨none, 0, .plset ⟨0⟩⟩, 2) := by decide

/-- 09. -/
theorem test_decode_hpack : (decodeWords [0x3D145000, 0x60000080]).toOption = some (⟨none, 3, .hpack ⟨20, 0, 4, false⟩⟩, 2) := by decide

/-- 05. -/
theorem test_decode_vtopk : (decodeWords [0x22A8605C, 0x60000002]).toOption = some (⟨none, 0, .vtopk ⟨24, 23, .f32⟩⟩, 2) := by decide

/-- R346. -/
theorem test_decode_pour : (decodeWords [0xA4880804, 0xE0000060]).toOption = some (⟨none, 0, .pour ⟨2, 1, 3⟩⟩, 2) := by decide

/-- 16. -/
theorem test_decode_arrinit : (decodeWords [0xA3300204, 0xF090A000]).toOption = some (⟨none, 0, .arrinit ⟨129, 132, 133⟩⟩, 2) := by decide

/-- R89: the all-zero word of the lane pipe. -/
theorem test_zero_word : decodeWords [0] = .error .zeroWord := by rfl

/-- R94: a tail with no head before it. -/
theorem test_tail_alone : decodeWords [0x60C00003] = .error (.tailWithoutHead 0) := by rfl

/-- R94: a head with no tail after it, and a tail of the other pipe. -/
theorem test_head_alone : decodeWords [0x21001015, 0x8100001F] = .error (.headWithoutTail 1)
    ∧ decodeWords [0x21001015, 0xE0C00003] = .error (.tailOfOtherPipe 1) := ⟨rfl, rfl⟩

/-- R81: a prefix on an instruction that takes none. -/
theorem test_prefix_refused : decodeWords [0x41000000, 0xA05C1003, 0xE0000001] = .error .illegalPrefix := by rfl

/-- R92: an unused field that is not zero. -/
theorem test_unused_field : decodeWords [0xA49C0000, 0xE0000001] = .error .reservedOrField := by rfl

/-- The encoder writes the example of R97, and a table word of NOP. -/
theorem test_encode : Coded.encode ⟨some ⟨2, 1, false⟩, 0, .fadd ⟨4, 5, .vec 6, .bf16⟩⟩ = [0x49000000, 0x21001015, 0x60C00003]
    ∧ decodeTableWord 32 0x8100001F = some .nop := by decide

/-! ### Well-formedness: an ill-formed term for each check -/

/-- Every term of a list is refused. -/
def refuses (l : List Instr) : Bool := l.all fun i => !i.wf

/-- R79, R113: lane integer instructions of a floating type, VABS of an unsigned type, VPACK of 64 bits, an index past the sub-elements. -/
theorem test_wf_lane_int : refuses [.vadd ⟨0, 0, .vec 0, .f32⟩, .vsub ⟨0, 0, .vec 0, .f16⟩, .vmul ⟨0, 0, .vec 0, .bf16⟩, .vmulh ⟨0, 0, .vec 0, .f64⟩,
    .vmad ⟨0, 0, .vec 0, 0, .f32⟩, .vand ⟨0, 0, .vec 0, .e4m3⟩, .vor ⟨0, 0, .vec 0, .e5m2⟩, .vxor ⟨0, 0, .vec 0, .f32⟩, .vnot ⟨0, 0, .f32⟩,
    .vshl ⟨0, 0, .imm 0, .f32⟩, .vshr ⟨0, 0, .imm 0, .f32⟩, .vsra ⟨0, 0, .imm 0, .f32⟩, .vrot ⟨0, 0, .imm 0, .f32⟩, .vmin ⟨0, 0, .vec 0, .f32⟩,
    .vmax ⟨0, 0, .vec 0, .f32⟩, .vabs ⟨0, 0, .n32⟩, .vneg ⟨0, 0, .f32⟩, .vclz ⟨0, 0, .f32⟩, .vpopc ⟨0, 0, .f32⟩, .vbrev ⟨0, 0, .f32⟩,
    .vbfx ⟨0, 0, .vec 0, .f32⟩, .vbfi ⟨0, 0, .vec 0, .f32⟩, .vsel ⟨0, 0, .vec 0, 0, .f32⟩, .vcmp ⟨0, 0, .vec 0, .eq, false, .f32⟩,
    .vcmpv ⟨0, 0, .vec 0, .eq, .f32⟩, .vmov ⟨0, 0, .ext 2, .i32⟩, .vmov ⟨0, 0, .ins 4, .i16⟩, .vmovs ⟨0, 0, .splat 2, .i32⟩, .vidx ⟨0, 0, .f32⟩,
    .vpack ⟨0, 0, 0, .i64⟩, .vunpk ⟨0, 0, .f32, false⟩] = true := by decide

/-- R139, R140, R147, R148: floating-point instructions of an integer type, conversions between equal or wrong types or at a position too high. -/
theorem test_wf_lane_fp : refuses [.fadd ⟨0, 0, .vec 0, .i32⟩, .fsub ⟨0, 0, .vec 0, .e4m3⟩, .fmul ⟨0, 0, .vec 0, .n8⟩, .ffma ⟨0, 0, .vec 0, 0, .i32, false⟩,
    .fmin ⟨0, 0, .vec 0, .i32⟩, .fmax ⟨0, 0, .vec 0, .i32⟩, .fabs ⟨0, 0, .i32⟩, .fneg ⟨0, 0, .i32⟩, .fcmp ⟨0, 0, .vec 0, .eq, false, .i32⟩,
    .fcmpv ⟨0, 0, .vec 0, .eq, .i32⟩, .fclass ⟨0, 0, .i32⟩, .fscale ⟨0, 0, .vec 0, .i32⟩, .frnd ⟨0, 0, .i32, false⟩,
    .fcvt ⟨0, 0, 0, .f32, .f32, 0, false⟩, .fcvt ⟨0, 0, 0, .f32, .f16, 2, false⟩, .fcvt ⟨0, 0, 1, .f32, .f16, 0, false⟩, .icvt ⟨0, 0, 0, .i32, .i32, 0, false⟩,
    .ftoi ⟨0, 0, 0, .f32, .f32, 0, false⟩, .fdot ⟨0, 0, .vec 0, 0, .f64, false⟩, .frcp ⟨0, 0, .f64⟩, .frsq ⟨0, 0, .f16⟩, .fexp2 ⟨0, 0, .f64⟩,
    .flog2 ⟨0, 0, .f64⟩, .fsin ⟨0, 0, .f64⟩, .fcos ⟨0, 0, .f64⟩, .ftanh ⟨0, 0, .f64⟩] = true := by decide

/-- R155, R162, R163: cross-lane instructions of a type that they do not take, and VISECT to s255. -/
theorem test_wf_cross : refuses [.vshf ⟨0, 0, .vec 0, .f32⟩, .vshfi ⟨0, 0, 0, .xor, .f32⟩, .vbal ⟨0, 0, .f32⟩, .vvote ⟨0, .all, .f32⟩,
    .vred ⟨.uni 0, 0, .xor, .f32⟩, .vred ⟨.vec 0, 0, .add, .e4m3⟩, .vscan ⟨0, 0, .and, false, .f32⟩, .visect ⟨255, 0, 0⟩, .vtopk ⟨0, 0, .i64⟩] = true := by
  decide

/-- R225, R131, R230: orders that an access does not take, X with 64 bits or on a store, PAIR of less than 64 bits or of an odd register. -/
theorem test_wf_memory : refuses [.ld ⟨0, 0, 0, 0, .w32, .rel, .grp, false⟩, .ld ⟨0, 0, 0, 0, .w64, .none, .grp, true⟩,
    .st ⟨0, 0, 0, 0, .w32, .acq, .grp, false⟩, .st ⟨0, 0, 0, 0, .w32, .none, .grp, true⟩, .lds ⟨0, 0, 0, 0, .w32, .none, true, false⟩,
    .lds ⟨1, 0, 0, 0, .w64, .none, true, false⟩, .sts ⟨0, 0, 0, 0, .w64, .acqrel, false, false⟩, .ldc ⟨0, 0, 0, 0, .w64, .none, false, true⟩,
    .stc ⟨0, 0, 0, 0, .w8, .none, false, true⟩, .atom ⟨0, 0, 0, 0, 0, .add, false, .none, .grp, true⟩,
    .atoms ⟨0, 0, 0, 255, 0, .add, false, .none, true, false⟩, .atomc ⟨0, 0, 0, 0, 0, .xchg, false, .none, true⟩, .ldf ⟨0, 0, 0, 0, 0, .w64, true⟩,
    .sld ⟨0, 0, 0, .w64, .rel, .grp, true⟩, .sst ⟨0, 0, 0, .w64, .acq, .grp, false⟩, .satom ⟨0, 0, 0, .fadd, false, .none, .grp, false⟩] = true := by
  decide

/-- R393, R394, R407: remote updates of a type or width that they do not take, unbound where they must be bound, or bound to s255. -/
theorem test_wf_remote : refuses [.radd ⟨0, 0, 0, 0, .i32, none⟩, .radd ⟨0, 0, 0, 0, .i16, some 0⟩, .rmin ⟨0, 0, 0, 0, .f16, none⟩,
    .rmax ⟨0, 0, 0, 0, .i32, some 255⟩, .ror ⟨0, 0, 0, 0, .f32, none⟩, .rwo ⟨0, 0, 0, 0, .i32, none⟩, .rarr ⟨255⟩, .rget ⟨0, 0, 0, 255, 0⟩,
    .cradd ⟨0, 0, 0, 0, .f32, none⟩, .cradd ⟨0, 0, 0, 0, .n64, some 0⟩, .crrd ⟨0, 0, 0, 0, .f16⟩] = true := by decide

/-- R255, R259, R268, R271: fragments that do not start at a multiple of 4, types that the engine does not take, a HPACK width out of range. -/
theorem test_wf_matrix : refuses [.mma ⟨0, 1, 0, none, false, false, false, .f16⟩, .mma ⟨0, 0, 0, none, false, false, true, .f16⟩,
    .mma ⟨0, 0, 0, none, false, false, false, .f32⟩, .oadd ⟨0, 2, 0, none, false, .f16⟩, .msts ⟨0, 0, 0, 0, .f32, false⟩, .hpack ⟨0, 0, 3, false⟩,
    .hpack ⟨0, 0, 23, false⟩] = true := by decide

/-- R126 to R131: uniform instructions of 8 or 16 bits or of a floating type. -/
theorem test_wf_uniform : refuses [.sadd ⟨0, 0, .reg 0, .i16⟩, .ssub ⟨0, 0, .reg 0, .f32⟩, .smul ⟨0, 0, .reg 0, .i8⟩, .smulh ⟨0, 0, .reg 0, .f64⟩,
    .sdiv ⟨0, 0, .reg 0, .i16⟩, .srem ⟨0, 0, .reg 0, .f32⟩, .sand ⟨0, 0, .reg 0, .i16⟩, .sor ⟨0, 0, .reg 0, .i16⟩, .sxor ⟨0, 0, .reg 0, .i16⟩,
    .snot ⟨0, 0, .i16⟩, .sshl ⟨0, 0, .reg 0, .i16⟩, .sshr ⟨0, 0, .reg 0, .i16⟩, .ssra ⟨0, 0, .reg 0, .i16⟩, .smin ⟨0, 0, .reg 0, .i16⟩,
    .smax ⟨0, 0, .reg 0, .f32⟩, .sclz ⟨0, 0, .i8⟩, .sctz ⟨0, 0, .i8⟩, .spopc ⟨0, 0, .i8⟩, .sbfx ⟨0, 0, 0, .i8⟩, .sbfi ⟨0, 0, 0, .i8⟩,
    .ssel ⟨0, 0, .reg 0, .f32⟩, .scmp ⟨0, 0, .eq, .f32⟩, .smov ⟨0, .reg 0, .i16⟩] = true := by decide

/-- R173, R245, R412, R434, R463: a loop of no words, register groups that pass the last register. -/
theorem test_wf_control : refuses [.loop ⟨0, 0⟩, .arrst ⟨255, 0⟩, .ltile ⟨249, false⟩, .lgath ⟨249, false⟩, .lscat ⟨249, false⟩, .tsend ⟨249⟩,
    .sload ⟨0, 254, 0, 0⟩, .sstore ⟨0, 0, 255, 0⟩, .ckpt ⟨0, 253, false⟩, .hprobe ⟨0, 253⟩, .dgfold ⟨0, 255, false⟩] = true := by decide

/-! ### Small states -/

/-- The state after reset with one group placed on core 0 of die 0, lanes 0 to 7 of whose split issue the one word of NOP. -/
def w0 : State :=
  let s := State.reset.withFetchWord 32 0x8100001F
  { s with agenda := [], cur := { s.cur with gid := State.reset.uid + 3, mask := 0xFF, next := 4 } }

/-- A state with a uniform register set. -/
def setU (s : State) (r : Nat) (x : Word) : State := s.modGrp fun g => { g with u := g.u.insert r x }
/-- A state with a vector register set in a lane. -/
def setV (s : State) (r lane : Nat) (x : Word) : State := s.modGrp fun g => { g with v := g.v.insert (vkey r lane) x }
/-- The next state of an instruction. -/
def after (i : Instr) (s : State) : State := match exec i s with | .next t => t | _ => s

/-! ### Single steps: the spec's worked examples -/

/-- VPACK's example (04): without a prefix, with satf, and as N8 with sat. -/
theorem test_vpack :
    let s := setV (setV w0 1 0 0x0100FF7F0080FFFF) 2 0 0x5FFFB
    (after (.vpack ⟨3, 1, 2, .i8⟩) s).grp.vreg 3 0 = 0x000005FB007F80FF
    ∧ (after (.vpack ⟨3, 1, 2, .i8⟩) { s with cur := { s.cur with sat := .flagged } }).grp.vreg 3 0 = 0x000005FB7F807FFF
    ∧ (after (.vpack ⟨3, 1, 2, .n8⟩) { s with cur := { s.cur with sat := .quiet } }).grp.vreg 3 0 = 0x000005FFFFFF80FF := by decide

/-- SADD's example (04): the short form wraps at 32 bits, the long form of type I64 does not. -/
theorem test_sadd :
    let s := setU w0 8 0x00000001FFFFFFF0
    (after (.saddShort ⟨8, .imm 16⟩) s).grp.ureg 8 = 0 ∧ (after (.sadd ⟨8, 8, .imm 16, .i64⟩) s).grp.ureg 8 = 0x0000000200000000 := by decide

/-- SINSI's example (04): 128,000 from a byte pair. -/
theorem test_sinsi : (after (.sinsi ⟨4, 0x01, 2⟩) (setU w0 4 0xF400)).grp.ureg 4 = 128000 := by decide

/-- FCVT's example (05): POS 1, SAT 01. -/
theorem test_fcvt :
    let s := setV (setV w0 4 0 0x43FA00003F800000) 5 0 0xBA80000040500000
    (after (.fcvt ⟨3, 4, 5, .e4m3, .f32, 1, false⟩) { s with cur := { s.cur with sat := .quiet } }).grp.vreg 3 0 = 0x80457E3800000000 := by decide

/-- QSWP's example (05): the helper lane 7 takes part. -/
theorem test_qswp :
    let s := (List.range 8).foldl (fun s i => setV s 1 i (BitVec.ofNat 64 (10 * i))) w0
    let s := (s.modSpl fun p => { p with exec := 0x70 }).modCur fun c => { c with mask := 0x70 }
    let t := after .qhlp s
    let u := after (.qswp ⟨2, 1, .h⟩) { t with cur := { t.cur with help := t.spl.hlp } }
    t.spl.hlp = 0x80 ∧ [4, 5, 6, 7].map (u.grp.vreg 2) = [50, 40, 70, 60] := by decide

/-- VISECT's example (05). -/
theorem test_visect :
    let s := (List.range 32).foldl (fun s i => setV (setV s 1 i (BitVec.ofNat 64 (2 * i))) 2 i (BitVec.ofNat 64 (3 * i))) w0
    let t := after (.visect ⟨8, 1, 2⟩) (s.modCur fun c => { c with mask := 0xFFFFFFFF })
    t.grp.ureg 8 = 0x0015555549249249 ∧ t.grp.ureg 9 = 0x0000001500000020 := by decide

/-- BRD's example (06): lanes 0 to 15 go to 0x100 as a split of their own. -/
theorem test_brd :
    let s := (setU w0 4 0xFFFF).modCur fun c => { c with next := 8, mask := 0xFFFFFFFF }
    let t := after (.brd ⟨4, false, 62⟩) s
    t.spl.owned = 0xFFFF0000 ∧ (t.grp.split 1).owned = 0xFFFF ∧ (t.grp.split 1).off = 0x100 := by decide

/-! ### Witnesses: lane and uniform instructions -/

/-- The state w0 with traps of NV, DZ and OF enabled, +infinity in v1 and 0 in v2 of lane 0, and results clamped with a flag. -/
def wTrap : State :=
  let s := setU (setV (setV w0 1 0 0x7F800000) 2 0 0) 4 0x7FFFFFFF
  (s.modGrp fun g => { g with fpm := 0x1C1 }).modCur fun c => { c with sat := .flagged }

theorem witness_LaneResult : ∃ f, laneForm (.vadd ⟨3, 1, .vec 2, .i32⟩) = some f ∧ w0.Issuing ∧ w0.Clear w0.lanes f.uses
    ∧ f.flags w0 &&& w0.grp.enabled = 0 :=
  ⟨_, rfl, by simp only [State.Issuing, State.Clear]; decide⟩

theorem witness_FpExceptionTraps_lane : ∃ f, laneForm (.fmul ⟨3, 1, .vec 2, .f32⟩) = some f ∧ wTrap.Issuing ∧ wTrap.MayTrap
    ∧ wTrap.Clear wTrap.lanes f.uses ∧ f.flags wTrap &&& wTrap.grp.enabled ≠ 0 :=
  ⟨_, rfl, by simp only [State.Issuing, State.MayTrap, State.Clear]; decide⟩

theorem witness_FpExceptionTraps_uniform : ∃ f, uniForm (.sadd ⟨5, 4, .imm 1, .i32⟩) = some f ∧ wTrap.Issuing ∧ wTrap.MayTrap
    ∧ wTrap.Clear wTrap.cur.mask f.uses ∧ (f.res wTrap).2 &&& wTrap.grp.enabled ≠ 0 :=
  ⟨_, rfl, by simp only [State.Issuing, State.MayTrap, State.Clear]; decide⟩

/-- The flags of a special function vary with free values, so no trap is enabled here. -/
theorem witness_SpecialFunctionResult : specialOf (.frcp ⟨3, 1, .f32⟩) = some (⟨3, 1, .f32⟩, .rcp) ∧ w0.Issuing ∧ w0.Clear w0.lanes [rdV 1, wrV 3]
    ∧ (w0.core w0.curCore).sfu.getD 0 (w0.grp.cx.grpid.toNat % 4) ≤ w0.now ∧ w0.cur.flow = .run ∧ ∀ x : FpFlags, x &&& w0.grp.enabled = 0 := by
  simp only [State.Issuing, State.Clear]; decide

theorem witness_CrossLaneResult : ∃ f, crossForm (.vshf ⟨3, 1, .vec 2, .i32⟩) = some f ∧ w0.Issuing ∧ f.gathers = true
    ∧ w0.heldBack w0.cur.gid w0.cur.ent = false ∧ w0.Clear (f.part w0) f.uses ∧ (∀ r, f.src = some r → w0.CleanVector r)
    ∧ f.flags w0.srcs (f.part w0) &&& w0.grp.enabled = 0 := by
  refine ⟨_, rfl, ?_, rfl, by decide, ?_, fun r _ i h _ => rfl, by decide⟩
  · simp only [State.Issuing]; decide
  · simp only [State.Clear]; decide

theorem witness_MaskAndVoteResult_mask : ∃ f, maskForm (.vcmp ⟨8, 1, .vec 2, .lt, false, .i32⟩) = some f ∧ w0.Issuing
    ∧ w0.heldBack w0.cur.gid w0.cur.ent = false ∧ w0.Clear (f.lanes w0) f.uses ∧ (f.res w0).2 &&& w0.grp.enabled = 0 :=
  ⟨_, rfl, by simp only [State.Issuing, State.Clear]; decide⟩

theorem witness_MaskAndVoteResult : w0.Issuing ∧ w0.heldBack w0.cur.gid w0.cur.ent = false ∧ w0.Clear w0.cur.mask [rdV 1, wrSc]
    ∧ w0.Clear w0.cur.mask [rdVlo 1, wrSc] ∧ (254 : UReg) ≠ 255 ∧ w0.Clear w0.cur.mask [rdVlo 1, rdVlo 2, wrU 254, wrU (254 + 1)] := by
  simp only [State.Issuing, State.Clear]; decide

theorem witness_UniformResult : ∃ f, uniForm (.sadd ⟨255, 4, .imm 1, .i64⟩) = some f ∧ w0.Issuing ∧ w0.Clear w0.cur.mask f.uses
    ∧ (f.res w0).2 &&& w0.grp.enabled = 0 :=
  ⟨_, rfl, by simp only [State.Issuing, State.Clear]; decide⟩

theorem witness_ScalarAndMaskForms : w0.Issuing ∧ w0.Clear w0.cur.mask ([rdUw 64 4] ++ usesS 64 (.reg 5) ++ [wrU 6])
    ∧ (w0.core w0.curCore).divider.getD 0 (w0.grp.cx.grpid.toNat % 4) ≤ w0.now ∧ w0.cur.flow = .run ∧ w0.Clear w0.cur.mask [rdUw 64 4, rdUw 64 5, wrSc]
    ∧ w0.Clear w0.cur.mask ([rdUw 32 4] ++ usesS 32 (.imm 255) ++ [wrSc]) ∧ (maskOpOf (.mload ⟨7⟩)).isSome = true ∧ w0.Clear w0.cur.mask [rdUlo 7]
    ∧ w0.Clear w0.cur.mask [rdUlo 4, rdUlo 5, wrU 6] := by
  simp only [State.Issuing, State.Clear]; decide

/-- For SETSR: of SC, of another writable register, of one that is not writable, and of a loop register of a split with a level and without. -/
theorem witness_SetSpecialResult : w0.Issuing ∧ w0.Clear w0.cur.mask (rdU 4 :: [wrSc]) ∧ w0.Clear w0.cur.mask (rdU 4 :: []) ∧ w0.MayTrap
    ∧ (loopRegOf .lc0).isSome = true ∧ (loopRegOf .le3).isSome = true := by
  simp only [State.Issuing, State.Clear, State.MayTrap]; decide

/-- The state w0 with 16 vector registers, with SBCHK set and a result pending for v2 of lane 0, with a load to v2 outstanding, and
with a poisoned half of v1 in lane 3. -/
def wFew : State := w0.modGrp fun g => { g with cx := { g.cx with nv := 16 } }
def wLate : State := (after (.vidx ⟨2, 0, .i32⟩) w0).modGrp fun g => { g with sbchk := true, late := g.late.map fun l => { l with iid := 99 } }
def wLoad : State := (after (.ldsShort ⟨2, 0, 0⟩) w0).modGrp fun g => { g with sbchk := true, uncov := g.uncov.map fun u => { u with iid := 99 } }
def wPoison : State := w0.modGrp fun g => { g with vpois := [(2 * vkey 1 3 + 1, true)] }

theorem witness_RegisterChecks_allocated : ∃ x, checksOf (.vadd ⟨16, 1, .vec 2, .i32⟩) wFew = some x ∧ wFew.Issuing ∧ wFew.MayTrap ∧ wFew.cur.mask ≠ 0
    ∧ x.2.any wFew.grp.unallocated = true :=
  ⟨_, rfl, by simp only [State.Issuing, State.MayTrap]; decide⟩

theorem witness_RegisterChecks_late : ∃ x u, checksOf (.vadd ⟨3, 1, .vec 2, .i32⟩) wLate = some x ∧ wLate.Issuing
    ∧ wLate.grp.sbchk = true ∧ x.2.any wLate.grp.unallocated = false ∧ wLate.grp.latePending wLate.clk wLate.spl.owned = true
    ∧ wLate.grp.handler = none ∧ wLate.grp.firstTrapped = none ∧ wLate.spl.held = none ∧ wLate.cur.fset = 0 ∧ wLate.cur.newPlanes = []
    ∧ x.2.find? (wLate.grp.pendingUse wLate.now wLate.iid wLate.spl.owned) = some u :=
  ⟨_, _, rfl, by simp only [State.Issuing]; decide, by decide, by decide, by decide, by decide, by decide, by decide, by decide, by decide, rfl⟩

theorem witness_RegisterChecks_load : ∃ x u, checksOf (.vadd ⟨3, 1, .vec 2, .i32⟩) wLoad = some x ∧ wLoad.Issuing ∧ wLoad.MayTrap
    ∧ wLoad.grp.sbchk = true ∧ x.2.any wLoad.grp.unallocated = false
    ∧ x.2.find? (wLoad.grp.pendingUse wLoad.now wLoad.iid wLoad.spl.owned) = some u :=
  ⟨_, _, rfl, by simp only [State.Issuing]; decide, by simp only [State.MayTrap]; decide, by decide, by decide, rfl⟩

theorem witness_RegisterChecks_poison : ∃ x u, checksOf (.vadd ⟨3, 1, .vec 2, .i32⟩) wPoison = some x ∧ wPoison.Issuing ∧ wPoison.MayTrap
    ∧ x.2.any wPoison.grp.unallocated = false ∧ x.2.any (wPoison.grp.pendingUse wPoison.now wPoison.iid wPoison.spl.owned) = false
    ∧ wPoison.operandHazards x.2 = [] ∧ wPoison.firstPoison x.1 x.2 = some u :=
  ⟨_, _, rfl, by simp only [State.Issuing]; decide, by simp only [State.MayTrap]; decide, by decide, by decide, by decide, rfl⟩

/-! ### Witnesses: control, traps and planes -/

/-- A state that issues at the second word of a region whose first is a prefix and whose third is a tail. -/
def wPrefix : State :=
  let s := State.reset.withFetchWord 96 0x60C00003810000_1F49000000
  { s with agenda := [], cur := { s.cur with gid := State.reset.uid + 3, mask := 0xFF, off := 4, next := 8 } }

/-- The word after a prefix, a tail word, the end of the region and a negative target trap; the start of the region does not. -/
theorem witness_BranchResult : w0.Issuing ∧ w0.MayTrap ∧ w0.condHolds .nsc = true ∧ w0.condHolds .sc = false ∧ w0.Clear w0.cur.mask (condUses .nsc)
    ∧ w0.MayGo w0.spl.owned 0 ∧ w0.MayGo w0.spl.owned (w0.cur.next + 4 * (-1 : Int)) ∧ w0.Clear w0.cur.mask [rdUlo 4] ∧ w0.Clear w0.cur.mask [rdUlo 4, wrU 5]
    ∧ w0.goFault w0.spl.owned (-4) = some 0x04 ∧ w0.goFault w0.spl.owned w0.grp.regionLen = some 0x04 ∧ w0.goFault w0.spl.owned 2 = some 0x04
    ∧ wPrefix.goFault wPrefix.spl.owned 4 = some 0x03 ∧ wPrefix.goFault wPrefix.spl.owned 8 = some 0x04 ∧ wPrefix.goFault wPrefix.spl.owned 0 = none := by
  simp only [State.Issuing, State.MayTrap, State.Clear, State.MayGo]; decide

/-- A region of three NOPs: its first word, its last, and the end. -/
def wRegion : State :=
  let s := State.reset.withFetchWord 96 0x8100001F8100001F8100001F
  { s with agenda := [], cur := { s.cur with gid := State.reset.uid + 3, mask := 0xFF, off := 4, next := 8 } }

theorem fetches_of (s : State) (c : Nat) (a : BitVec 16) (va ls : Nat)
    (h : (match (s.fetchWord c a va).2 with | .words [w] => (wordLS w).toNat != ls | _ => false) = true) :
    ∃ t w, s.fetchWord c a va = (t, .words [w]) ∧ (wordLS w).toNat ≠ ls := by
  revert h
  match hf : s.fetchWord c a va with
  | (t, .words [w]) => exact fun h => ⟨t, w, rfl, by simpa using h⟩
  | (t, .words []) => simp
  | (t, .words (_ :: _ :: _)) => simp
  | (t, .served ..) => simp
  | (t, .trap ..) => simp
  | (t, .again ..) => simp

theorem witness_BranchResult_target : wRegion.Issuing ∧ wRegion.TargetOk wRegion.spl.owned 0 ∧ wRegion.TargetOk wRegion.spl.owned 8
    ∧ ¬wRegion.TargetOk wRegion.spl.owned wRegion.grp.regionLen ∧ wRegion.cur.next + 4 * (0 : Int) = 8 := by
  have h : ∀ p ∈ wRegion.grp.occupied wRegion.spl.owned, p = 0 := by decide
  refine ⟨by simp only [State.Issuing]; decide, ⟨by decide, by decide, by decide, fun p hp => ?_⟩, ⟨by decide, by decide, by decide, fun p hp => ?_⟩,
    fun h => absurd h.2.2.1 (by decide), by decide⟩
  all_goals have := h p hp; subst this
  · exact ⟨fetches_of _ _ _ _ _ (by decide), fun h => absurd rfl h⟩
  · exact ⟨fetches_of _ _ _ _ _ (by decide), fun _ => fetches_of _ _ _ _ _ (by decide)⟩

/-- Splits with a loop stack of one and of four levels. -/
def wLoop1 : State := (setU w0 6 3).modSpl fun p => { p with loops := [⟨0, 8, 2⟩] }
def wLoop4 : State := (setU w0 6 3).modSpl fun p => { p with loops := List.replicate 4 ⟨0, 8, 2⟩ }

theorem witness_CallAndLoopResult : w0.Issuing ∧ w0.Clear w0.cur.mask [wrU 5] ∧ w0.Clear w0.cur.mask [rdUlo 4, wrU 5] ∧ w0.Clear w0.cur.mask [rdU 4]
    ∧ w0.MayTrap ∧ wbits (w0.grp.ureg 4) 34 32 = w0.spl.loops.length ∧ w0.MayGo w0.spl.owned ((w0.grp.ureg 4).toNat % 2 ^ 32 : Nat)
    ∧ wbits (wLoop1.grp.ureg 4) 34 32 ≠ wLoop1.spl.loops.length ∧ wLoop1.MayTrap ∧ wLoop1.Clear wLoop1.cur.mask [rdU 4] ∧ wLoop1.Issuing
    ∧ w0.Clear w0.cur.mask [rdUlo 6] ∧ (w0.grp.ureg 6).setWidth 32 = (0 : BitVec 32) ∧ w0.MayGo w0.spl.owned (w0.cur.next + 4 * (1 : Int))
    ∧ (wLoop1.grp.ureg 6).setWidth 32 ≠ (0 : BitVec 32) ∧ wLoop1.spl.loops.length < 4 ∧ (wLoop4.grp.ureg 6).setWidth 32 ≠ (0 : BitVec 32)
    ∧ 4 ≤ wLoop4.spl.loops.length ∧ wLoop4.MayTrap ∧ wLoop4.Issuing ∧ wLoop4.Clear wLoop4.cur.mask [rdUlo 6] ∧ w0.spl.loops = []
    ∧ wLoop1.spl.loops = [⟨0, 8, 2⟩] ∧ wLoop1.condHolds .all = true ∧ wLoop1.condHolds .none = false ∧ wLoop1.MayGo wLoop1.spl.owned 8 := by
  simp only [State.Issuing, State.MayTrap, State.Clear, State.MayGo]; decide

/-- Lanes 0 and 1 are taken; with no free entry; and with no room in the deferred area either. -/
def wBrd : State := setU w0 4 0x3
def wFull : State := wBrd.modGrp fun g => { g with splits := g.splits ++ [(1, g.split 0), (2, g.split 0), (3, g.split 0)], cx := { g.cx with defCap := 2 } }
def wNoRoom : State := wFull.modGrp fun g => { g with cx := { g.cx with defCap := 0 } }

theorem witness_DivergentBranch : w0.Issuing ∧ w0.Clear w0.cur.mask [rdUlo 4] ∧ w0.spl.exec &&& (w0.grp.ureg 4).setWidth 32 = 0
    ∧ w0.spl.exec &&& ~~~((w0.grp.ureg 4).setWidth 32 : Mask) = w0.spl.exec ∧ w0.spl.exec ≠ 0 ∧ w0.MayGo w0.spl.owned (w0.cur.next + 4 * (0 : Int))
    ∧ wBrd.Issuing ∧ wBrd.Clear wBrd.cur.mask [rdUlo 4] ∧ wBrd.spl.exec &&& (wBrd.grp.ureg 4).setWidth 32 = 3 ∧ wBrd.spl.exec ≠ 3
    ∧ wBrd.MayGo 3 (wBrd.cur.next + 4 * (0 : Int)) ∧ wBrd.grp.handler ≠ some wBrd.cur.ent ∧ wBrd.grp.freeEntry = some 1
    ∧ wFull.Issuing ∧ wFull.Clear wFull.cur.mask [rdUlo 4] ∧ wFull.MayGo 3 (wFull.cur.next + 4 * (0 : Int)) ∧ wFull.grp.handler ≠ some wFull.cur.ent
    ∧ wFull.grp.freeEntry = none ∧ wFull.spl.loops = [] ∧ wFull.grp.defCount < wFull.grp.cx.defCap
    ∧ wNoRoom.Issuing ∧ wNoRoom.Clear wNoRoom.cur.mask [rdUlo 4] ∧ wNoRoom.grp.freeEntry = none ∧ wNoRoom.grp.cx.defCap ≤ wNoRoom.grp.defCount
    ∧ wNoRoom.MayGo 3 (wNoRoom.cur.next + 4 * (0 : Int)) ∧ wNoRoom.grp.handler ≠ some wNoRoom.cur.ent ∧ wNoRoom.MayTrap := by
  simp only [State.Issuing, State.MayTrap, State.Clear, State.MayGo]; decide

/-- The split runs the handler. -/
def wHandler : State := w0.modGrp fun g => { g with handler := some 0, tmask := 0x000000FF00000001, tcause := 0x810E }

theorem witness_TrapRaised : w0.Issuing ∧ w0.MayTrap ∧ wHandler.Issuing ∧ wHandler.grp.handler = some wHandler.cur.ent ∧ wHandler.spl.held = none
    ∧ wHandler.cur.fset = 0 ∧ wHandler.cur.newPlanes = [] := by
  simp only [State.Issuing, State.MayTrap]; decide

theorem witness_TrapReturn : wHandler.Issuing ∧ wHandler.grp.handler = some wHandler.cur.ent ∧ wHandler.spl.loops = []
    ∧ (∀ k, k < 32 → wHandler.spl.owned.getLsbD k = true → wHandler.grp.planeSaved k < 2 ^ wbits wHandler.grp.cx.creg 19 18)
    ∧ wHandler.transfer wHandler.grp ((List.range 8).filter fun p => (lanesOf (wHandler.spl.owned &&& ~~~wHandler.grp.exited)).any fun k =>
        wHandler.grp.planeSaved k == p) (wbits wHandler.grp.toff 25 0) = .ok
    ∧ w0.Issuing ∧ w0.grp.handler ≠ some w0.cur.ent ∧ w0.MayTrap := by
  simp only [State.Issuing, State.MayTrap]; decide

/-- TRET restores the offset, EXEC and SC that the entry saved (R193). -/
theorem test_tret : (after .tret wHandler).spl.exec = 0xFF ∧ (after .tret wHandler).spl.sc = true ∧ (after .tret wHandler).grp.handler = none
    ∧ (after .tret wHandler).grp.tcause = 0x010E := by decide

/-- A split that owns half of what its origin did: with no wait before, and with an RCVW that has expired. -/
def wHalf : State := (setU w0 4 1).modSpl fun p => { p with owned := 0xFFFF, exec := 0xFFFF }
def wPast : State := { wHalf with clk := wHalf.clk + 9 }
def wExpired : State := wHalf.modSpl fun p => { p with woke := some (.rcv (some 0) none) }

theorem witness_ReceiveResult : w0.Issuing ∧ w0.Clear w0.cur.mask [] ∧ w0.Clear w0.cur.mask [rdUlo 4, rdUlo 5]
    ∧ w0.spl.origin &&& ~~~w0.grp.exited &&& ~~~w0.spl.owned = 0
    ∧ wHalf.Issuing ∧ wHalf.Clear wHalf.cur.mask [] ∧ wHalf.Clear wHalf.cur.mask [rdUlo 4] ∧ wHalf.spl.origin &&& ~~~wHalf.grp.exited &&& ~~~wHalf.spl.owned ≠ 0
    ∧ wHalf.spl.woke = none ∧ wHalf.clk < wHalf.spl.readyAt + (wHalf.grp.ureg 4).toNat % 2 ^ 32
    ∧ w0.spl.woke = none ∧ wExpired.Issuing ∧ wExpired.spl.woke = some (.rcv (some 0) none)
    ∧ wPast.Issuing ∧ wPast.Clear wPast.cur.mask [rdUlo 4] ∧ wPast.spl.woke = none ∧ wPast.waiterHere = false
    ∧ wPast.spl.origin &&& ~~~wPast.grp.exited &&& ~~~wPast.spl.owned ≠ 0
    ∧ wPast.spl.readyAt + (wPast.grp.ureg 4).toNat % 2 ^ 32 ≤ wPast.clk := by
  simp only [State.Issuing, State.Clear]; decide

/-- EXIT of half of the owned lanes; of all the lanes of a split beside another; of the last lanes of the group. -/
def wPart : State := w0.modSpl fun p => { p with exec := 0xFFFF }

theorem witness_ExitAndSimpleEffects : wPart.Issuing ∧ wPart.spl.owned &&& ~~~wPart.spl.exec ≠ 0
    ∧ wHalf.Issuing ∧ wHalf.spl.owned &&& ~~~wHalf.spl.exec = 0 ∧ wHalf.grp.exited ||| wHalf.spl.exec ≠ BitVec.allOnes 32 ∧ wHalf.grp.defCount = 0
    ∧ wHalf.grp.handler ≠ some wHalf.cur.ent
    ∧ w0.Issuing ∧ w0.spl.owned &&& ~~~w0.spl.exec = 0 ∧ w0.grp.exited ||| w0.spl.exec = BitVec.allOnes 32 ∧ w0.grp.ended = false ∧ w0.grp.defCount = 0
    ∧ w0.blk.stopping = false := by
  simp only [State.Issuing]; decide

/-- A group of two planes. -/
def wPlanes : State := (setU (setV w0 1 3 2) 4 0xF).modGrp fun g => { g with cx := { g.cx with creg := 2 ^ 18 } }

/-- The highest plane that there is, and the lowest that there is not. -/
theorem witness_PlaneControl : wPlanes.Issuing ∧ wPlanes.MayTrap ∧ (1 : BitVec 3).toNat < 2 ^ wbits wPlanes.grp.cx.creg 19 18
    ∧ wPlanes.Clear wPlanes.cur.mask [rdUlo 4] ∧ wPlanes.Clear wPlanes.cur.mask [rdVlo 2] ∧ wPlanes.Clear wPlanes.cur.mask [wrV 5]
    ∧ (∀ k, k < 32 → wPlanes.cur.mask.getLsbD k = true → (wPlanes.grp.vreg 2 k).toNat % 2 ^ 32 < 2 ^ wbits wPlanes.grp.cx.creg 19 18)
    ∧ 2 ^ wbits wPlanes.grp.cx.creg 19 18 ≤ (2 : BitVec 3).toNat ∧ wPlanes.Clear wPlanes.cur.mask [rdVlo 1] ∧ 3 < 32
    ∧ wPlanes.cur.mask.getLsbD 3 = true ∧ 2 ^ wbits wPlanes.grp.cx.creg 19 18 ≤ (wPlanes.grp.vreg 1 3).toNat % 2 ^ 32
    ∧ ∀ l, l < 32 → wPlanes.cur.mask.getLsbD l = true → 2 ^ wbits wPlanes.grp.cx.creg 19 18 ≤ (wPlanes.grp.vreg 1 l).toNat % 2 ^ 32 →
      (wPlanes.grp.vreg 1 3).toNat % 2 ^ 32 ≤ (wPlanes.grp.vreg 1 l).toNat % 2 ^ 32 := by
  simp only [State.Issuing, State.MayTrap, State.Clear]; decide

/-! ### Witnesses: memory accesses -/

/-- One lane of w0, with a PRIVATE page of memory at 0x1000, v1 = 0x1000 in lane 0 and s5 = 0x1000. -/
def wMem : State :=
  let s := setU (setV (w0.modCur fun c => { c with mask := 1 }) 1 0 0x1000) 5 0x1000
  let page : Tlb := ⟨0, s.sliceGen 0 0, 0x1000, 4096, s.nodeId 0 * 2 ^ 44 + 0x1000, kPrivate, true, true, false, true, noLeaf⟩
  s.modCore 0 fun k => { k with tlb := page :: k.tlb }

/-- The page of the TLB that serves an address, checked as a Bool. -/
theorem translates_of (s : State) (k : AccessKind) (size : Nat) (devOk : Bool) (va : Word) (h : (s.reg s.curDie 0x000).getLsbD 0 = true)
    (h2 : ((s.coreTlb va).any fun t => (t.kind == kFabric || t.gen == s.sliceGen (dieOfPa (t.frame % 2 ^ 44)) s.grp.cx.asid)
      && t.kind != kHost && pageOk s.curDie k size devOk t && t.permits k && (!k.writes || t.d)) = true) : s.Translates k size devOk va := by
  refine ⟨h, ?_⟩
  match hf : s.coreTlb va with
  | none => rw [hf] at h2; simp at h2
  | some t =>
    rw [hf] at h2
    simp only [Option.any_some, Bool.and_eq_true, Bool.or_eq_true, beq_iff_eq, bne_iff_ne, Bool.not_eq_true'] at h2
    obtain ⟨⟨⟨⟨a, b⟩, c⟩, d⟩, e⟩ := h2
    exact ⟨t, rfl, a, b, c, d, fun w => by rcases e with e | e <;> simp_all⟩

/-- As `translates_of`, for a page rule. -/
theorem hits_of (s : State) (k : AccessKind) (f : Tlb → Bool) (va : Word) (h0 : va.toNat < 2 ^ 56) (h : (s.reg s.curDie 0x000).getLsbD 0 = true)
    (h2 : ((s.coreTlb va).any fun t => (t.kind == kFabric || t.gen == s.sliceGen (dieOfPa (t.frame % 2 ^ 44)) s.grp.cx.asid)
      && t.kind != kHost && f t && t.permits k && (!k.writes || t.d)) = true) : s.Hits k f va := by
  refine ⟨h0, h, ?_⟩
  match hf : s.coreTlb va with
  | none => rw [hf] at h2; simp at h2
  | some t =>
    rw [hf] at h2
    simp only [Option.any_some, Bool.and_eq_true, Bool.or_eq_true, beq_iff_eq, bne_iff_ne, Bool.not_eq_true'] at h2
    obtain ⟨⟨⟨⟨a, b⟩, c⟩, d⟩, e⟩ := h2
    exact ⟨t, rfl, a, b, c, d, fun w => by rcases e with e | e <;> simp_all⟩

/-- The last doubleword of a scratchpad of 128 KiB. -/
theorem witness_AccessResult_scratch : ∃ f, laneAccOf (.ldsShort ⟨2, 1, 0⟩) (setV wMem 1 0 0x1FFF8) = some f ∧ (setV wMem 1 0 0x1FFF8).Issuing
    ∧ (setV wMem 1 0 0x1FFF8).Clear (setV wMem 1 0 0x1FFF8).cur.mask f.uses ∧ f.Room (setV wMem 1 0 0x1FFF8)
    ∧ (∀ k ∈ f.lanes (setV wMem 1 0 0x1FFF8), f.fail k = none ∧ f.ok k) ∧ f.lanes (setV wMem 1 0 0x1FFF8) ≠ [] :=
  ⟨_, rfl, by simp only [State.Issuing]; decide, by simp only [State.Clear]; decide, .inr (by decide),
    fun k hk => ⟨(by decide : ∀ k ∈ LaneAcc.lanes _ (setV wMem 1 0 0x1FFF8), LaneAcc.fail _ k = none) k hk, .inl rfl⟩, by decide⟩

theorem witness_AccessResult_global : ∃ f, laneAccOf (.atom ⟨2, 1, 3, 0, 0, .add, true, .none, .die, false⟩) wMem = some f ∧ wMem.Issuing
    ∧ wMem.Clear wMem.cur.mask f.uses ∧ f.Room wMem ∧ (∀ k ∈ f.lanes wMem, f.fail k = none ∧ f.ok k) ∧ f.lanes wMem ≠ [] := by
  refine ⟨_, rfl, by simp only [State.Issuing]; decide, by simp only [State.Clear]; decide, .inr (by decide), fun k hk => ?_, by decide⟩
  have h0 : k = 0 := (by decide : ∀ k ∈ lanesOf wMem.cur.mask, k = 0) k hk
  subst h0
  exact ⟨by decide, translates_of _ _ _ _ _ (by decide) (by decide), fun _ => by decide⟩

theorem witness_AccessResult_none : ∃ f, laneAccOf (.ldsShort ⟨2, 1, 0⟩) (wMem.modCur fun c => { c with mask := 0 }) = some f
    ∧ f.lanes (wMem.modCur fun c => { c with mask := 0 }) = [] :=
  ⟨_, rfl, by decide⟩

/-- LDF of one lane with an address at the end of the 56-bit space, and of one on an IMMUTABLE page. -/
theorem witness_AccessResult_ldf : wMem.Issuing ∧ wMem.Clear wMem.cur.mask [rdU 5, rdV 1, wrV 2, rdUlo 6, wrU 6] ∧ wMem.grp.lcnt < 127
    ∧ (∀ k ∈ lanesOf wMem.cur.mask, globalFail 8 ((setU wMem 5 0x00FFFFFFFFFFF000).gAddr 5 1 0 k) = some 0x10)
    ∧ ∀ k ∈ lanesOf wMem.cur.mask, globalFail 8 (wMem.gAddr 4 2 0 k) = none ∧ wMem.Translates .load 8 false (wMem.gAddr 4 2 0 k) := by
  refine ⟨by simp only [State.Issuing]; decide, by simp only [State.Clear]; decide, by decide, by decide, fun k hk => ?_⟩
  have h0 : k = 0 := (by decide : ∀ k ∈ lanesOf wMem.cur.mask, k = 0) k hk
  subst h0
  exact ⟨by decide, translates_of _ _ _ _ _ (by decide) (by decide)⟩

/-- A page of another die's home, which no load without DEVICE admits, and no translation table at all. -/
def wDevice : State :=
  let page : Tlb := ⟨0, wMem.sliceGen 0 0, 0x2000, 4096, wMem.nodeId 0 * 2 ^ 44 + 0x2000, kDevice, true, true, false, true, noLeaf⟩
  wMem.modCore 0 fun k => { k with tlb := page :: k.tlb }

/-- LDF of three lanes: the first loads, the second lies on a DEVICE page, which LDF does not admit, and the third is misaligned. -/
def wMixed : State := setV (setV (wDevice.modCur fun c => { c with mask := 7 }) 1 1 0x2000) 1 2 0x1001

theorem witness_AccessResult_ldf_mixed : wMixed.Issuing ∧ wMixed.MayTrap ∧ wMixed.Clear wMixed.cur.mask [rdU 4, rdV 1, wrV 2, rdUlo 6, wrU 6] ∧ wMixed.grp.lcnt < 127
    ∧ lanesOf wMixed.cur.mask = [0, 1, 2] ∧ (globalFail 8 (wMixed.gAddr 4 1 0 0) = none ∧ wMixed.Translates .load 8 false (wMixed.gAddr 4 1 0 0))
    ∧ (globalFail 8 (wMixed.gAddr 4 1 0 1) = none ∧ wMixed.Untranslated .load 8 false (wMixed.gAddr 4 1 0 1))
    ∧ globalFail 8 (wMixed.gAddr 4 1 0 2) = some 0x13 ∧ (6 : Mask).getLsbD 0 = false ∧ (6 : Mask).getLsbD 1 = true ∧ (6 : Mask).getLsbD 2 = true := by
  refine ⟨by simp only [State.Issuing]; decide, by simp only [State.MayTrap]; decide, by simp only [State.Clear]; decide, by decide, by decide,
    ⟨by decide, translates_of _ _ _ _ _ (by decide) (by decide)⟩, ⟨by decide, .inr (.inl ⟨by decide, wMixed.hit 0x2000, ?_⟩)⟩, by decide, by decide, by decide,
    by decide⟩
  exact ⟨by decide, .inr (by decide), by decide, .inl (by decide)⟩

theorem fails_of (w : Walk) (h : (match w with | .fail .. => true | _ => false) = true) : ∃ r sh, w = .fail r sh := by
  match w, h with
  | .fail r sh, _ => exact ⟨r, sh, rfl⟩

/-- Translation off; and an ASID whose table has no leaf for the address. -/
theorem witness_AccessResult_untranslated : (wMem.setReg 0 0x000 0).Untranslated .load 8 false 0x1000
    ∧ wMem.Untranslated .load 8 false 0x0000700000000000 := by
  refine ⟨.inl (by decide), .inr (.inr ⟨by decide, by decide, by decide, by decide, by decide, ?_⟩)⟩
  exact fails_of _ (by decide)

/-- Every clause of the completions: the last bytes of the scratchpad and of the cast window, a page, clean words, an index below its limit. -/
def wEnd (a : Nat) : State := setU (setV wMem 1 0 (BitVec.ofNat 64 a)) 6 (BitVec.ofNat 64 (a + 1))

theorem witness_AccessResult_completes :
    [wEnd 0x1FFF8, wEnd 0x1FFF0, wEnd 0x1FFFC].all (fun s => s.grp.lcnt < 127 && s.cur.mask == 1) = true
    ∧ (wEnd 0x1FFF8).Clear 1 [rdVlo 1, wrV 2] ∧ (wEnd 0x1FFF8).Clear 1 [rdVlo 1, rdV 2] ∧ (wEnd 0x1FFF8).scratchFail 8 0x1FFF8 = none
    ∧ (wEnd 0x1FFF0).scratchFail 16 ((wEnd 0x1FFF0).sAddr 4 1 1 0 0) = none ∧ (wEnd 0x1FFF0).windowFail 16 ((wEnd 0x1FFF0).sAddr 4 1 1 0 0) = none
    ∧ (wEnd 0x1FFF0).Clear 1 ([rdUlo 4, rdVlo 1] ++ [wrV 2] ++ [wrV (2 + 1)]) ∧ (wEnd 0x1FFF0).Clear 1 ([rdUlo 4, rdVlo 1] ++ [rdV 2] ++ [rdV (2 + 1)])
    ∧ (wEnd 0x1FFFC).scratchFail 4 ((wEnd 0x1FFFC).sAddr 4 1 1 0 0) = none ∧ (wEnd 0x1FFFC).ScratchClean .scratch 4 ((wEnd 0x1FFFC).grp.cx.blk, 0x1FFFC)
    ∧ (wEnd 0x1FFFC).Clear 1 (([rdUlo 5, rdVlo 1] ++ [rdUlo (5 + 1)]) ++ [rdVlo 3, wrV 2]) ∧ (wEnd 0x1FFFC).grp.ureg 6 = 0x1FFFD
    ∧ (wEnd 0x1FFFC).windowFail 4 ((wEnd 0x1FFFC).sAddr 4 1 1 0 0) = none
    ∧ (wEnd 0x1FFFC).ScratchClean .window 4 ((wEnd 0x1FFFC).windowPlace 0x1FFFC)
    ∧ wMem.Clear 1 (rdUlo 5 :: ([6] : List UReg).map rdU ++ [wrU 7]) ∧ wMem.scratchFail 8 0x1000 = none ∧ wMem.ScratchClean .scratch 8 (wMem.grp.cx.blk, 0x1000)
    ∧ wMem.windowFail 8 0x1000 = none ∧ wMem.ScratchClean .window 8 (wMem.windowPlace 0x1000) := by
  simp only [State.Clear, State.ScratchClean]; decide

theorem witness_AccessResult_completes_global : wMem.Clear 1 [rdU 4, rdV 1, wrV 2] ∧ wMem.Clear 1 [rdU 5, wrU 6] ∧ wMem.Clear 1 [rdU 5, rdUw 64 6, wrU 7]
    ∧ globalFail 8 (wMem.gAddr 4 1 0 0) = none ∧ wMem.Translates .load 8 true (wMem.gAddr 4 1 0 0) ∧ wMem.Translates .store 8 false (wMem.grp.ureg 5)
    ∧ wMem.Translates .atomic 8 false (wMem.grp.ureg 5) ∧ wMem.MemoryClean 8 .die (wMem.grp.ureg 5) ∧ wMem.MemoryClean 8 .grp (wMem.grp.ureg 5) := by
  refine ⟨by simp only [State.Clear]; decide, by simp only [State.Clear]; decide, by simp only [State.Clear]; decide, by decide,
    translates_of _ _ _ _ _ (by decide) (by decide), translates_of _ _ _ _ _ (by decide) (by decide), translates_of _ _ _ _ _ (by decide) (by decide),
    by simp only [State.MemoryClean]; decide, by simp only [State.MemoryClean]; decide⟩

/-- Lanes 0 and 1 of w0: the first address is good, the second lies one byte past a multiple of 8; with it past the scratchpad. -/
def wBad : State := setV (w0.modCur fun c => { c with mask := 3 }) 1 1 1

theorem witness_AccessTrap : ∃ f, laneAccOf (.stsShort ⟨2, 1, 0⟩) wBad = some f ∧ wBad.Issuing ∧ wBad.MayTrap ∧ wBad.Clear wBad.cur.mask f.uses ∧ f.Room wBad
    ∧ (∀ k ∈ f.lanes wBad, f.fail k = none → f.ok k) ∧ (∃ k ∈ f.lanes wBad, f.fail k = some 0x13)
    ∧ (∀ k ∈ f.lanes wBad, ∀ e, f.fail k = some e → 0x13 ≤ e) := by
  refine ⟨_, rfl, by simp only [State.Issuing]; decide, by simp only [State.MayTrap]; decide, by simp only [State.Clear]; decide, .inl rfl,
    fun _ _ _ => .inr (.inl rfl), by decide, ?_⟩
  intro k hk e he
  exact (by decide : ∀ k ∈ lanesOf wBad.cur.mask, (match wBad.scratchFail 8 (((wBad.grp.vreg 1 k).toNat + 0) % 2 ^ 32) with
    | some c => decide (0x13 ≤ c) | none => true) = true) k hk |> fun h => by
      have : wBad.scratchFail 8 (((wBad.grp.vreg 1 k).toNat + 0) % 2 ^ 32) = some e := by
        revert he
        show (match wBad.scratchFail 8 (((wBad.grp.vreg 1 k).toNat + 0) % 2 ^ 32) with | some c => some c | none => _) = some e → _
        split <;> simp_all [mkAcc]
      rw [this] at h
      exact of_decide_eq_true h

/-- Every lane fails. -/
theorem witness_AccessTrap_none : ∃ f, laneAccOf (.stsShort ⟨2, 1, 0⟩) (wBad.modCur fun c => { c with mask := 2 }) = some f
    ∧ ((f.lanes (wBad.modCur fun c => { c with mask := 2 })).filter fun k => (f.fail k).isNone) = []
    ∧ f.lanes (wBad.modCur fun c => { c with mask := 2 }) = [1] := ⟨_, rfl, by decide, by decide⟩

/-- The parts of a load, a store and an atomic of the scratchpad, and of a store of die scope, that no earlier access holds back. -/
def wLds : State := after (.lds ⟨2, 1, 5, 0, .w32, .none, false, false⟩) wMem
def wSts : State := after (.sts ⟨2, 1, 5, 0, .w32, .none, false, false⟩) wMem
def wAtoms : State := after (.atoms ⟨2, 1, 3, 5, 0, .inc, false, .none, false, false⟩) wMem
def wSt : State := after (.st ⟨2, 1, 4, 0, .w32, .none, .die, false⟩) wMem

/-- The access that a state has recorded last, and its first part. -/
def lastAcc (s : State) : Acc := (s.grp.accs.find? (s.uid - 1)).getD default
def lastPart (s : State) : Piece := (lastAcc s).pieces.headD default

theorem witness_AccessTrap_parts :
    [wLds, wSts, wAtoms, wSt].all (fun s => (s.group s.cur.gid).accs.find? (s.uid - 1) == some (lastAcc s) && (lastAcc s).pieces[0]? == some (lastPart s)
      && s.pieceReady (s.group s.cur.gid) (s.uid - 1) 0 && (lastAcc s).order == .none && (lastPart s).addr % (lastAcc s).size == 0
      && (lastAcc s).size == 4) = true
    ∧ [wLds, wSts, wAtoms].all (fun s => (lastAcc s).space == .scratch && (s.blocks.find? (lastPart s).blk).isSome) = true
    ∧ (lastAcc wLds).kind = .load ∧ (lastAcc wLds).dst ≠ .none ∧ (lastAcc wSts).kind = .store ∧ (lastAcc wAtoms).dst ≠ .none
    ∧ together (wAtoms.group wAtoms.cur.gid).cx.blk (lastAcc wAtoms) 0 = [0] ∧ (wAtoms.block (lastPart wAtoms).blk).poisoned (lastPart wAtoms).addr (lastAcc wAtoms).size = false
    ∧ (lastAcc wSt).space = .mem ∧ (lastAcc wSt).kind = .store ∧ (lastAcc wSt).scope = .die := by decide

/-! ### Witnesses: waits, barriers, mailboxes, the matrix engine -/

/-- Loads outstanding past a count; a closed batch; matrix operations outstanding; a packet on its way; and the recorded errors. -/
def wWaits : State :=
  let s := setU w0 4 5
  let p := s.groupPacket 0x20 0 0 0 0 []
  { (s.modGrp fun g => { g with lcnt := 3, mcnt := 2, closed := [5] }) with packets := [(99, p)] }
def wErrors : State :=
  w0.modGrp fun g => { g with lerr := some ⟨0, 0, 0x15, 7⟩, merr := some (0x0D, 1), rerr := some (0x19, 3, 8) }

theorem witness_WaitResult : w0.Issuing ∧ w0.grp.lcnt ≤ 0 ∧ wWaits.Issuing ∧ 2 < wWaits.grp.lcnt ∧ wWaits.grp.lcnt ≤ 3
    ∧ w0.Clear w0.cur.mask [rdUlo 4] ∧ w0.grp.lerr = none ∧ (∀ k ∈ w0.grp.closed, 2 ^ 31 ≤ (0 + 2 ^ 32 - k) % 2 ^ 32)
    ∧ wWaits.Clear wWaits.cur.mask [rdUlo 4] ∧ wWaits.grp.lerr = none
    ∧ ¬(∀ k ∈ wWaits.grp.closed, 2 ^ 31 ≤ ((wWaits.grp.ureg 4).toNat % 2 ^ 32 + 2 ^ 32 - k) % 2 ^ 32)
    ∧ (∀ k ∈ wWaits.grp.closed, 2 ^ 31 ≤ (4 + 2 ^ 32 - k) % 2 ^ 32) ∧ 1 < wWaits.grp.mcnt ∧ wWaits.grp.mcnt ≤ 2 ∧ wWaits.grp.merr = none
    ∧ wWaits.packetsOut wWaits.cur.gid = true ∧ w0.packetsOut w0.cur.gid = false ∧ w0.grp.rerr = none
    ∧ wErrors.Issuing ∧ wErrors.MayTrap ∧ wErrors.Clear wErrors.cur.mask [rdUlo 4] ∧ wErrors.grp.lerr = some ⟨0, 0, 0x15, 7⟩ ∧ wErrors.grp.mcnt ≤ 0
    ∧ wErrors.grp.merr = some (0x0D, 1) ∧ wErrors.packetsOut wErrors.cur.gid = false ∧ wErrors.grp.rerr = some (0x19, 3, 8) := by
  simp only [State.Issuing, State.Clear, State.MayTrap]; decide

/-- Another split of the group still runs; a barrier whose phase has ended; one at which the group has arrived, and one at which it has not; a phase
word. -/
def wTwo : State := w0.modGrp fun g => { g with splits := [(0, { g.split 0 with owned := 1 }), (1, { g.split 0 with off := 8, owned := 2 })] }
def wWoke (w : Wait) : State := w0.modSpl fun p => { p with woke := some w }
def wArrived (m : Mask) : State := { w0 with blocks := w0.blocks.modify 2 fun b => { b with bars := [(1, ⟨4, [(3, (m, 9))]⟩)] } }

theorem witness_BarrierResult : w0.Issuing ∧ w0.spl.woke = none ∧ w0.heldBack w0.cur.gid w0.cur.ent = false ∧ wTwo.Issuing ∧ wTwo.spl.woke = none
    ∧ wTwo.heldBack wTwo.cur.gid wTwo.cur.ent = true ∧ (wWoke (.bar 1 0)).Issuing ∧ (wWoke (.bar 1 0)).spl.woke = some (.bar 1 0)
    ∧ (wWoke (.cbar 1 0)).Issuing ∧ (wWoke (.cbar 1 0)).spl.woke = some (.cbar 1 0)
    ∧ ((wArrived 0xFFFFFFFF).blocks.find? 2).isSome = true ∧ ((wArrived 0xFFFFFFFF).block 2).bars = [(1, ⟨4, [(3, (0xFFFFFFFF, 9))]⟩)]
    ∧ ((wArrived 1).block 2).bars = [(1, ⟨4, [(3, (1, 9))]⟩)] ∧ ((wArrived 1).block 2).groups = [3] ∧ ((wArrived 1).group 3).ended = false
    ∧ ~~~((wArrived 0xFFFFFFFF).group 3).exited &&& ~~~(0xFFFFFFFF : Mask) = 0 ∧ ((wArrived 0xFFFFFFFF).group 3).performedBefore 9 false = true
    ∧ ~~~((wArrived 1).group 3).exited &&& ~~~(1 : Mask) ≠ 0
    ∧ w0.Clear w0.cur.mask [rdUlo 4, rdUlo 5] ∧ w0.grp.lerr = none ∧ w0.scratchFail 8 0 = none ∧ w0.windowFail 8 0 = none
    ∧ (w0.block w0.grp.cx.blk).poisoned 0 8 = false ∧ (w0.block (w0.windowPlace 0).1).poisoned 0 8 = false
    ∧ ((w0.block w0.grp.cx.blk).readN 0 8).testBit 32 = (w0.grp.ureg 5).getLsbD 0
    ∧ ((w0.block w0.grp.cx.blk).readN 0 8).testBit 32 ≠ ((setU w0 5 1).grp.ureg 5).getLsbD 0 := by
  simp only [State.Issuing, State.Clear]; decide

/-- A phase word of another rank of the cast; and a poisoned one. -/
def wRanks : State := setU { w0 with casts := w0.casts.modify w0.grp.cx.cast fun x => { x with size := 2, blocks := [2, 77] } } 4 0x100000
def wSpoilt : State := { w0 with blocks := w0.blocks.modify 2 fun b => b.poison 8 8 }

theorem witness_BarrierResult_poison : (wSpoilt.blocks.find? 2).isSome = true ∧ (wSpoilt.block 2).poisoned 8 8 = true ∧ (wSpoilt.block 2).poisoned 0 8 = false
    ∧ (wRanks.windowPlace 0x100000).1 = 77 ∧ wRanks.grp.cx.blk = 2 ∧ wRanks.windowFail 8 0x100000 = none
    ∧ wRanks.Issuing ∧ wRanks.Clear wRanks.cur.mask [rdUlo 4, rdUlo 5] ∧ (wRanks.block 77).poisoned 0 8 = false
    ∧ wRanks.settled .window 8 (mkPiece 0 0 77 false false 0 0) = true := by
  simp only [State.Issuing, State.Clear]; decide

/-- The phase barrier of the example of R219: the second arrival completes the phase. -/
theorem test_phase_word :
    let s : State := { w0 with blocks := w0.blocks.modify 2 fun b => b.writeBytes 0 (bytesOf 8 2) }
    let at_ (s : State) := (s.block 2).readN 0 8
    let a := s.updatePhase 2 0 1 8192
    let b := a.updatePhase 2 0 0 (-4096)
    let c := b.updatePhase 2 0 1 0
    let d := c.updatePhase 2 0 0 (-4096)
    let e := d.updatePhase 2 0 1 8192
    [at_ a, at_ b, at_ c, at_ d, at_ e]
      = [0x0000400000010002, 0x0000200000010002, 0x0000200000020002, 0x0000000100000002, 0x0000400100010002] := by decide

/-- An open batch with commands; and an empty one behind a closed batch. -/
def wOpen : State := w0.modGrp fun g => { g with batches := [(0, 2)] }
def wBehind : State := w0.modGrp fun g => { g with bseq := 1, closed := [0] }

theorem witness_BatchesFencesSleep : wOpen.Issuing ∧ wOpen.Clear wOpen.cur.mask [wrU 8] ∧ wOpen.grp.batches.getD 0 0 ≠ 0
    ∧ w0.Issuing ∧ w0.Clear w0.cur.mask [wrU 8] ∧ w0.grp.batches.getD 0 0 = 0 ∧ w0.grp.closed = []
    ∧ wBehind.Issuing ∧ wBehind.Clear wBehind.cur.mask [wrU 8] ∧ wBehind.grp.batches.getD 0 1 = 0 ∧ wBehind.grp.closed ≠ [] ∧ 1 ∉ wBehind.grp.closed
    ∧ w0.spl.woke = none ∧ w0.grp.performedBefore w0.uid true = true ∧ w0.grp.performedBefore w0.uid false = true
    ∧ wSts.Issuing ∧ wSts.spl.woke = none ∧ wSts.grp.performedBefore wSts.uid true = false ∧ wSts.grp.performedBefore wSts.uid false = false
    ∧ (wWoke (.fence 0 .die true)).Issuing ∧ (wWoke (.fence 0 .die true)).spl.woke = some (.fence 0 .die true)
    ∧ w0.Clear w0.cur.mask [rdUlo 4] ∧ (wWoke (.sleep 0 false 0)).Issuing ∧ (wWoke (.sleep 0 false 0)).Clear 0xFF [rdUlo 4]
    ∧ (wWoke (.sleep 0 false 0)).spl.woke = some (.sleep 0 false 0) := by
  simp only [State.Issuing, State.Clear]; decide

/-- An answer for the split; and a request of a waiting split at a mailbox of n entries. -/
def wAnswer : State := w0.modSpl fun p => { p with answer := some (true, 7, 0) }
def wMail (op : MbOp) (n : Nat) : State :=
  let s := w0.modGrp fun g => { g with splits := [(0, { g.split 0 with st := .waiting (.answer 9) })] }
  let s := s.modCore 0 fun k => { k with mbox := [(5, ⟨0, (List.range n).map fun i => (BitVec.ofNat 64 i, false)⟩)] }
  { s with mbreqs := [(9, ⟨0, 5, op, 3, 0, 0⟩)] }

theorem witness_Mailboxes : w0.Issuing ∧ w0.spl.answer = none ∧ w0.Clear w0.cur.mask ([rdUlo 4, rdU 5] ++ [wrSc]) ∧ w0.Clear w0.cur.mask ([rdU 5] ++ [wrSc])
    ∧ w0.Clear w0.cur.mask ([wrSc] ++ [wrU 6]) ∧ w0.Clear w0.cur.mask ([rdUlo 4] ++ [wrSc] ++ [wrU 6])
    ∧ wAnswer.Issuing ∧ wAnswer.answered true 7 ∧ wAnswer.Clear wAnswer.cur.mask (wrSc :: [wrU 6]) ∧ wAnswer.Clear wAnswer.cur.mask (wrSc :: []) := by
  simp only [State.Issuing, State.Clear, State.answered]; decide

/-- Full and almost full for SEND, empty and not empty for the operations that take. -/
theorem witness_Mailboxes_operation : [wMail (.send 1) 63, wMail (.push 1) 64, wMail .recv 0, wMail .steal 2, wMail .pop 1, wMail .pop 0].all (fun s =>
      (s.nextMail 0 5).isSome && !(s.core 0).retired && !(s.cluster (clusterOfCore 0)).retired && (s.groups.find? 3).isSome
      && (s.group 3).splits.length == 1 && ((s.group 3).split 0).st == .waiting (.answer 9)) = true
    ∧ ((wMail (.send 1) 63).core 0 |>.box 5).items.length = 63 ∧ ((wMail (.push 1) 64).core 0 |>.box 5).items.length = 64
    ∧ ((wMail .recv 0).core 0 |>.box 5).items = [] ∧ ((wMail .steal 2).core 0 |>.box 5).items = [(0, false), (1, false)]
    ∧ ((wMail .pop 1).core 0 |>.box 5).items = [] ++ [(0, false)] := by decide

/-- The flags of tiles 0 and 1 set, with one tag taken for MMA.spec; the engine full; and operations of each kind at its head. -/
def wTiles : State := (setU w0 11 4).modGrp fun g => { g with tf := 3 }
def wTagged : State := wTiles.modGrp fun g => { g with tags := [(0, [0])] }
def wEngineFull : State := wTiles.modGrp fun g => { g with mcnt := 64 }
def wHead (op : MOp) (te : FpFlags) : State :=
  wTiles.modCore 0 fun k => { k with engine := [(9, ⟨3, op, 1, ⟨.rne, .off, false, false⟩, te, [], false⟩)], running := some 0 }
def mma0 (spec : Bool) : Mma := ⟨0, 8, 12, some 0, false, spec, false, .f16⟩

theorem witness_MatrixEngine : wTiles.Issuing ∧ (fragUses 8 ++ fragUses 12 ++ [useM 0]).any wTiles.grp.unallocated = false
    ∧ wTiles.grp.tf.getLsbD 2 = false ∧ wTiles.grp.tf.getLsbD 0 = true ∧ wTiles.spl.exec ≠ 0
    ∧ wTiles.Clear wTiles.cur.mask (fragUses 8 ++ fragUses 12 ++ [useM 0]) ∧ wTiles.EngineRoom
    ∧ wTagged.Issuing ∧ wTagged.grp.tagged 0 = true ∧ wTagged.Clear wTagged.cur.mask (fragUses 8 ++ fragUses 12 ++ [useM 0]) ∧ wTagged.EngineRoom
    ∧ wEngineFull.Issuing ∧ wEngineFull.Clear wEngineFull.cur.mask (fragUses 8 ++ fragUses 12 ++ [useM 0]) ∧ ¬wEngineFull.EngineRoom
    ∧ wTiles.Clear wTiles.cur.mask (fragUses 8 ++ [rdU 20, useM 0]) ∧ wbits (wTiles.grp.ureg 20) 40 32 ≤ 256 ∧ wbits (wTiles.grp.ureg 20) 31 0 % 8 = 0
    ∧ wbits (wTiles.grp.ureg 20) 31 0 + 8 * wbits (wTiles.grp.ureg 20) 40 32 ≤ wTiles.blk.scrSize
    ∧ wTiles.Clear wTiles.cur.mask [rdUlo 11, wrU 10] ∧ wTiles.grp.tags.find? 0 = none ∧ wTagged.Clear wTagged.cur.mask [rdUlo 11, wrU 10]
    ∧ wTagged.grp.tags.find? 1 = none ∧ (∀ j, j < 1 → wTagged.grp.tags.find? j ≠ none)
    ∧ (List.range 16).filter (fun t => (wTagged.grp.ureg 11).getLsbD t) = [2] ∧ 2 < wTagged.grp.cx.nt ∧ wTagged.grp.tagged 2 = false
    ∧ 1 + (wTagged.grp.tags.map fun p => p.2.length).sum ≤ wTagged.grp.cx.nh
    ∧ wTagged.Clear wTagged.cur.mask [rdUlo 12] ∧ wTagged.grp.tags.find? (wbits (wTagged.grp.ureg 12) 0 0) = some [0] := by
  simp only [State.Issuing, State.Clear, State.EngineRoom]; decide

theorem witness_MatrixEngine_completion : [wHead (.mma (mma0 false)) 0, wHead (.spec 0 [0]) 0, wHead (.commit [0]) 0].all (fun s =>
      (s.core 0).engine.length == 1 && (s.core 0).running == some 0 && decide (0 ≤ s.clk) && (s.groups.find? 3).isSome) = true
    ∧ (∀ x : FpFlags, x &&& 0 = 0) ∧ ((wHead (.drop [0]) 0).modCore 0 fun k => { k with running := none }).cores.any (fun k => k.2.running.isNone) = true := by
  decide

/-- With SBCHK = 0, the check of pending registers is left out (MMA, and OADD of a list of four entries at the end of the scratchpad). -/
def wUnchecked : State := (setU wTiles 20 (4 * 2 ^ 32 + (0x20000 - 32))).modGrp fun g => { g with sbchk := false }

theorem witness_MatrixEngine_unchecked : wUnchecked.Issuing ∧ wUnchecked.grp.sbchk = false ∧ wUnchecked.EngineRoom
    ∧ [fragUses 8 ++ fragUses 12 ++ [useM 0], fragUses 8 ++ [rdU 20, useM 0]].all (fun x => !x.any wUnchecked.grp.unallocated
      && (wUnchecked.operandHazards x).isEmpty && (wUnchecked.firstPoison wUnchecked.cur.mask x).isNone) = true
    ∧ wbits (wUnchecked.readU 20) 40 32 = 4 ∧ wbits (wUnchecked.readU 20) 31 0 % 8 = 0
    ∧ wbits (wUnchecked.readU 20) 31 0 + 8 * 4 = wUnchecked.blk.scrSize := by
  simp only [State.Issuing, State.EngineRoom]; decide

/-- OADD of two entries, the second of them malformed, and its tile and shadow. -/
def oadd0 (spec : Bool) : Oadd := ⟨0, 8, 20, none, spec, .f16⟩
def wOadd (spec : Bool) (te : FpFlags) : State :=
  let s := setV (wHead (.oadd (oadd0 spec) 0 2) te) 8 0 0x7C00
  { s with blocks := s.blocks.modify 2 fun b => b.writeBytes 0 (bytesOf 8 0 ++ bytesOf 8 (2 ^ 10)) }

theorem witness_MatrixEngine_oadd : [wOadd false 0, wOadd true 7].all (fun s => (s.core 0).engine.length == 1 && (s.core 0).running == some 0
      && (s.groups.find? 3).isSome && ((s.core 0).engine.headD (0, default)).2.overlay == [] && !((s.core 0).engine.headD (0, default)).2.tainted
      && bits ((s.block (s.group 3).cx.blk).readN 0 8) 31 10 == 0 && bits ((s.block (s.group 3).cx.blk).readN 8 8) 31 10 == 1) = true
    ∧ (let s := wOadd true 7
       let e : MEntry := (((s.core 0).engine.headD (0, default)).2)
       (Fv.fma e.cx.rm (s.oaddA e (oadd0 true) 0 0) (Fmt.f32.read e.cx.daz 0) (Fmt.f32.read e.cx.daz 0)).2 &&& e.te ≠ 0) := by decide

/-- An operation that overflows with its trap enabled. -/
theorem witness_MatrixEngine_trap :
    let s := setV (setV (wHead (.mma (mma0 false)) 7) 8 0 0x7C00) 12 0 0
    let e : MEntry := (((s.core 0).engine.headD (0, default)).2)
    (s.mmaElem e (mma0 false) 0 0).2 &&& e.te ≠ 0 := by decide

theorem witness_TileRows : w0.Issuing ∧ w0.Clear w0.cur.mask [rdUlo 4, rdUlo 5, wrU 6] ∧ w0.Clear w0.cur.mask [useM 15] ∧ w0.TileFree 15 true
    ∧ w0.Clear w0.cur.mask [useM 15, wrV 3] ∧ w0.TileFree 15 false ∧ w0.Clear w0.cur.mask [rdUlo 5, rdVlo 1, useM 15]
    ∧ (setU w0 5 (0x20000 - 128)).RowOk 5 1 128 0 ∧ w0.cur.mask ≠ 0 ∧ w0.grp.lcnt < 127 ∧ w0.RowOk 5 1 (32 * 2) 0
    ∧ Elem.w .bf16 / 8 = 2 ∧ (activeFlags w0.cur.mask fun i => (List.range 32).foldl (fun f j => f ||| (stsElem ⟨w0.grp.rmode, .off, false, false⟩ .bf16 false
      (w0.grp.elem 15 i j).toNat).2) 0) &&& w0.grp.enabled = 0 := by
  simp only [State.Issuing, State.Clear, State.TileFree, State.RowOk]; decide

theorem witness_TileRows_clean : w0.TileClean 15 := fun _ _ => rfl

/-! ### Witnesses: remote operations, packets and lines -/

/-- As wMem, with a SHARED page at 0x3000, a MOULD page at 0x4000 and a FABRIC page at 0x5000 of another node; registers that name them; the AST
entry of address space 0 valid. -/
def wRem : State :=
  let f := wMem.nodeId 0 * 2 ^ 44
  let page (a : Nat) (k : BitVec 3) (n : Nat) : Tlb := ⟨0, 0, a, 4096, f + n + a, k, true, true, false, true, noLeaf⟩
  let s := wMem.modCore 0 fun k => { k with tlb := page 0x3000 kShared 0 :: page 0x4000 kMould 0 :: page 0x5000 kFabric (2 ^ 44) :: k.tlb }
  let s := [(20, 0x3040), (22, 0x3000), (24, 0x4000), (26, 0x5000), (28, 0x3100)].foldl (fun s p => setU s p.1 (BitVec.ofNat 64 p.2)) s
  { (s.setReg 0 0x000 0x100001) with mem := s.mem.writeList 0x100000 [1] }

theorem wRem_issuing : wRem.Issuing := by simp only [State.Issuing]; decide

theorem wRem_bind : wRem.BindOk 20 sharedOrFabric :=
  ⟨by decide, by decide, by decide, hits_of _ _ _ _ (by decide) (by decide) (by decide)⟩

/-- RADD of a SHARED word, bound and not, and a remote write once to a MOULD and over the fabric. -/
theorem witness_RemoteSends : (remoteOf (.radd ⟨6, 2, 22, 1, .i64, some 20⟩)).isSome = true ∧ (remoteOf (.rwo ⟨6, 2, 24, 0, .i64, none⟩)).isSome = true
    ∧ wRem.Clear wRem.cur.mask ([rdU 22, rdV 2, rdV 6] ++ [rdU 20, rdU (20 + 1)]) ∧ wRem.Clear wRem.cur.mask ([rdU 24, rdV 2, rdV 6] ++ [])
    ∧ (∀ k ∈ lanesOf wRem.cur.mask, (wRem.gAddr 22 2 (1 * 8) k).toNat % 8 = 0 ∧ wRem.Hits .store sharedOrFabric (wRem.gAddr 22 2 (1 * 8) k)
      ∧ wRem.BindOk 20 sharedOrFabric ∧ wRem.LineWith (wRem.hitAddr (wRem.bindLine 20)) (wRem.hitAddr (wRem.gAddr 22 2 (1 * 8) k)))
    ∧ ∀ k ∈ lanesOf wRem.cur.mask, (wRem.gAddr 24 2 0 k).toNat % 8 = 0 ∧ wRem.Hits .store (fun t => t.kind = kMould || t.kind = kFabric) (wRem.gAddr 24 2 0 k) := by
  refine ⟨by decide, by decide, by simp only [State.Clear]; decide, by simp only [State.Clear]; decide, fun k hk => ?_, fun k hk => ?_⟩
  all_goals
    have h0 : k = 0 := (by decide : ∀ k ∈ lanesOf wRem.cur.mask, k = 0) k hk
    subst h0
  · exact ⟨by decide, hits_of _ _ _ _ (by decide) (by decide) (by decide), wRem_bind, by simp only [State.LineWith]; decide⟩
  · exact ⟨by decide, hits_of _ _ _ _ (by decide) (by decide) (by decide)⟩

theorem witness_ArriveGetAndUniformSends : wRem.Clear wRem.cur.mask [rdU 20, rdU (20 + 1)] ∧ wRem.BindOk 20 sharedOrFabric
    ∧ wRem.Clear wRem.cur.mask ([rdU 22, rdV 2, rdV 6] ++ [rdU 20, rdU (20 + 1)]) ∧ wRem.BindOk 20 (fun t => t.kind = kShared)
    ∧ nodeOf (wRem.hitAddr (wRem.bindLine 20)) = wRem.nodeId wRem.curDie ∧ dieOfPa (paOf (wRem.hitAddr (wRem.bindLine 20))) = wRem.curDie
    ∧ (let va := wRem.gAddr 22 2 0 0
       va.toNat % 8 = 0 ∧ va.toNat % 64 + 64 ≤ 64
       ∧ wRem.Hits .load (fun t => t.kind = kShared || t.kind = kMould || t.kind = kImmutable || t.kind = kFabric) va)
    ∧ (setV wRem 6 0 0x4FF8 |>.Hits .store (fun t => t.kind = kMould && dieOfPa (t.frame % 2 ^ 44) == 0) 0x4FF8) := by
  refine ⟨by simp only [State.Clear]; decide, wRem_bind, by simp only [State.Clear]; decide,
    ⟨by decide, by decide, by decide, hits_of _ _ _ _ (by decide) (by decide) (by decide)⟩, by decide, by decide,
    ⟨by decide, by decide, hits_of _ _ _ _ (by decide) (by decide) (by decide)⟩, hits_of _ _ _ _ (by decide) (by decide) (by decide)⟩

/-- A line and a tag array, a crucible line, the last doublewords of a page of a mould, and a word for the digest. -/
theorem witness_ArriveGetAndUniformSends_uniform : wRem.Clear wRem.cur.mask [rdU 22, rdUlo 4, rdU 28] ∧ (wRem.grp.ureg 22).toNat % 64 = 0
    ∧ (wRem.grp.ureg 28).toNat % 64 = 0 ∧ wRem.Hits .store (fun t => t.kind = kShared) (wRem.grp.ureg 22) ∧ wRem.Hits .store (fun _ => true) (wRem.grp.ureg 28)
    ∧ wRem.Clear wRem.cur.mask [rdU 22] ∧ (setU wRem 4 4096).Clear 1 [rdU 24, rdUlo 4] ∧ (wRem.grp.ureg 24).toNat % 4096 + 4096 ≤ 4096
    ∧ wRem.Hits .store (fun t => t.kind = kMould) (wRem.grp.ureg 24) ∧ wRem.Clear wRem.cur.mask (rdU 22 :: [rdU 20, rdU (20 + 1)])
    ∧ wRem.Hits .store sharedOrFabric (lowBits 56 (wRem.grp.ureg 22))
    ∧ wRem.LineWith (wRem.hitAddr (wRem.bindLine 20)) (wRem.hitAddr (lowBits 56 (wRem.grp.ureg 22))) := by
  refine ⟨by simp only [State.Clear]; decide, by decide, by decide, hits_of _ _ _ _ (by decide) (by decide) (by decide),
    hits_of _ _ _ _ (by decide) (by decide) (by decide), by simp only [State.Clear]; decide, by simp only [State.Clear]; decide, by decide,
    hits_of _ _ _ _ (by decide) (by decide) (by decide), by simp only [State.Clear]; decide, hits_of _ _ _ _ (by decide) (by decide) (by decide),
    by simp only [State.LineWith]; decide⟩

/-- CRRD and DGCHK of memory that no cache holds dirty; the word equals sb, and differs from it. -/
theorem witness_CrucibleAndLineWaits_read : wRem.Issuing ∧ wRem.cur.flow = .run ∧ wRem.MayTrap ∧ wRem.Clear wRem.cur.mask [rdU 22, rdV 2, wrV 6]
    ∧ (wRem.gAddr 22 2 0 0).toNat % 64 = 0
    ∧ (let pa := paOf (wRem.hitAddr (wRem.gAddr 22 2 0 0))
       (wRem.line (.l1 wRem.curCore) (pa / 64)).dirty = 0 ∧ (wRem.line (.cc (clusterOfCore wRem.curCore)) (pa / 64)).dirty = 0
       ∧ wRem.grp.touches pa 64 = false ∧ wRem.memReady pa = true)
    ∧ wRem.Hits .load (fun t => kindAdmits t.kind (dieOfPa (t.frame % 2 ^ 44) == wRem.curDie) .load && t.kind != kDevice) (wRem.gAddr 22 2 0 0)
    ∧ (∀ x : FpFlags, x &&& wRem.grp.enabled = 0)
    ∧ wRem.Clear wRem.cur.mask [rdU 5, rdU 4] ∧ wRem.Translates .load 8 false (lowBits 56 (wRem.grp.ureg 5)) ∧ wRem.homePois 0x1000 8 = false
    ∧ BitVec.ofNat 64 (wRem.homeN 0x1000 8) = wRem.grp.ureg 4 ∧ BitVec.ofNat 64 (wRem.homeN 0x1000 8) ≠ wRem.grp.ureg 5 := by
  refine ⟨wRem_issuing, by decide, by simp only [State.MayTrap]; decide, by simp only [State.Clear]; decide, by decide, by decide,
    hits_of _ _ _ _ (by decide) (by decide) (by decide), by decide, by simp only [State.Clear]; decide,
    translates_of _ _ _ _ _ (by decide) (by decide), by decide, by decide, by decide⟩

/-- A line here that is DONE, one that is not, and a line elsewhere. -/
def wDone : State := { wRem with mem := wRem.mem.writeList 0x3008 [16] }

theorem witness_CrucibleAndLineWaits_lines : wRem.spl.woke = none ∧ wRem.spl.answer = none ∧ wRem.grp.rerr = none
    ∧ wRem.Clear wRem.cur.mask ([rdU 22] ++ [rdUlo 4] ++ [wrU 7, wrSc]) ∧ wRem.Clear wRem.cur.mask ([rdU 26] ++ [] ++ [wrU 7, wrSc])
    ∧ wRem.Clear wRem.cur.mask [rdU 22, wrU 7, wrU (7 + 1), wrSc] ∧ (wRem.grp.ureg 22).toNat % 64 = 0
    ∧ wRem.Hits .load sharedOrFabric (wRem.grp.ureg 22) ∧ wRem.Hits .load sharedOrFabric (wRem.grp.ureg 26)
    ∧ (wRem.hit (wRem.grp.ureg 22)).kind ≠ kFabric ∧ dieOfPa (paOf (wRem.hitAddr (wRem.grp.ureg 22))) = wRem.curDie
    ∧ (wRem.hit (wRem.grp.ureg 26)).kind = kFabric ∧ bits (wDone.homeN (0x3000 + 8) 4) 4 0 ≠ 0 ∧ bits (wRem.homeN (0x3000 + 8) 4) 4 0 = 0
    ∧ wRem.spl.readyAt + (wRem.grp.ureg 4).toNat % 2 ^ 32 ≤ wRem.clk + 1 ∧ wRem.clk < wRem.spl.readyAt + (wRem.grp.ureg 5).toNat % 2 ^ 32
    ∧ ({ wRem with clk := 1 } : State).spl.readyAt + (wRem.grp.ureg 4).toNat % 2 ^ 32 ≤ 1 := by
  refine ⟨by decide, by decide, by decide, by simp only [State.Clear]; decide, by simp only [State.Clear]; decide, by simp only [State.Clear]; decide,
    by decide, hits_of _ _ _ _ (by decide) (by decide) (by decide), hits_of _ _ _ _ (by decide) (by decide) (by decide), by decide, by decide,
    by decide, by decide, by decide, by decide, by decide, by decide⟩

/-- A packet on its way to a SHARED word of this die. -/
def pkt (op kind : Nat) (target : Nat) (data : List Byte) : Packet := { wRem.groupPacket op kind 0 target target data with copies := 1, attempts := 1 }
def wPkt (p : Packet) : State := { wRem with packets := [(9, p)], uid := 10 }

theorem arriving_of (p : Packet) (ops : List Nat) (h : (p.op ∈ ops) ∧ p.copies ≠ 0 ∧ p.sdie = some 0 ∧ nodeOf p.target = (wPkt p).nodeId 0
    ∧ (wPkt p).memReady (paOf p.target) = true ∧ p.status = none) : (wPkt p).Arriving 9 p ops :=
  ⟨rfl, h.1, h.2.1, ⟨0, h.2.2.1, h.2.2.2.1⟩, h.2.2.2.2.1, h.2.2.2.2.2⟩

theorem witness_PacketArrival : (wPkt (pkt 0x20 0x10 0x3000 (bytesOf 8 5))).Arriving 9 (pkt 0x20 0x10 0x3000 (bytesOf 8 5)) [0x20]
    ∧ (wPkt (pkt 0x20 0x10 0x3000 (bytesOf 8 5))).turnedAway (pkt 0x20 0x10 0x3000 (bytesOf 8 5)) = none
    ∧ (wPkt (pkt 0x24 0x10 0x4000 (bytesOf 8 5))).Arriving 9 (pkt 0x24 0x10 0x4000 (bytesOf 8 5)) [0x24]
    ∧ (wPkt (pkt 0x24 0x10 0x4000 (bytesOf 8 5))).turnedAway (pkt 0x24 0x10 0x4000 (bytesOf 8 5)) = none
    ∧ (pkt 0x24 0x10 0x4000 (bytesOf 8 5)).once = true ∧ (pkt 0x24 0x10 0x4000 (bytesOf 8 5)).data.length = 8
    ∧ (wPkt (pkt 0x24 0x10 0x4000 (bytesOf 8 5))).mwritten.getD false (0x4000 / 8) = false
    ∧ (wPkt { pkt 0x20 0x10 0x3000 [] with gen := 1 }).Arriving 9 { pkt 0x20 0x10 0x3000 [] with gen := 1 } [0x20]
    ∧ (wPkt { pkt 0x20 0x10 0x3000 [] with gen := 1 }).turnedAway { pkt 0x20 0x10 0x3000 [] with gen := 1 } = some 2 :=
  ⟨arriving_of _ _ (by decide), by decide, arriving_of _ _ (by decide), by decide, by decide, by decide, by decide, arriving_of _ _ (by decide), by decide⟩

/-- A line of TARGET 2 with its tags at 0x3100: an empty slot, one that holds a tag, and an index at TARGET; and with another signature. -/
def wLine (sig tag : Nat) : State :=
  { wRem with mem := ((wRem.mem.writeList 0x3000 (bytesOf 8 0x200000000)).writeList 0x3014 (bytesOf 4 sig ++ bytesOf 8 0x3100)).writeList 0x3100 (bytesOf 2 tag) }

theorem witness_LineArrivals : (7 : BitVec 16) ≠ 0 ∧ 0x3000 + 64 ≤ (wLine 0 0).homeN (0x3000 + 24) 8 + 2 * 0 ∧ (5 : Nat) < 2 ^ 28
    ∧ (wLine 6 0).homeN (0x3000 + 20) 4 ≠ 0 ∧ (wLine 6 0).homeN (0x3000 + 20) 4 ≠ 5 ∧ (wLine 5 0).homeN (0x3000 + 20) 4 = 5
    ∧ (wLine 0 0).homeN (0x3000 + 4) 4 ≤ 2 ∧ 1 < (wLine 0 0).homeN (0x3000 + 4) 4 ∧ (wLine 0 0).homeN 0x3100 2 = 0 ∧ (wLine 0 8).homeN 0x3100 2 = 8
    ∧ (wLine 0 7).homeN 0x3100 2 = (7 : BitVec 16).toNat := by decide

/-- R400's cases on that line: a new tag counts, its own tag is a duplicate, another tag collides, an index at TARGET overruns. -/
theorem test_contribute :
    let go (s : State) (i : Nat) (u : BitVec 16) : State := s.contribute 0x3000 i 0 u false fun s => ⟨false, s⟩
    (go (wLine 0 0) 0 7).homeN 0x3000 4 = 1 ∧ (go (wLine 0 7) 0 7).homeN 0x300C 4 = 1 ∧ (go (wLine 0 8) 0 7).homeN 0x3008 4 = 2
      ∧ (go (wLine 0 0) 2 7).homeN 0x3008 4 = 1 ∧ (go (go (wLine 0 0) 0 7) 1 7).homeN 0x3008 4 = 16 := by decide

theorem witness_LineArrivals_packets :
    let tags := wRem.hitAddr 0x3100
    let p := { pkt 0xCC 0 0x3000 [] with aux := [2, tags, 1] }
    (wPkt p).Arriving 9 p [0xCC] ∧ (wPkt p).turnedAway p = none ∧ nodeOf tags = nodeOf p.target ∧ (wPkt p).tagRangeOk 0 (paOf tags) (2 * 2) = true
    ∧ 0x3000 + 64 ≤ paOf tags ∧ (wPkt (pkt 0xCD 0 0x3000 [])).Arriving 9 (pkt 0xCD 0 0x3000 []) [0xCD]
    ∧ (wPkt { pkt 0xCE 0 0x4000 [] with aux := [0x4000, 8] }).Arriving 9 { pkt 0xCE 0 0x4000 [] with aux := [0x4000, 8] } [0xCE]
    ∧ (wPkt { pkt 0x66 0 0x3000 [] with aux := [8, 0x4000] }).Arriving 9 { pkt 0x66 0 0x3000 [] with aux := [8, 0x4000] } [0x66]
    ∧ (∀ k, k < 8 / 8 → (wPkt { pkt 0x66 0 0x3000 [] with aux := [8, 0x4000] }).homePois (0x3000 + 8 * k) 8 = false)
    ∧ (wPkt (pkt 0x30 0 0x3000 [])).Arriving 9 (pkt 0x30 0 0x3000 []) [0x30] ∧ (wPkt (pkt 0x30 0 0x3000 [])).lineEnds 0x3000 = false
    ∧ ({ wDone with packets := [(9, pkt 0x30 0 0x3000 [])], uid := 10 } : State).lineEnds 0x3000 = true
    ∧ (wPkt (pkt 0x31 0 0x3000 [])).Arriving 9 (pkt 0x31 0 0x3000 []) [0x31] :=
  ⟨arriving_of _ _ (by decide), by decide, by decide, by decide, by decide, arriving_of _ _ (by decide), arriving_of _ _ (by decide),
    arriving_of _ _ (by decide), by decide, arriving_of _ _ (by decide), by decide, by decide, arriving_of _ _ (by decide)⟩

/-- An addition bound to the line: on an empty slot, on one with its own tag, and past TARGET. -/
def wBound (tag idx : Nat) : State :=
  let p := { pkt 0x20 0x10 0x3200 (bytesOf 8 5) with line := some (wRem.hitAddr 0x3000), idx := idx, sig := 5, tag := 7 }
  { wLine 0 tag with packets := [(9, p)], uid := 10 }

theorem witness_PacketArrival_bound : [wBound 0 0, wBound 7 0, wBound 0 2, wBound 8 0].all (fun s => match s.packets.find? 9 with
      | some p => p.op == 0x20 && p.copies != 0 && p.sdie == some 0 && nodeOf p.target == s.nodeId 0 && s.memReady (paOf p.target) && p.status.isNone
        && s.turnedAway p == none && p.line == some (wRem.hitAddr 0x3000) && p.tag != 0 && !p.once && (s.contributed p).length == 8
        && paOf p.target == 0x3200 && paOf (wRem.hitAddr 0x3000) == 0x3000 && s.homeN (0x3000 + 24) 8 == 0x3100 && s.homeN (0x3000 + 20) 4 == 0
        && s.homeN (0x3000 + 4) 4 == 2
      | none => false) = true
    ∧ (wBound 0 0).homeN 0x3100 2 = 0 ∧ (wBound 7 0).homeN 0x3100 2 = 7 ∧ (wBound 8 0).homeN 0x3100 2 = 8 := by decide

/-- A write-once piece of two granules, and one of four bytes inside a granule; on a granule that has been written, one that agrees with it and one
that does not. -/
def wOnce (data : List Byte) : State :=
  { wPkt (pkt 0x46 0 0x4000 data) with mem := wRem.mem.writeList 0x4000 (bytesOf 8 5), mwritten := [(0x800, true)] }

theorem witness_PacketArrival_once : (pkt 0x46 0 0x4000 (bytesOf 16 5)).OnceAligned ∧ (pkt 0x24 0 0x4FFC (bytesOf 4 5)).OnceAligned
    ∧ ¬(wOnce (bytesOf 8 5)).Conflicting (pkt 0x46 0 0x4000 (bytesOf 8 5)) ∧ (wOnce (bytesOf 8 6)).Conflicting (pkt 0x46 0 0x4000 (bytesOf 8 6))
    ∧ (pkt 0x46 0 0x4000 (bytesOf 8 6)).performed = false := by
  refine ⟨⟨by decide, by decide⟩, ⟨by decide, by decide⟩, fun ⟨k, h, _, h2⟩ => ?_, ⟨0, by decide, by decide, by decide⟩, by decide⟩
  have h0 : k = 0 := by
    have : (pkt 0x46 0 0x4000 (bytesOf 8 5)).data.length = 8 := by decide
    omega
  subst h0
  exact absurd h2 (by decide)

theorem reaching_of (s : State) (p : Packet) (ops : List Nat) (h : s.packets.find? 9 = some p ∧ (p.op ∈ ops) ∧ p.copies ≠ 0
    ∧ (p.sdie = none ∨ p.sdie = some 0) ∧ nodeOf p.target = s.nodeId 0 ∧ s.memReady (paOf p.target) = true ∧ p.status = none) : s.Reaching 9 p ops := by
  refine ⟨h.1, h.2.1, h.2.2.1, fun d hd => ?_, h.2.2.2.2.2.1, h.2.2.2.2.2.2⟩
  rcases h.2.2.2.1 with e | e
  · rw [e] at hd; cases hd
  · rw [e] at hd; cases hd; exact h.2.2.2.2.1

/-- Packets that a home turns away: of another node and not admitted, and of this one, of an address space that is not valid, of another generation, of a
register, with a line on another die, with a line among the registers, and with a tag array on another die; and one of another node that is admitted. -/
def pForeign : Packet := { pkt 0x20 0x10 0x3000 (bytesOf 8 5) with sdie := none, origin := some (1, 2, 3) }
def pLine (l : Nat) : Packet := { pkt 0x20 0x10 0x3200 (bytesOf 8 5) with line := some l, tag := 7 }
def wImport : State := ((wPkt pForeign).setReg 0 0x3100 0xC000000000000001).setReg 0 0x3108 0
def wFarTags : State := { wPkt (pLine 0x3000) with mem := wRem.mem.writeList 0x3018 (bytesOf 8 0x8000000000) }

theorem witness_TurnedAway : (wPkt pForeign).Reaching 9 pForeign [0x20]
    ∧ (∀ k, k < 64 → ((wPkt pForeign).reg 0 (0x3100 + 16 * k)).getLsbD 63 = false) ∧ pForeign.copies = 1
    ∧ wImport.Reaching 9 pForeign [0x20] ∧ pForeign.reads = false ∧ (wImport.packetRanges pForeign).all (fun r => decide (r.1 + r.2 ≤ 65536)) = true
    ∧ (wPkt { pkt 0x20 0x10 0x3000 [] with asid := 5 }).Reaching 9 { pkt 0x20 0x10 0x3000 [] with asid := 5 } [0x20]
    ∧ astValid (wRem.astEntry 0 5) = false ∧ astValid (wRem.astEntry 0 0) = true ∧ (1 : BitVec 16) ≠ wRem.sliceGen 0 0
    ∧ (wPkt (pkt 0x20 0x10 0x6000000000 [])).Reaching 9 (pkt 0x20 0x10 0x6000000000 []) [0x20] ∧ wRem.isMemory 0x6000000000 8 = false
    ∧ (wPkt (pLine 0x8000000000)).Reaching 9 (pLine 0x8000000000) [0x20] ∧ dieOfPa (paOf 0x8000000000) = 1
    ∧ (wPkt (pLine 0x6000000000)).Reaching 9 (pLine 0x6000000000) [0x20] ∧ wRem.isMemory (paOf 0x6000000000) 64 = false
    ∧ wFarTags.Reaching 9 (pLine 0x3000) [0x20] ∧ dieOfPa (wFarTags.homeN (0x3000 + 24) 8) = 1 ∧ wFarTags.isMemory 0x3000 64 = true := by
  refine ⟨reaching_of _ _ _ (by decide), by decide, by decide, reaching_of _ _ _ (by decide), by decide, by decide, reaching_of _ _ _ (by decide),
    by decide, by decide, by decide, reaching_of _ _ _ (by decide), by decide, reaching_of _ _ _ (by decide), by decide, reaching_of _ _ _ (by decide),
    by decide, reaching_of _ _ _ (by decide), by decide, by decide⟩

/-- A packet of the group with a response of each code, at its first attempt and at its last; and one whose line answer a split waits for. -/
def wResp (code k : Nat) : State :=
  { (wPkt { pkt 0x20 0x10 0x3000 [] with resps := [⟨code, 0⟩], attempts := k }).setReg 0 0x080 0x20001 with clk := 400 }
def wWatch : State :=
  let p := { pkt 0x31 0 0x3000 [] with resps := [⟨3, 0⟩] }
  (wPkt p).modGrp fun g => { g with splits := [(0, { g.split 0 with st := .waiting (.answer 9) })] }

theorem witness_ResponsesAtSender : [wResp 0 1, wResp 1 1, wResp 2 1, wResp 18 1].all (fun s =>
      match s.packets.find? 9 with
      | some p => p.status.isNone && p.sdie == some 0 && p.gid == some 3 && p.owner.isNone && p.stream.isNone && p.launch.isNone && p.resps.length == 1
        && (s.groups.find? 3).any (fun g => !g.ended) && decide (p.stales < 15) && decide (p.attempts < wbits (s.reg 0 0x080) 20 16)
        && decide (p.sentAt + p.mult * (wbits (s.reg 0 0x080) 15 0 * 400) ≤ s.clk) && p.op != 0x30
      | none => false) = true
    ∧ wbits ((wResp 0 2).reg 0 0x080) 20 16 = 2
    ∧ (wWatch.packets.find? 9).any (fun p => p.status.isNone && p.gid == some 3 && p.owner.isNone && p.stream.isNone && p.launch.isNone
      && p.resps == [⟨3, 0⟩]) = true
    ∧ (wWatch.groups.find? 3).isSome = true ∧ (wWatch.group 3).splits.length = 1 ∧ ((wWatch.group 3).split 0).st = .waiting (.answer 9) := by decide

/-! ### Witnesses: the ladle and the retrieval tables -/

/-- The example of LGATH (08): its record in s128 to s135. -/
def wLadle : State :=
  [(128, 0x1000000000), (129, 0x1000000100), (130, 0x1000080000), (131, 0x0303), (134, 0x0000000500000000), (135, 0x40)].foldl
    (fun s p => setU s p.1 (BitVec.ofNat 64 p.2)) wRem
def wLadleFull : State := wLadle.modCore 0 fun k => { k with ladle := (List.range 32).map fun n => (n, default) }

theorem test_lgath_record : wLadle.recordFault (.gather true) (wLadle.record 128 8) = none := by decide

theorem witness_LadleCommands : wLadle.Issuing ∧ wLadle.Clear wLadle.cur.mask ((List.range 8).map fun k => rdU (128 + BitVec.ofNat 8 k))
    ∧ wLadle.recordFault (.gather true) (wLadle.record 128 8) = none ∧ (wLadle.core wLadle.curCore).ladle.length < 32
    ∧ wLadleFull.recordFault (.gather true) (wLadleFull.record 128 8) = none ∧ 32 ≤ (wLadleFull.core wLadleFull.curCore).ladle.length
    ∧ wLadleFull.Issuing ∧ wLadleFull.Clear wLadleFull.cur.mask ((List.range 8).map fun k => rdU (128 + BitVec.ofNat 8 k))
    ∧ wLadle.recordFault (.tile false) (wLadle.record 128 8) = some 2 ∧ wLadle.MayTrap
    ∧ wLadle.Clear wLadle.cur.mask [rdU 4] ∧ wbits (wLadle.grp.ureg 4) 55 0 % 64 = 0 ∧ (setU wLadle 4 32).Clear 1 [rdU 4]
    ∧ wbits ((setU wLadle 4 32).grp.ureg 4) 55 0 % 64 ≠ 0 := by
  simp only [State.Issuing, State.Clear, State.MayTrap]; decide

/-- An LTILE load of one row of four elements of F16, issued from a PRIVATE page. -/
def wTile : State :=
  let w : List Nat := [0x1000, 0x1000000100, 0x1000040001, 0x0202, 0, 0, 0, 0]
  (List.range 8).foldl (fun s k => setU s (128 + k) (BitVec.ofNat 64 (w.getD k 0))) wRem
def tileCmd : LCmd :=
  { gid := 3, blk := 2, op := .tile false, words := wTile.record 128 8, asid := 0, seq := 0, batch := some 0, packets := [], entries := [], done := [],
    blocked := [], stales := [], book := none }

def wPiece : State := wTile.modCore 0 fun k => { k with ladle := [(9, tileCmd)] }

/-- A state whose core's ladle holds one command, made from tileCmd. -/
def wCmd (op : LOp) (words : List Nat) : LCmd := { tileCmd with op := op, words := words.map (BitVec.ofNat 64) }
def wLadleOf (m : LCmd) : State := wTile.modCore 0 fun k => { k with ladle := [(9, m)] }
/-- Records of F16: the row of tileCmd, one under a scale for each block of two, and a list of one position whose entry is 0 or out of range. -/
def recTile : List Nat := [0x1000, 0x1000000100, 0x1000040001, 0x0202, 0, 0, 0, 0]
def recScaled : List Nat := [0x1000, 0x1000000100, 0x1000200001, 0x20000204, 0x1100, 0, 0, 0]
def recList : List Nat := [0x1000, 0x1000000100, 0x1000040000, 0x0202, 0, 0, 0x0000000100000040, 0x100]
def recFew : List Nat := [0x1000, 0x1000000100, 0x1000040000, 0x0202, 0, 0, 0x0000000100000044, 0x40]
def wFewOf (op : LOp) : State := { wLadleOf (wCmd op recFew) with blocks := (wLadleOf (wCmd op recFew)).blocks.modify 2 fun b => b.writeBytes 0x44 (bytesOf 4 7) }

/-- A piece that waits, checked as a Bool. -/
theorem waits_of (s : State) (j : Nat) (m : LCmd) (h : (s.core 0).ladle.find? 9 = some m)
    (h2 : (!m.done.contains j && decide (j < m.pieceCount) && (m.blocked.find? j).isNone && (m.stales.find? j).isNone && !(s.block m.blk).stopping
      && (s.blocks.find? m.blk).isSome && (match m.op with
        | .codebook .. => true
        | .tsend => (Rec.of m.words).sendFault m.words (s.block m.blk).scrSize == none
        | op => (Rec.of m.words).fault m.words (s.block m.blk).scrSize op == none)) = true) : s.PieceWaits 0 9 j m := by
  simp only [Bool.and_eq_true, Bool.not_eq_true', decide_eq_true_eq, Option.isNone_iff_eq_none] at h2
  obtain ⟨⟨⟨⟨⟨⟨a, b⟩, c⟩, d⟩, e⟩, f⟩, g⟩ := h2
  refine ⟨h, a, b, c, d, e, f, ?_⟩
  revert g
  cases m.op <;> simp

theorem witness_LoadPieces : (wLadleOf (wCmd (.tile false) recTile)).RowSource 0 9 0 (wCmd (.tile false) recTile) false 0 0 0 (wLadleOf (wCmd (.tile false) recTile)) (wCmd (.tile false) recTile)
    ∧ (wLadleOf (wCmd (.tile false) recScaled)).RowSource 0 9 0 (wCmd (.tile false) recScaled) false 0 0 0 (wLadleOf (wCmd (.tile false) recScaled)) (wCmd (.tile false) recScaled)
    ∧ (Rec.of (recScaled.map (BitVec.ofNat 64))).scaled = true
    ∧ (∃ u m0, (wLadleOf (wCmd (.gather false) recList)).RowSource 0 9 0 (wCmd (.gather false) recList) false 0 0 0 u m0)
    ∧ (∃ pages, (wLadleOf (wCmd (.tile false) recTile)).PagesAt 0 (wCmd (.tile false) recTile) .ladleRead
        ((Rec.of (recTile.map (BitVec.ofNat 64))).ranges 0 ((Rec.of (recTile.map (BitVec.ofNat 64))).colsOf 0)) pages)
    ∧ (∀ c ∈ (Rec.of (recTile.map (BitVec.ofNat 64))).colsOf 0, ∀ d ∈ (Rec.of (recTile.map (BitVec.ofNat 64))).colsOf 0, c < d →
        (Rec.of (recTile.map (BitVec.ofNat 64))).scrAt 0 c + (Rec.of (recTile.map (BitVec.ofNat 64))).cs ≤ (Rec.of (recTile.map (BitVec.ofNat 64))).scrAt 0 d
        ∨ (Rec.of (recTile.map (BitVec.ofNat 64))).scrAt 0 d + (Rec.of (recTile.map (BitVec.ofNat 64))).cs ≤ (Rec.of (recTile.map (BitVec.ofNat 64))).scrAt 0 c) := by
  refine ⟨⟨?_, by decide, by decide, .inl ⟨by decide, by decide, rfl, rfl⟩⟩, ⟨?_, by decide, by decide, .inl ⟨by decide, by decide, rfl, rfl⟩⟩, by decide,
    ⟨_, _, ?_, by decide, by decide, .inr ⟨⟨false, by decide⟩, by decide, ?_, by decide, rfl, rfl⟩⟩, ⟨_, rfl, by decide⟩, by decide⟩
  · exact waits_of _ _ _ rfl (by decide)
  · exact waits_of _ _ _ rfl (by decide)
  · exact waits_of _ _ _ rfl (by decide)
  · simp only [State.EntryOk]; decide

/-- A row of LQ2 with the codebook of its version in place, and without it. -/
def recLq2 : List Nat := [0x1000, 0x8000000100, 0x1000400001, 0x40000009 + 256 * 2, 0x1100, 0, 0, 0]
def wLq2 (has : Bool) : State :=
  (wLadleOf (wCmd (.tile false) recLq2)).modCore 0 fun k => { k with books := if has then [(1, ⟨0, List.replicate 1024 0, false, 5⟩)] else [] }

theorem witness_LoadPieces_lq2 : [true, false].all (fun h => ((wLq2 h).core 0).bookOf (BitVec.ofNat 8 (Rec.of (recLq2.map (BitVec.ofNat 64))).cbver)
      == (if h then some 1 else none)) = true
    ∧ (wLq2 true).RowSource 0 9 0 (wCmd (.tile false) recLq2) false 0 0 0 (wLq2 true) (wCmd (.tile false) recLq2)
    ∧ (wLq2 false).RowSource 0 9 0 (wCmd (.tile false) recLq2) false 0 0 0 (wLq2 false) (wCmd (.tile false) recLq2)
    ∧ (Rec.of (recLq2.map (BitVec.ofNat 64))).sf = 0x09 ∧ (wCmd (.tile false) recLq2).book = none := by
  refine ⟨by decide, ⟨?_, by decide, by decide, .inl ⟨by decide, by decide, rfl, rfl⟩⟩, ⟨?_, by decide, by decide, .inl ⟨by decide, by decide, rfl, rfl⟩⟩,
    by decide, by decide⟩
  · exact waits_of _ _ _ rfl (by decide)
  · exact waits_of _ _ _ rfl (by decide)

/-- A store of the same row, and an LSCAT whose second position names the row of its first. -/
def recTwice : List Nat := [0x1000, 0x1000000100, 0x1000040000, 0x0202, 0, 0, 0x0000000200000040, 0x100]

theorem witness_StorePieces : (wLadleOf (wCmd (.tile true) recTile)).RowSource 0 9 0 (wCmd (.tile true) recTile) true 0 0 0 (wLadleOf (wCmd (.tile true) recTile)) (wCmd (.tile true) recTile)
    ∧ (∃ pages, (wLadleOf (wCmd (.tile true) recTile)).PagesAt 0 (wCmd (.tile true) recTile) .ladleWrite
        ((Rec.of (recTile.map (BitVec.ofNat 64))).ranges 0 ((Rec.of (recTile.map (BitVec.ofNat 64))).colsOf 0)) pages)
    ∧ ∃ u m0, (wLadleOf (wCmd (.scatter false) recTwice)).RowSource 0 9 1 (wCmd (.scatter false) recTwice) true 1 0 0 u m0
      ∧ u.listEntry (wCmd (.scatter false) recTwice) 0 = u.listEntry (wCmd (.scatter false) recTwice) 1
      ∧ (wCmd (.scatter false) recTwice).done.contains 0 = false := by
  refine ⟨⟨?_, by decide, by decide, .inl ⟨by decide, by decide, rfl, rfl⟩⟩, ⟨_, rfl, by decide⟩,
    ⟨_, _, ⟨?_, by decide, by decide, .inr ⟨⟨false, by decide⟩, by decide, ?_, by decide, rfl, rfl⟩⟩, by decide, by decide⟩⟩
  · exact waits_of _ _ _ rfl (by decide)
  · exact waits_of _ _ _ rfl (by decide)
  · simp only [State.EntryOk]; decide

theorem witness_ListPositions : (wLadleOf (wCmd (.gather true) recList)).PieceWaits 0 9 0 (wCmd (.gather true) recList)
    ∧ (wFewOf (.gather true)).PieceWaits 0 9 0 (wCmd (.gather true) recFew) ∧ (wFewOf (.scatter false)).PieceWaits 0 9 0 (wCmd (.scatter false) recFew)
    ∧ (wFewOf (.gather true)).listPoison (wCmd (.gather true) recFew) 0 = none
    ∧ (Rec.of (recFew.map (BitVec.ofNat 64))).outOfRange ((wFewOf (.gather true)).listEntry (wCmd (.gather true) recFew) 0) = true
    ∧ (({ wLadleOf (wCmd (.gather true) recList) with blocks := (wLadleOf (wCmd (.gather true) recList)).blocks.modify 2 fun b => b.poison 0x40 8 } : State).block 2).poisoned 0x40 4 = true := by
  exact ⟨waits_of _ _ _ rfl (by decide), waits_of _ _ _ rfl (by decide), waits_of _ _ _ rfl (by decide), by decide, by decide, by decide⟩

/-- An LSCAT of one row of I32 bound to the line at 0x3000, and a TSEND of one arrival to it. -/
def recBound : List Nat := [0x3040, 0x1000000100, 0x1000040000, 0x0B0B, 0, 0x3002, 0x0000000100000040, 0x52]
def recSend : List Nat := [0, 0, 0, 0, 0, 0x3002, 0x08010101, 0x50]

theorem witness_DeliveredPieces : (∃ u m0, (wLadleOf (wCmd (.scatter false) recBound)).DeliverySource 0 9 0 (wCmd (.scatter false) recBound) 0 0x3040 0x3000 0 u m0)
    ∧ (wLadleOf (wCmd .tsend recSend)).DeliverySource 0 9 0 (wCmd .tsend recSend) 0 0 0x3000 0 (wLadleOf (wCmd .tsend recSend)) (wCmd .tsend recSend)
    ∧ (∃ lpa lt, (wLadleOf (wCmd .tsend recSend)).translateWith 0 0 0x3000 .ladleWrite sharedOrFabric = (wLadleOf (wCmd .tsend recSend), .ok lpa lt))
    ∧ ∃ pa pt, (wLadleOf (wCmd .tsend recSend)).translateWith 0 0 0x3040 .ladleWrite sharedOrFabric = (wLadleOf (wCmd .tsend recSend), .ok pa pt) := by
  refine ⟨⟨_, _, ?_, .inl ⟨⟨false, by decide⟩, by decide, by decide, by decide, ?_, by decide, by decide, rfl, rfl⟩⟩,
    ⟨?_, .inr ⟨by decide, rfl, rfl, by decide, by decide, by decide, by decide⟩⟩, ⟨_, _, rfl⟩, ⟨_, _, rfl⟩⟩
  · exact waits_of _ _ _ rfl (by decide)
  · simp only [State.EntryOk]; decide
  · exact waits_of _ _ _ rfl (by decide)

/-- An LCBLD with every place free, and one behind an earlier load of its version. -/
theorem witness_CodebookPiece : (wLadleOf (wCmd (.codebook 1 0x1000) [])).PieceWaits 0 9 0 (wCmd (.codebook 1 0x1000) [])
    ∧ ((wLadleOf (wCmd (.codebook 1 0x1000) [])).core 0).books = []
    ∧ (∃ pages, (wLadleOf (wCmd (.codebook 1 0x1000) [])).PagesAt 0 (wCmd (.codebook 1 0x1000) []) .ladleRead [(0x1000, 1024)] pages)
    ∧ (wTile.modCore 0 fun k => { k with ladle := [(8, wCmd (.codebook 1 0x1000) []), (9, wCmd (.codebook 1 0x1000) [])] }).PieceWaits 0 9 0 (wCmd (.codebook 1 0x1000) []) := by
  refine ⟨?_, by decide, ⟨_, rfl, by decide⟩, ?_⟩
  · exact waits_of _ _ _ rfl (by decide)
  · exact waits_of _ _ _ rfl (by decide)

/-- A descriptor of family A with one table of 4 bits at 0x1000 and 100 rows; and the same in the state REHASHING with its cursor at the end. -/
def desc0 : List Word := [0, 0, 100, 0, 0, 0, 0, 0x1000, 0x01040010, 0, 0, 0x1000, 0x01040010, 0, 0, 0]
def desc1 : List Word := desc0.set 0 1 |>.set 2 0x0000006400000064
def slotOf (a : BitVec 16) (d : List Word) : TSlot := ⟨true, a, 1, 1, d, [], false, []⟩
def wSlot (a : BitVec 16) (d : List Word) : State :=
  ([(40, 0x0004000000000000), (41, 0x0000000100001000), (42, 1), (43, 0x2000), (44, 0x100000100), (45, 0)].foldl
    (fun s p => setU s p.1 (BitVec.ofNat 64 p.2)) wRem).modDie 0 fun x => { x with slots := [(2, slotOf a d)] }

theorem witness_RiddleCommands : ∀ s ∈ [wSlot 0 desc0, wSlot 1 desc0, wRem], ∃ f, riddleOf (.hdel ⟨2, 44, 45, false⟩) s = some f ∧ s.Issuing ∧ s.MayTrap
    ∧ s.Clear s.cur.mask f.uses := by
  intro s hs
  simp only [List.mem_cons, List.not_mem_nil, or_false] at hs
  rcases hs with rfl | rfl | rfl
  all_goals exact ⟨_, rfl, by simp only [State.Issuing]; decide, by simp only [State.MayTrap]; decide, by simp only [State.Clear]; decide⟩

/-- A list that is good, one whose family B is not in use, and a completion word of each kind: 0, 1 in range and past the scratchpad, 2. -/
theorem witness_RiddleCommands_cases :
    (wRem.tslot wRem.curDie 2).bound = false ∧ ((wSlot 1 desc0).tslot 0 2).bound = true ∧ ((wSlot 1 desc0).tslot 0 2).asid ≠ (wSlot 1 desc0).grp.cx.asid
    ∧ ((riddleOf (.hins ⟨2, 44, 45, false⟩) (wSlot 0 desc0)).map fun f => (f.reason, f.bad, wbits f.cw 1 0)) = some (none, false, 0)
    ∧ ((riddleOf (.hins ⟨2, 44, 45, true⟩) (wSlot 0 desc0)).map fun f => f.reason) = some (some 3)
    ∧ ((riddleOf (.hprobe ⟨2, 40⟩) (wSlot 0 desc1)).map fun f => f.reason) = some (some 5)
    ∧ ((riddleOf (.hins ⟨2, 45, 45, false⟩) (setU (wSlot 0 desc0) 45 0x1FFF9)).map fun f => (f.reason, f.bad, wbits f.cw 1 0)) = some (none, true, 1)
    ∧ ((riddleOf (.hins ⟨2, 44, 45, false⟩) (setU (wSlot 0 desc0) 45 0x1FFF9)).map fun f => (f.bad, wbits f.cw 1 0, wbits f.cw 63 2 * 4)) = some (false, 1, 0x1FFF8)
    ∧ (wSlot 0 desc0).blk.scrSize = 0x1FFF8 + 8
    ∧ ((riddleOf (.hins ⟨2, 44, 45, false⟩) (setU (wSlot 0 desc0) 45 2)).map fun f => (f.bad, wbits f.cw 1 0)) = some (false, 2)
    ∧ (wSlot 0 desc0).tslot 0 2 = slotOf 0 desc0 := by decide

/-- An insertion that has taken all its steps, one that has not, and an HADV. -/
def rcmd (op : ROp) (d : List Word) (step : Nat) : RCmd :=
  { gid := 3, core := 0, blk := 2, slot := 2, bind := 1, op := op, version := 1, desc := d, asid := 0, words := [0x100000100], seq := 0, batch := some 0,
    phase := none, step := step, hits := [], blocked := none, linked := [], applied := false, ids := [], rejects := 0, skips := [] }
def wRiddle (op : ROp) (d : List Word) (step : Nat) : State :=
  let s := (wSlot 0 d).modDie 0 fun x => { x with riddle := [(9, rcmd op d step)] }
  (s.modGrp fun g => { g with batches := [(0, 2)], splits := [(0, { g.split 0 with st := .waiting (.answer 9) })] })

theorem witness_RiddleCommands_done : ((wRiddle (.insert false) desc0 1).die 0).riddle.find? 9 = some (rcmd (.insert false) desc0 1)
    ∧ (∀ k, (rcmd (.insert false) desc0 1).op ≠ .advance k) ∧ (rcmd (.insert false) desc0 1).total ≤ 1 ∧ 1 < ((wRiddle (.insert false) desc0 1).group 3).batches.getD 0 0
    ∧ ((wRiddle (.insert false) desc0 1).groups.find? 3).isSome = true
    ∧ (∀ p ∈ ((wRiddle (.advance 5) desc1 0).die 0).riddle, p.2.gid = 3 → p.1 < 9 → p.2.op.isUpdate = true → p.2.applied = true)
    ∧ ((wRiddle (.advance 5) desc1 0).tslot 0 2).bind = 1 ∧ ((wRiddle (.advance 5) desc1 0).tslot 0 2).desc.length = 16
    ∧ ((wRiddle (.advance 5) desc1 0).group 3).splits.length = 1 := by
  refine ⟨rfl, fun k => by simp [rcmd], by decide, by decide, by decide, by decide, by decide, by decide, by decide⟩

theorem witness_RetrievalTables : (wSlot 0 desc1).Issuing ∧ (wSlot 0 desc1).spl.answer = none ∧ (wSlot 0 desc1).Clear 1 [rdUlo 4, wrU 6] ∧ (wSlot 0 desc1).cur.mask = 1
    ∧ (wSlot 0 desc1).SlotOk 2 ∧ rehashing ((wSlot 0 desc1).tslot 0 2).desc = true ∧ wAnswer.Clear 0 [wrU 6] ∧ wAnswer.spl.answer = some (true, 7, 0)
    ∧ (wSlot 0 desc1).Clear 1 [wrU 6] ∧ rowsOf desc1 ≤ cursorOf desc1 ∧ (wSlot 0 desc1).spl.woke = none
    ∧ (wSlot 0 desc1).riddleFenced 3 (wSlot 0 desc1).uid (some 2) = true ∧ (wRiddle (.insert false) desc0 0).spl.woke = none
    ∧ (wRiddle (.insert false) desc0 0).riddleFenced 3 10 none = false ∧ (wWoke (.hfence 0 none)).spl.woke = some (.hfence 0 none)
    ∧ (wSlot 0 desc0).Clear 1 [rdUlo 4] ∧ (wSlot 0 desc0).SlotOk 2 ∧ ((wSlot 0 desc0).blocks.find? (wSlot 0 desc0).grp.cx.blk).isSome = true
    ∧ ((wSlot 0 desc0).tslot 0 2).desc.length = 16 ∧ (wSlot 0 desc0).grp.touchesScr 0x1FF80 128 = false ∧ 0x1FF80 % 16 = 0
    ∧ 0x1FF80 + 128 ≤ (wSlot 0 desc0).blk.scrSize ∧ (wSlot 0 desc0).blk.scrSize < 0x1FF90 + 128 ∧ (wSlot 0 desc0).MayTrap := by
  simp only [State.Issuing, State.Clear, State.MayTrap, State.SlotOk]; decide

/-- HBIND: of a slot bound by another address space; of 0; of an address that is not a multiple of 128; of a descriptor that is poisoned, misaligned,
with a field that breaks its rule, and good. -/
def wBind (words : List Nat) (pois : Tab Bool) : State :=
  { setU wRem 47 0x1080 with mem := words.zipIdx.foldl (fun m p => m.writeList (0x1080 + 8 * p.2) (bytesOf 8 p.1)) wRem.mem, mpois := pois }
def wordsAt (s : State) : List Word := (List.range 16).map fun k => BitVec.ofNat 64 (s.homeN (0x1080 + 8 * k) 8)

theorem witness_RetrievalTables_bind : (wBind [] []).Issuing ∧ (wBind [] []).spl.answer = none ∧ (wBind [] []).spl.woke = none
    ∧ (wBind [] []).Clear 1 [rdU 47, wrU 46] ∧ (wBind [] []).cur.mask = 1 ∧ ((wBind [] []).tslot 0 2).bound = false
    ∧ ((wSlot 1 desc0).tslot 0 2).bound = true ∧ ((wSlot 1 desc0).tslot 0 2).asid ≠ 0 ∧ (wBind [] []).grp.ureg 47 ≠ 0
    ∧ wbits ((wBind [] []).grp.ureg 47) 55 0 % 128 = 0 ∧ (wBind [] []).Hits .load (fun t => kindAdmits t.kind (dieOfPa (t.frame % 2 ^ 44) == 0) .load && t.kind != kDevice) 0x1080
    ∧ (wBind [] []).grp.touches 0x1080 128 = false ∧ (wBind [] []).memReady 0x1080 = true ∧ (wBind [] []).homePois 0x1080 128 = false
    ∧ (wBind [] [(0x1080 / 8, true)]).homePois 0x1080 128 = true ∧ alignFault (wordsAt (wBind ((desc0.set 7 1).map (·.toNat)) [])) = true
    ∧ alignFault (wordsAt (wBind ((desc0.set 0 64).map (·.toNat)) [])) = false ∧ fieldFault (wordsAt (wBind ((desc0.set 0 64).map (·.toNat)) [])) = true
    ∧ alignFault (wordsAt (wBind (desc0.map (·.toNat)) [])) = false ∧ fieldFault (wordsAt (wBind (desc0.map (·.toNat)) [])) = false := by
  refine ⟨by simp only [State.Issuing]; decide, by decide, by decide, by simp only [State.Clear]; decide, by decide, by decide, by decide, by decide, by decide,
    by decide, hits_of _ _ _ _ (by decide) (by decide) (by decide), by decide, by decide, by decide, by decide, by decide, by decide, by decide, by decide, by decide⟩

/-- The bucket of the example (13): 14 rows 0x10 to 0x1D, COUNT 14, HEAD 5, no chain; the list of one row 0x73 with the id 0. -/
def wBucket (op : ROp) (rows : Nat) (row : Nat) (d : List Word) : State :=
  let s := wRiddle op d 0
  let ids := (List.range 14).flatMap fun k => bytesOf 4 (if k < rows then 0x10 + k else 0xFFFFFFFF)
  { s with
    mem := (s.mem.writeList 0x1000 (bytesOf 4 (0x00050000 + rows) ++ bytesOf 4 0xFFFFFFFF ++ ids))
    blocks := s.blocks.modify 2 fun b => b.writeBytes 0x100 (bytesOf 4 row) }
def bucket0 : Bucket := ⟨[0x1000], []⟩

/-- KEEP on the full bucket: bytes 0 to 3 become 0x0105000F and no slot changes. -/
theorem test_bucket_keep :
    let t := after (.bucketInsert 0 9) (wBucket (.insert false) 14 0x73 desc0)
    t.homeN 0x1000 4 = 0x0105000F ∧ t.homeN 0x1008 4 = 0x10 ∧ t.homeN 0x103C 4 = 0x1D := by decide

/-- RING on the full bucket: bytes 0 to 3 become 0x0206000F, and slot 5 turns from 0x15 to 0x73. -/
theorem test_bucket_ring :
    let t := after (.bucketInsert 0 9) (wBucket (.insert false) 14 0x73 (desc0.set 0 0x10))
    t.homeN 0x1000 4 = 0x0206000F ∧ t.homeN (0x1008 + 20) 4 = 0x73 := by decide

/-- The step of a command on bucket 0, which is read. -/
theorem witness_BucketSteps : (∀ l ∈ bucket0.own ++ bucket0.chain, l % 64 = 0) ∧ bucket0.own.Nodup ∧ bucket0.own ≠ []
    ∧ (∃ u, (wBucket (.insert false) 14 0x73 desc0).Stepping u 0 9 (rcmd (.insert false) desc0 0) .atomic bucket0)
    ∧ (∃ u, (wBucket (.insert false) 13 0x73 desc0).Stepping u 0 9 (rcmd (.insert false) desc0 0) .atomic bucket0)
    ∧ (∃ u, (wBucket (.delete false) 14 0x10 desc0).Stepping u 0 9 (rcmd (.delete false) desc0 0) .atomic bucket0)
    ∧ (wBucket (.insert false) 14 0x73 desc0).inputWord (rcmd (.insert false) desc0 0) (((rcmd (.insert false) desc0 0).stepAt 0).words - 4) = 0x73
    ∧ (∀ a ∈ bucket0.slots, (wBucket (.insert false) 14 0x73 desc0).homeN a 4 ≠ 0x73 ∧ (wBucket (.insert false) 14 0x73 desc0).homeN a 4 ≠ 0xFFFFFFFF)
    ∧ (∃ a ∈ bucket0.slots, (wBucket (.insert false) 14 0x10 desc0).homeN a 4 = 0x10)
    ∧ bucket0.slots.find? (fun a => (wBucket (.insert false) 13 0x73 desc0).homeN a 4 == 0xFFFFFFFF) = some (0x1008 + 52)
    ∧ bits (dword desc0 0) 5 4 = 0 ∧ ((wBucket (.insert false) 14 0x73 desc0).tslot 0 2).bind = 1 := by
  refine ⟨by decide, by decide, by decide, ⟨_, rfl, by decide, rfl, by decide, by decide, by decide, rfl⟩, ⟨_, rfl, by decide, rfl, by decide, by decide, by decide, rfl⟩,
    ⟨_, rfl, by decide, rfl, by decide, by decide, by decide, rfl⟩, by decide, by decide, by decide, by decide, by decide, by decide⟩

/-- The full bucket under RING; under RESERVOIR, with a seed that keeps the row and one that drops it; and under CHAIN, with a pool line left, with none,
and with a free chain slot. -/
def descRing : List Word := desc0.set 0 0x10
def descRes (seed : Word) : List Word := (desc0.set 0 0x20).set 1 seed
def descChain (pool : Word) : List Word := ((desc0.set 0 0x30).set 4 0x1200).set 5 pool
def wChained : State :=
  let s := wBucket (.insert false) 14 0x73 (descChain 0x0000000300000008)
  { s with mem := (s.mem.writeList 0x1004 (bytesOf 4 2)).writeList (0x1200 + 128) (List.replicate 64 0xFF) }
def bucket2 : Bucket := ⟨[0x1000], [0x1280]⟩

theorem witness_BucketSteps_ring : ∃ u, (wBucket (.insert false) 14 0x73 descRing).Stepping u 0 9 (rcmd (.insert false) descRing 0) .atomic bucket0 :=
  ⟨_, rfl, by decide, rfl, by decide, by decide, by decide, rfl⟩
theorem witness_BucketSteps_reservoir : (∃ u, (wBucket (.insert false) 14 0x73 (descRes 0x7C)).Stepping u 0 9 (rcmd (.insert false) (descRes 0x7C) 0) .atomic bucket0)
    ∧ (mix64 (0x7C ^^^ 0x73 ^^^ 15)).toNat % 15 < 14 :=
  ⟨⟨_, rfl, by decide, rfl, by decide, by decide, by decide, rfl⟩, by decide⟩
theorem witness_BucketSteps_reservoir_drops : (∃ u, (wBucket (.insert false) 14 0x73 (descRes 0x23)).Stepping u 0 9 (rcmd (.insert false) (descRes 0x23) 0) .atomic bucket0)
    ∧ 14 ≤ (mix64 (0x23 ^^^ 0x73 ^^^ 15)).toNat % 15 :=
  ⟨⟨_, rfl, by decide, rfl, by decide, by decide, by decide, rfl⟩, by decide⟩
def chainCmd : RCmd := rcmd (.insert false) (descChain 0x0000000300000008) 0
def wChain : State := wBucket (.insert false) 14 0x73 (descChain 0x0000000300000008)
def wChainRead : State := wChain.stepState 0 9 chainCmd
theorem witness_BucketSteps_chain : wChain.Stepping wChainRead 0 9 chainCmd .atomic bucket0 :=
  ⟨rfl, by decide, rfl, by decide, by decide, by decide, rfl⟩
theorem witness_BucketSteps_chain_line : (wChainRead.lineOf chainCmd .atomic 0x12C0).1 = wChainRead := rfl
theorem witness_BucketSteps_chain_address : ∃ pa, (wChainRead.lineOf chainCmd .atomic 0x12C0).2 = .ok pa := ⟨_, rfl⟩
theorem witness_BucketSteps_chain_drops : ∃ u, (wBucket (.insert false) 14 0x73 (descChain 0x0000000300000003)).Stepping u 0 9 (rcmd (.insert false) (descChain 0x0000000300000003) 0) .atomic bucket0 :=
  ⟨_, rfl, by decide, rfl, by decide, by decide, by decide, rfl⟩
theorem witness_BucketSteps_chain_free : (∃ u, wChained.Stepping u 0 9 (rcmd (.insert false) (descChain 0x0000000300000008) 0) .atomic bucket2)
    ∧ (bucket2.chainSlots.find? fun a => wChained.homeN a 4 == 0xFFFFFFFF) = some 0x1284 :=
  ⟨⟨_, rfl, by decide, rfl, by decide, by decide, by decide, rfl⟩, by decide⟩

/-- A probe of one query by one table and by two; its hits so far; its output apart from its count. -/
def probeCmd (d : List Word) (step : Nat) : RCmd :=
  { rcmd .probe d step with words := [0x0000000400000100, 0x0000000200000200, 0x0000000100000300], hits := [(0x10, 1)] }
def wProbe (d : List Word) (step : Nat) : State := (wBucket .probe 14 0 d).modDie 0 fun x => { x with riddle := [(9, probeCmd d step)] }

theorem witness_BucketSteps_probe : (∃ u, (wProbe desc0 0).Stepping u 0 9 (probeCmd desc0 0) .load bucket0)
    ∧ (∃ u, (wProbe (desc0.set 8 0x02040010) 0).Stepping u 0 9 (probeCmd (desc0.set 8 0x02040010) 0) .load bucket0)
    ∧ (Fam.of desc0 false).l = 1 ∧ (Fam.of (desc0.set 8 0x02040010) false).l = 2 ∧ rehashing desc0 = false
    ∧ (Probe.of (probeCmd desc0 0).words).oaddr + 4 * (Probe.of (probeCmd desc0 0).words).cap * 1 ≤ (Probe.of (probeCmd desc0 0).words).caddr
    ∧ ((wProbe desc0 0).blocks.find? 2).isSome = true :=
  ⟨⟨_, rfl, by decide, rfl, by decide, by decide, by decide, rfl⟩, ⟨_, rfl, by decide, rfl, by decide, by decide, by decide, rfl⟩,
    by decide, by decide, by decide, by decide, by decide⟩

/-- RESERVOIR with SEED 0x7C: bytes 0 to 3 become 0x0205000F, and slot 0 turns from 0x10 to 0x73. -/
theorem test_bucket_reservoir :
    let t := after (.bucketInsert 0 9) (wBucket (.insert false) 14 0x73 ((desc0.set 0 0x20).set 1 0x7C))
    t.homeN 0x1000 4 = 0x0205000F ∧ t.homeN 0x1008 4 = 0x73 := by decide

/-- CHAIN with POOLNEXT 3: bytes 0 to 3 become 0x0405000F, OVF names pool line 3, whose first slot takes the row. -/
theorem test_bucket_chain :
    let t := after (.bucketInsert 0 9) (wBucket (.insert false) 14 0x73 (((desc0.set 0 0x30).set 4 0x1200).set 5 0x0000000300000008))
    t.homeN 0x1000 8 = 0x000000030405000F ∧ t.homeN (0x1200 + 192) 8 = 0x00000073FFFFFFFF
      ∧ poolNext (t.tslot 0 2).desc = 4 ∧ (dword (t.tslot 0 2).desc 15) = 1 := by decide

/-- TABLE_STATE of HADV, HSWAP, HSTAT and HFENCE: a slot that is not bound, one of another address space, one not rehashing, and one not finished. -/
theorem witness_RetrievalTables_traps : (slotForm (.hadv ⟨2, 6, 4⟩)).isSome = true ∧ (slotForm (.hswap ⟨2, 6⟩)).isSome = true
    ∧ (slotForm (.hstat ⟨2, 4⟩)).isSome = true ∧ (slotForm (.hfence ⟨some 2⟩)).isSome = true
    ∧ (wRem.tslot wRem.curDie 2).bound = false ∧ wRem.MayTrap ∧ ((wSlot 1 desc0).tslot 0 2).asid ≠ (wSlot 1 desc0).grp.cx.asid
    ∧ (wSlot 0 desc0).SlotOk 2 ∧ rehashing desc0 = false
    ∧ cursorOf (desc1.set 2 0x0000006300000064) < rowsOf (desc1.set 2 0x0000006300000064) := by
  simp only [State.MayTrap, State.SlotOk]; decide

/-! ### Witnesses: storage, checkpoints and frames -/

/-- Page tables at 0x200000 for address space 0: a PRIVATE page of 2 GiB at 0, a MOULD page at 2^31 and a SHARED page at 2^32, with A and D set. -/
def wWalk : State :=
  let m := ((((wRem.mem.writeList 0x100000 (bytesOf 8 0x200001)).writeList 0x200000 (bytesOf 8 0x220001)).writeList 0x220000 (bytesOf 8 0x31F)).writeList
    0x220010 (bytesOf 8 0x8000036F)).writeList 0x220020 (bytesOf 8 0x10000034F)
  { wRem with mem := m }

/-- A buffer of one page and a line, with pair 0 not enabled; enabled; and full. -/
def wStore : State := [(40, 0x1000), (41, 0), (42, 0)].foldl (fun s p => setU s p.1 (BitVec.ofNat 64 p.2)) wRem
def wPair : State := wStore.setReg 0 0x600 1
def nvcmd : NvCmd := ⟨false, 3, 1, 0, 0x1000, 0x3000, 0x3000, 0, 0, 0, []⟩
def wPairFull : State := wPair.setPair 0 ⟨0, 0, true, (List.range 15).map fun k => (k, nvcmd)⟩

theorem witness_StorageCommands : ∀ s ∈ [wStore, wPair, wPairFull], s.Issuing
    ∧ s.Clear s.cur.mask ([rdU 40, rdU (40 + 1), rdU (40 + 2), wrU 6, wrSc] ++ [rdU 20, rdU (20 + 1)])
    ∧ wbits (s.grp.ureg 40) 63 56 = 0 ∧ wbits (s.grp.ureg 42) 31 16 = 0 ∧ (s.grp.ureg 40).toNat % 4096 = 0
    ∧ (wbits (s.grp.ureg 42) 15 0 + 1) * lbaBytes (s.sqcfg 0) ≤ 4096 ∧ s.BindOk 20 sharedOrFabric ∧ s.Hits .store (bufferKind false) 0x1000
    ∧ s.Hits .load (bufferKind true) 0x1000 ∧ s.grp.performedBefore s.uid true = true := by
  intro s hs
  simp only [List.mem_cons, List.not_mem_nil, or_false] at hs
  rcases hs with rfl | rfl | rfl
  all_goals exact ⟨by simp only [State.Issuing]; decide, by simp only [State.Clear]; decide, by decide, by decide, by decide, by decide,
    ⟨by decide, by decide, by decide, hits_of _ _ _ _ (by decide) (by decide) (by decide)⟩, hits_of _ _ _ _ (by decide) (by decide) (by decide),
    hits_of _ _ _ _ (by decide) (by decide) (by decide), by decide⟩

theorem witness_StorageCommands_cases : (wStore.sqcfg 0).getLsbD 0 = false ∧ (wPair.sqcfg 0).getLsbD 0 = true
    ∧ (wPair.nvPair 0).cmds.length + 1 < sqDepth (wPair.sqcfg 0) ∧ (wPair.nvPair 0).cmds.length < 65536
    ∧ sqDepth (wPairFull.sqcfg 0) ≤ (wPairFull.nvPair 0).cmds.length + 1
    ∧ wPairFull.isMemory (wPairFull.cqHead 0) 16 = true ∧ wPairFull.memReady (wPairFull.cqHead 0) = true ∧ (wPairFull.nvPair 0).phase = true
    ∧ (0 : BitVec 128).getLsbD 112 = !true ∧ (0x00010003000000000000000000000000 : BitVec 128).getLsbD 112 = true
    ∧ bits (0x00010003000000000000000000000000 : BitVec 128).toNat 127 113 = 0
    ∧ (wPairFull.nvPair 0).cmds.find? (bits (0x00010003000000000000000000000000 : BitVec 128).toNat 111 96) = some nvcmd := by decide

/-- The link of the pair's endpoint is up; and a buffer of three pages, the last of them SHARED. -/
def wLinked : State := { wPairFull with links := [0] }
def wList : State :=
  (setU wPair 42 23).modCore 0 fun k => { k with tlb := ⟨0, 0, 0x2000, 4096, 0x2000, kPrivate, true, true, false, true, noLeaf⟩ :: k.tlb }

theorem witness_StorageCommands_links : wLinked.links.contains (endpointOf (pairDie 0).1) = true ∧ wPairFull.links.contains (endpointOf (pairDie 0).1) = false
    ∧ wLinked.isMemory (wLinked.cqHead 0) 16 = true ∧ wLinked.memReady (wLinked.cqHead 0) = true ∧ (wLinked.sqcfg 0).getLsbD 0 = true
    ∧ (wLinked.nvPair 0).phase = true := by decide

theorem witness_StorageCommands_list : wList.Issuing ∧ wList.Clear wList.cur.mask ([rdU 40, rdU (40 + 1), rdU (40 + 2), wrU 6, wrSc] ++ [rdU 20, rdU (20 + 1)])
    ∧ (wbits (wList.grp.ureg 42) 15 0 + 1) * lbaBytes (wList.sqcfg 0) = 3 * 4096 ∧ wList.Hits .store (bufferKind false) 0x1000
    ∧ wList.Hits .store (bufferKind false) 0x2000 ∧ wList.Hits .store (bufferKind false) 0x3000 ∧ wList.memReady (sqBase (wList.sqcfg 0)) = true := by
  refine ⟨by simp only [State.Issuing]; decide, by simp only [State.Clear]; decide, by decide, hits_of _ _ _ _ (by decide) (by decide) (by decide),
    hits_of _ _ _ _ (by decide) (by decide) (by decide), hits_of _ _ _ _ (by decide) (by decide) (by decide), by decide⟩

/-- CKPT of dies 0 and 23, of no die, and of a die whose checkpoints the host streams; a stream before its cut, and one at a frame that it holds and at
one that it does not. -/
def wCkpt (n : Nat) : State := [(40, 0), (41, 4096 * 16891904), (42, 0x3000), (43, n)].foldl (fun s p => setU s p.1 (BitVec.ofNat 64 p.2)) wRem
def stream0 (cut : Bool) (frames : List Nat) : Stream :=
  { gid := 3, batch := 0, issuer := 0, data := 0x80000000, line := 0x100000000, sig := 5, asid := 0, dirty := true, cut := cut, frames := frames, total := 10,
    snap := [], next := 2, req := 9, outstanding := [] }
def wStream (cut : Bool) (frames : List Nat) : State := wWalk.modDie 0 fun x => { x with streams := [(9, stream0 cut frames)] }
/-- A cut whose launch is the one that runs, whose split waits for it, and whose core holds a dirty byte; and a cut of another launch. -/
def wCut : State :=
  ((wStream false []).setLine (.l1 0) 0x40 ⟨1, 1, 0, 7, []⟩).modGrp fun g => { g with splits := [(0, { g.split 0 with st := .waiting (.answer 9) })] }
def wCutWaits : State := wWalk.modDie 0 fun x => { x with streams := [(9, { stream0 false [] with issuer := 5 })] }

theorem witness_Checkpoints : [wCkpt 0x800001, wCkpt 0].all (fun s => s.spl.answer.isNone && (s.groups.find? s.cur.gid).isSome) = true
    ∧ (wCkpt 0).MayTrap ∧ (wCkpt 0).Issuing ∧ (wCkpt 0).Clear 1 [rdU 40, rdU (40 + 1), rdU (40 + 2), rdU (40 + 3), wrU 6] ∧ (wCkpt 0).cur.mask = 1
    ∧ (wCkpt 0x800001).Issuing ∧ (wCkpt 0x800001).Clear 1 [rdU 40, rdU (40 + 1), rdU (40 + 2), rdU (40 + 3), wrU 6]
    ∧ (let f (s : State) := ckptFault (s.grp.ureg 40) (s.grp.ureg 41) (s.grp.ureg 42) (s.grp.ureg 43)
       f (wCkpt 0) = true ∧ f (wCkpt 0x800001) = false)
    ∧ (List.range 24).filter (fun d => ((wCkpt 0x800001).grp.ureg 43).getLsbD d && !((wCkpt 0x800001).die d).mode.getLsbD 5) = [0, 23]
    ∧ (wCut.die 0).streams.first? (fun _ y => !y.cut) = some (9, stream0 false [])
    ∧ (∀ b ∈ wCut.blocks, dieOfCore b.2.core = 0 → wCut.blockLive b.2 = true → b.2.launch = (stream0 false []).issuer)
    ∧ ∃ b ∈ wCutWaits.blocks, dieOfCore b.2.core = 0 ∧ b.2.launch ≠ 5 ∧ wCutWaits.blockLive b.2 = true := by
  simp only [State.Issuing, State.Clear, State.MayTrap]; decide

theorem witness_Checkpoints_cut : (∀ e, e ≠ 0 → (wCut.die e).streams.find? 9 = none) ∧ wCut.dies.Pairwise (fun p q => p.1 < q.1)
    ∧ (wCut.groups.find? 3).isSome = true ∧ (wCut.group 3).splits.length = 1 ∧ ((wCut.group 3).split 0).st = .waiting (.answer 9)
    ∧ (wCut.line (.l1 0) 0x40).dirty.getLsbD 0 = true ∧ (∀ p ∈ wCut.mdirty, p.2 = true) := by
  refine ⟨fun e h => ?_, by decide, by decide, by decide, by decide, by decide, by decide⟩
  have : wCut.dies.find? e = none := by
    show Tab.find? [(0, _)] e = none
    simp [Tab.find?, Ne.symm h]
  simp only [State.die, this]
  rfl

/-- The dirty byte is held by no other L1 and by no cluster cache. -/
theorem witness_Checkpoints_byte : (∀ e, (wCut.line (.l1 e) 0x40).dirty.getLsbD 0 = true → e = 0) ∧ ∀ k, (wCut.line (.cc k) 0x40).dirty.getLsbD 0 = false := by
  refine ⟨fun e h => ?_, fun k => ?_⟩
  · refine Decidable.byContradiction fun hn => ?_
    have hf : wCut.cores.find? e = none := by
      show Tab.find? [(0, _)] e = none
      simp [Tab.find?, Ne.symm hn]
    simp only [State.line, State.core, hf] at h
    revert h; decide
  · have hf : wCut.clusters.find? k = none := rfl
    simp only [State.line, State.cluster, hf]
    decide

theorem witness_Checkpoints_stream : ∀ fs ∈ [[2], []],
    let s := wStream true fs
    let x := stream0 true fs
    let u := s.modDie 0 fun y => { y with streams := y.streams.modify 9 fun x => { x with next := 2 + 1 } }
    (s.die 0).streams = [(9, x)] ∧ x.cut = true ∧ x.next < x.total ∧ s.memReady (frameAddr 0 2) = true
    ∧ s.walkWaits 0 x.asid (x.data + 4096 * 2) = false ∧ s.walkWaits 0 x.asid x.line = false
    ∧ (u.plainWalk 0 x.asid (x.data + 4096 * 2) true fun t => t.kind = kMould || t.kind = kFabric) = (u, some 0x80002000)
    ∧ u.plainWalk 0 x.asid x.line true sharedOrFabric = (u, some 0x100000000) := by
  intro fs h
  simp only [List.mem_cons, List.not_mem_nil, or_false] at h
  rcases h with rfl | rfl
  all_goals exact ⟨rfl, rfl, by decide, by decide, by decide, by decide, rfl, rfl⟩

/-- Port 0 in use with its link up; a frame of a remote addition, one with a wrong check, and a response to a packet of this node. -/
def wPort : State := wRem.setReg 0 0x3000 5
def frame0 (w0 w1 w2 w3 : Nat) (payload : List Byte) : Frame :=
  let b := [w0, w1, w2, w3].map (BitVec.ofNat 64)
  ⟨true, true, 0, 0xC864, b.getD 0 0, b.getD 1 0, b.getD 2 0, b.getD 3 0, payload, crc32c ([w0, w1, w2, w3].flatMap (bytesOf 8) ++ payload)⟩
def reqFrame (len : Nat) : Frame := frame0 (len * 2 ^ 14 + 0x20 * 2 ^ 6) (0xC00 * 2 ^ 22 + 16 * 2 ^ 17) 0 0 (bytesOf 8 7)
def outPkt : Packet := pkt 0x20 0x10 (2 ^ 44 + 0x3000) (bytesOf 8 7)
def respFrame : Frame := frame0 (outPkt.wireOp * 2 ^ 6 + 2) (outPkt.wire.1) (outPkt.wire.2.1) outPkt.wire.2.2 []

theorem witness_FrameReceived : (portReg 0) = (0, 0x3000) ∧ (wRem.reg 0 0x3000).getLsbD 0 = false ∧ (wPort.reg 0 0x3000).getLsbD 0 = true
    ∧ (wPort.reg 0 0x3000).getLsbD 2 = true ∧ (wPort.reg 0 0x3000).getLsbD 3 = false ∧ { reqFrame 2 with fcsOk := false }.fcsOk = false
    ∧ wPort.frameBad 0 (reqFrame 2) = false ∧ (reqFrame 2).w0.getLsbD 1 = false ∧ (requestOf (reqFrame 2)).isSome = true
    ∧ wPort.frameBad 0 (reqFrame 3) = false ∧ requestOf (reqFrame 3) = none ∧ wPort.frameBad 0 respFrame = false ∧ respFrame.w0.getLsbD 1 = true
    ∧ respCode respFrame = some 0 := by decide

theorem witness_FrameReceived_response : ({ wPort with packets := [(9, outPkt)] } : State).matchResp respFrame = some (9, outPkt) := by decide

/-! ### Witnesses: launches and placement -/

/-- A record of one block of one group with 8 vector and 32 uniform registers and a scratchpad of a granule, on cluster 0 of die 0, with a save slot at
0; and that of a co-resident pour. -/
def rec0 (cores : Nat) : List Word :=
  ([0, 0, 0x100000001, (cores + 0x101) * 2 ^ 32 + 1, 0x010101, 0x0101, 0, 0, 0, 0, 2 ^ 32, 0, 28, 0x100000001]
    ++ List.replicate 18 0 : List Nat).map (BitVec.ofNat 64)
def launch0 (cores : Nat) : Launch := Launch.fresh 7 0x300000 (rec0 cores) 1 none

/-- Queue 1, open to POUR, with its ring at 0x2000; its head entry names what is given; at 0x300000 stands a record. -/
def wQueue (tail a : Nat) : State :=
  let s := wRem.setReg 0 0x110 0x2101
  let m := ((s.mem.writeList 0x2008 (bytesOf 8 tail)).writeList 0x2040 (bytesOf 8 a)).writeList 0x300000 ((rec0 0).flatMap fun w => bytesOf 8 w.toNat)
  { s with mem := m, tails := [(1, tail)] }

theorem witness_PourQueues : [wQueue 0 0, wRem].all (fun s => s.spl.woke.isNone && s.grp.performedBefore s.uid true) = true
    ∧ (wQueue 0 0).Issuing ∧ wRem.Issuing ∧ (wQueue 0 0).Clear 1 [rdU 5, wrU 6, wrSc] ∧ wRem.Clear 1 [rdU 5, wrU 6, wrSc] ∧ wRem.cur.mask = 1
    ∧ wSts.Issuing ∧ wSts.spl.woke = none ∧ wSts.Clear wSts.cur.mask [rdU 5, wrU 6, wrSc] ∧ wSts.grp.performedBefore wSts.uid true = false
    ∧ (wRem.qcfg 1).getLsbD 0 = false
    ∧ (let s := wQueue 0 0
       let u := s.releaseAt s.curCore .die
       (s.qcfg 1).getLsbD 0 = true ∧ (s.qcfg 1).getLsbD 8 = true ∧ s.isMemory (queueBase (s.qcfg 1)) 64 = true
       ∧ u.homeN (queueBase (s.qcfg 1) + 8) 8 - u.homeN (queueBase (s.qcfg 1)) 8 < queueSize (s.qcfg 1)) := by
  simp only [State.Issuing, State.Clear]; decide

theorem witness_PourQueues_take : [wQueue 1 1, wQueue 1 0x300000].all (fun s =>
      let c := s.qcfg 1
      let base := queueBase c
      let head := s.homeN base 8
      c.getLsbD 0 && decide (2 ≤ s.level) && s.isMemory base 64 && s.memReady base && decide (head < s.tails.getD 0 1)
        && decide (s.tails.getD 0 1 - head ≤ queueSize c) && s.homeN (queueEntry c head) 8 == (if s == wQueue 1 1 then 1 else 0x300000)) = true
    ∧ (1 : Nat) % 256 ≠ 0
    ∧ (let s := wQueue 1 0x300000
       let l := Launch.fresh 1 0x300000 (s.readRecord 0x300000) 1 none
       nodeOf 0x300000 = s.nodeId s.watchDie ∧ s.isMemory (paOf 0x300000) 256 = true ∧ s.homePois (queueEntry (s.qcfg 1) 0) 8 = false
       ∧ s.memReady (paOf 0x300000) = true ∧ s.homePois (paOf 0x300000) 256 = false ∧ s.children.find? (1 * 2 ^ 64 + 0) = none
       ∧ l.constCnt = 0 ∧ l.statusVa = 0 ∧ l.doneVa = 0 ∧ (∀ k, k < 4 → l.depVa k = 0) ∧ l.badRecord = false ∧ l.badCode = false ∧ l.badPool = false
       ∧ l.badSave = false ∧ s.tooLarge l = false) := by decide

/-- Two eligible launches, one with a ms of waiting behind it. -/
def wEligible : State :=
  { w0 with clk := 5000000
            launches := [(50, { launch0 0 with eligibleAt := some 4999999 }), (51, { launch0 0 with eligibleAt := some 1000000, queue := 2 })] }

theorem witness_LaunchStarted : wEligible.launches.find? 51 = some { launch0 0 with eligibleAt := some 1000000, queue := 2 }
    ∧ (∀ p ∈ wEligible.launches, p.2.started = true ∨ p.2.refused ≠ 0 ∨ p.2.eligibleAt.isSome = true)
    ∧ (∀ p ∈ w0.launches, ¬(p.2.eligibleAt.isSome = true ∧ p.2.started = false ∧ p.2.refused = 0))
    ∧ (∀ p ∈ w0.launches, p.2.started = true ∨ p.2.refused ≠ 0 ∨ p.2.eligibleAt.isSome = true)
    ∧ (wEligible.launches.map (·.1)).Nodup
    ∧ ∃ p ∈ wEligible.launches, p.2.eligibleAt.isSome = true ∧ p.2.started = false ∧ p.2.refused = 0 := by decide

theorem witness_LaunchStarted_draining : ∀ d, wEligible.draining d = false := by
  intro d
  by_cases h : d = 0
  · subst h; decide
  · have : wEligible.dies.find? d = none := by
      show Tab.find? [(0, _)] d = none
      simp [Tab.find?, Ne.symm h]
    simp only [State.draining, State.reg, State.die, this]
    rfl

/-- The priority that a ms of waiting gives decides. -/
theorem test_launch_start : ((after .launchStart wEligible).launch 50).started = false
    ∧ ((after .launchStart wEligible).launch 51).started = true ∧ ((after .launchStart wEligible).launch 51).prio = 1
    ∧ ((after .launchStart wEligible).launch 51).ranges = [(0, 0, 1)] := by decide

/-- A started launch: with a cast left, with its status bits to be set, with a status packet out, acknowledged, and ended. -/
def wLaunch (f : Launch → Launch) : State := { w0 with launches := [(50, f { launch0 0 with started := true })], blocks := [] }
def statusPkt : Packet := { pkt 0x23 0x10 0x3000 [] with launch := some (50, 0) }

theorem witness_LaunchEnds :
    let l := (launch0 0)
    (launch0 0).dies.contains 0 = true ∧ l.ended = false ∧ l.reported.contains 0 = false
    ∧ (wLaunch fun l => { l with ranges := [(0, 0, 1)] }).workLeft 50 0 = true ∧ (wLaunch id).workLeft 50 0 = false ∧ l.sent.contains 0 = false
    ∧ ({ wLaunch (fun l => { l with sent := [0] }) with packets := [(9, statusPkt)] } : State).statusDone 50 (· == 0) = false
    ∧ (wLaunch fun l => { l with sent := [0] }).workLeft 50 0 = false ∧ (wLaunch fun l => { l with sent := [0] }).statusDone 50 (· == 0) = true
    ∧ (wLaunch fun l => { l with sent := [0] }).statusDone 50 (fun _ => true) = true
    ∧ (wLaunch fun l => { l with ended := true }).statusDone 50 (fun _ => true) = true ∧ l.arrived.contains 0 = false := by decide

/-- A cast to place on die 0, on the cluster of the record, on none, and where the host places; a co-resident pour; and a saved cast. -/
def wPlace (cores clus : Nat) : State :=
  let l : Launch := { launch0 cores with words := (rec0 cores).set 13 (BitVec.ofNat 64 (1 + clus * 2 ^ 32)), started := true, ranges := [(0, 0, 1)] }
  { w0 with launches := w0.launches ++ [(50, l)], uid := 60 }
def wHosted : State := (wPlace 0 1).modDie 0 fun x => { x with mode := 4 }
def work0 : Work := ⟨50, 0, none⟩
def saved0 : Saved :=
  { die := 0, home := 0, cast := 1, blocks := [(2, { w0.block 2 with slot := some 0 })], groups := [(3, w0.grp)], ladle := [], engine := [], slots := [(2, 0)]
    at_ := 0, stamp := 0 }
def wSaved : State :=
  { wWalk with launches := [(0, { launch0 0 with started := true })], blocks := [], groups := [], saved := [(55, saved0)], uid := 60, clk := 10 }

theorem witness_PlacementResult : (wPlace 0 1).draining 0 = false ∧ ((wPlace 0 1).die 0).mode.getLsbD 2 = false ∧ (wPlace 0 1).pending 0 = [] ++ work0 :: []
    ∧ ((wPlace 0 1).launch 50).coRes = false ∧ ((wPlace 0 1).dieTakes work0 0 fun _ => true) = some [1] ∧ (wPlace 0 0).pending 0 = [work0]
    ∧ ((wPlace 0 0).dieTakes work0 0 fun _ => true) = none ∧ work0.saved = none
    ∧ (wHosted.die 0).mode.getLsbD 2 = true ∧ wHosted.draining 0 = false ∧ (wHosted.setReg 0 0x0C8 8).pending 0 = [work0]
    ∧ ((wHosted.setReg 0 0x0C8 8).launch 50).coRes = false ∧ ((wHosted.setReg 0 0x0C8 8).needs work0).length = 1
    ∧ (wHosted.setReg 0 0x0C8 8).dieTakes work0 0 (fun c => (8 : Word).getLsbD (c % 64)) = some [3]
    ∧ (wHosted.setReg 0 0x0C8 1).dieTakes work0 0 (fun c => (1 : Word).getLsbD (c % 64)) = none
    ∧ ((wPlace 0x10000000 1).launch 50).coRes = true ∧ (wPlace 0x10000000 1).pending 0 = [work0]
    ∧ wSaved.pending 0 = [⟨0, 0, some 55⟩] ∧ (wSaved.launch 0).coRes = false ∧ (wSaved.dieTakes ⟨0, 0, some 55⟩ 0 fun _ => true) = some [0]
    ∧ wSaved.saved.find? 55 = some saved0 ∧ (saved0.blocks.map (·.1)).Nodup ∧ wSaved.draining 0 = false ∧ (wSaved.die 0).mode.getLsbD 2 = false := by decide

/-- A cast that has waited 100 µs, where its cluster is free and where it is reserved. -/
def wDue : State := { wPlace 0 1 with clk := 400000 }
def wReserved : State := wDue.modCluster 0 fun k => { k with reserved := some (9, 9) }
/-- Block 2 without a reason to stop; with one; stopped with a load in flight; and stopped and quiet. -/
def wBlock (f : Block → Block) (p : List Nat) : State :=
  ({ wWalk with launches := [(0, { launch0 0 with started := true })], blocks := wWalk.blocks.modify 2 f }).modDie 0 fun x => { x with preempting := p }
def stopped (x : Block) : Block := { x with stopping := true, slot := some 0 }

theorem witness_ReservationAndPreemption :
    (let due (s : State) : Option Work := (s.pending 0).find? fun w => decide ((s.launch w.launch).startedAt + 400000 ≤ s.clk)
          && !(clustersOf 0).any fun k => (s.cluster k).reserved == some (w.launch, w.castId)
     due (wPlace 0 1) = none ∧ due wDue = some work0 ∧ due wReserved = some work0)
    ∧ (0 ∈ clustersOf 0 ∧ (wDue.launch 50).onCluster 0 = true ∧ (wDue.cluster 0).reserved = none
      ∧ (wDue.needs work0).length ≤ ((coresOf 0).filter fun c => !wDue.coreRetired c).length)
    ∧ (∀ k ∈ clustersOf 0, ¬((wReserved.launch 50).onCluster k = true ∧ (wReserved.cluster k).reserved = none))
    ∧ (wBlock id []).blocks.find? 2 = some (w0.block 2) ∧ (wBlock id []).blockLive (w0.block 2) = true
    ∧ (wBlock id []).mustStop 2 (w0.block 2) = false ∧ (wBlock id [2]).mustStop 2 (w0.block 2) = true
    ∧ ((wBlock id [2]).slotsFor ((wBlock id [2]).together 1)).isSome = true ∧ (wBlock stopped [2]).blocks.find? 2 = some (stopped (w0.block 2))
    ∧ (wBlock stopped [2]).together 1 = [1] ∧ (wBlock stopped [2]).liveBlocks 1 = [(2, stopped (w0.block 2))]
    ∧ (wBlock stopped [2]).quiesced 2 (stopped (w0.block 2)) = true
    ∧ ((wBlock stopped [2]).modGroup 3 fun g => { g with lcnt := 1 }).quiesced 2 (stopped (w0.block 2)) = false
    ∧ (((wBlock stopped [2]).releaseAt 0 .die).slotPages 0 0 0 true).2.isSome = true := by decide

/-- An open queue whose ring is not served yet; its doorbell, without a link, with one, and of a tail beyond what the ring holds. -/
def wUnserved : State := { wQueue 1 0x300000 with level := 2, links := [0] }
def wDoor (tail : Nat) : State := { wQueue tail 0x300000 with links := [0] }

theorem witness_PourQueues_unserved : (wUnserved.qcfg 1).getLsbD 0 = true ∧ (wUnserved.qcfg 1).getLsbD 8 = true
    ∧ wUnserved.isMemory (queueBase (wUnserved.qcfg 1)) 64 = true ∧ wUnserved.memReady (queueBase (wUnserved.qcfg 1)) = false ∧ (wQueue 0 0).links = []
    ∧ (wDoor 1).links ≠ [] ∧ 2 ≤ (wDoor 1).level ∧ (wDoor 1).memReady (queueBase ((wDoor 1).qcfg 1)) = true
    ∧ (wDoor 1).homeN (queueBase ((wDoor 1).qcfg 1) + 8) 8 ≤ (wDoor 1).homeN (queueBase ((wDoor 1).qcfg 1)) 8 + queueSize ((wDoor 1).qcfg 1)
    ∧ (wDoor 99).homeN (queueBase ((wDoor 99).qcfg 1)) 8 + queueSize ((wDoor 99).qcfg 1) < (wDoor 99).homeN (queueBase ((wDoor 99).qcfg 1) + 8) 8 := by decide

/-- A POUR whose wait for its group's accesses is over. -/
theorem witness_PourQueues_woken :
    ((wQueue 0 0).modSpl fun p => { p with woke := some (.fence 9 .die true), answer := some (false, 0x40, 0) }).spl.woke = some (.fence 9 .die true) := by decide

/-- A co-resident pour at the head, that fits, on a die that drains and on one that does not; and PLCORE with a link. -/
theorem witness_PlacementResult_links : ({ wHosted with links := [0] } : State).links ≠ [] ∧ wHosted.links = []
    ∧ (({ wHosted with links := [0] } : State).setReg 0 0x0C8 8).pending 0 = [work0]
    ∧ ((wPlace 0x10000000 1).launch 50).dies.filter (fun e => !((wPlace 0x10000000 1).workOf 50 e).isEmpty) = [0]
    ∧ (wPlace 0x10000000 1).draining 0 = false ∧ 50 ∉ ((wPlace 0x10000000 1).die 0).held ∧ (wPlace 0x10000000 1).workOf 50 0 = [work0]
    ∧ ((wPlace 0x10000000 1).dieTakes work0 0 ((wPlace 0x10000000 1).mayPlace 0)).isSome = true
    ∧ ((wPlace 0x10000000 1).setReg 0 0x090 1).draining 0 = true
    ∧ (wSaved.saved.find? 55).isSome = true ∧ (saved0.slots.any fun j => wSaved.slotWaits 0 0 j.2) = false := by decide

/-- Two casts that wait for a cluster, the first of which has gone. -/
def wClaims : State := (wPlace 0 1).modDie 0 fun x => { x with claims := [((49, 0), [0]), ((50, 0), [0, 1])] }
theorem witness_ReservationAndPreemption_claims : (wClaims.die 0).claims = [((49, 0), [0])] ++ ((50, 0), [0, 1]) :: []
    ∧ (∀ w ∈ wClaims.pending 0, (w.launch, w.castId) = (50, 0)) ∧ wClaims.pending 0 ≠ [] ∧ 0 ∈ ([0, 1] : List Nat) := by decide

/-! ### Witnesses: the pool, the clock, splits and accesses -/

/-- A parked group whose event has fired, in a block with room for one group; its other group as given. -/
def wPark (f : Group → Group) : State :=
  let l : Launch := { launch0 0 with words := (rec0 0).set 4 0x0404010102, started := true }
  { w0 with
    clk := 5000, launches := [(0, l)], blocks := w0.blocks.modify 2 fun b => { b with groups := [3, 10] }
    groups := [(3, f (w0.group 3)), (10, { w0.group 3 with resident := false, firedAt := some 0, stuckAt := some 0 })] }
def waitsBar (g : Group) : Group := { g with splits := [(0, { g.split 0 with st := .waiting (.bar 1 0) })] }

theorem witness_ParkingResult : (wPark id).groups.find? 10 = some { w0.group 3 with resident := false, firedAt := some 0, stuckAt := some 0 }
    ∧ (w0.group 3).ended = false ∧ (w0.group 3).resident = true
    ∧ (wPark fun g => { g with ended := true }).roomFor ((wPark id).group 10) = true ∧ (wPark id).roomFor ((wPark id).group 10) = false
    ∧ (∀ p ∈ (wPark id).residents 2, (wPark id).parkable p.2 = false ∧ p.1 ≠ 10) ∧ (∃ p ∈ (wPark id).residents 2, (wPark id).quietGroup p.2 = true)
    ∧ (wPark waitsBar).roomFor ((wPark waitsBar).group 10) = false ∧ (∃ p ∈ (wPark waitsBar).residents 2, (wPark waitsBar).parkable p.2 = true)
    ∧ ((wPark waitsBar).park 3).roomFor ((wPark waitsBar).group 10) = true
    ∧ (∀ p ∈ (wPark fun g => { g with lcnt := 1 }).residents 2, (wPark fun g => { g with lcnt := 1 }).quietGroup p.2 = false)
    ∧ 0 + 4096 ≤ (wPark id).clk := by decide

/-- An idle core at the 15th and at the 16th clk; a gated one; one that woke and has not issued. -/
def wIdle (n : Nat) (f : Core → Core) : State := { w0 with clk := n }.modCore 5 f

theorem witness_ClockAndDoorbell : ((wIdle 16 id).core 5).gated = false ∧ (wIdle 16 id).coreIdle 5 = true ∧ ((wIdle 16 id).core 5).idleFrom + 16 ≤ 16
    ∧ 15 < ((wIdle 15 id).core 5).idleFrom + 16 ∧ ((wIdle 16 id).core 5).woken = false ∧ w0.coreIdle 0 = false
    ∧ ((wIdle 16 fun k => { k with gated := true }).core 5).gated = true
    ∧ ((wIdle 16 fun k => { k with woken := true }).core 5).gated = false ∧ ((wIdle 16 fun k => { k with woken := true }).core 5).woken = true := by
  decide

/-- The group of wTwo with splits changed. -/
def wSplits (p q : Split → Split) : State := wTwo.modGrp fun g => { g with splits := [(0, p (g.split 0)), (1, q (g.split 1))] }
def trap0 : Trap := ⟨0x13, 4, 7, 1, 0, .none⟩
def trapped0 (p : Split) : Split := { p with st := .trapped trap0 9 }
def sameOff (p : Split) : Split := { p with off := 0 }

theorem witness_SplitEvents : [wSplits trapped0 id, wSplits id sameOff, wSplits id id].all (fun s =>
      (s.groups.find? 3).isSome && ((s.group 3).splits.find? 0).isSome && ((s.group 3).splits.find? 1).isSome && (s.group 3).handler.isNone) = true
    ∧ ((wSplits trapped0 id).group 3).firstTrapped = some (0, trap0)
    ∧ ((wSplits trapped0 id).group 3).latePending (wSplits trapped0 id).clk (((wSplits trapped0 id).group 3).split 0).owned = false
    ∧ ((wSplits id id).group 3).firstTrapped = none ∧ ((wSplits id sameOff).group 3).sameSpot 0 1 = true
    ∧ (((wSplits id sameOff).group 3).split 0).st = .ready ∧ (((wSplits id sameOff).group 3).split 1).st = .ready
    ∧ (((wSplits id sameOff).group 3).split 0).atStart = true ∧ (((wSplits id sameOff).group 3).split 1).atStart = true
    ∧ (((wSplits (fun p => { p with woke := some (.rcv none none) }) sameOff).group 3).split 0).atStart = false
    ∧ ((wSplits id sameOff).group 3).defCount = 0 ∧ ((wSplits id id).group 3).sameSpot 0 1 = false ∧ ((wSplits id id).group 3).resident = true
    ∧ (((wSplits id id).group 3).split 0).candAt + 256 ≤ 300 ∧ (wSplits id id).clk < (((wSplits id id).group 3).split 0).candAt + 256 := by decide

/-- Results that land at clk 4, and a split in each timed wait that ends at clk 4. -/
def wTimed (w : Wait) (n : Nat) : State :=
  { w0.modGrp (fun g => { g with late := [⟨.vec, 3, 0, 0, 4, 1, 0⟩], splits := [(0, { g.split 0 with st := .waiting w })] }) with clk := n }

theorem witness_TimedWaits : [Wait.rcv (some 4) none, .sleep 4 false 0, .line 0x3000 none (some 4)].all (fun w => [3, 4].all fun n =>
      let s := wTimed w n
      (s.groups.find? 3).isSome && (s.group 3).late[0]? == some ⟨.vec, 3, 0, 0, 4, 1, 0⟩ && decide (((s.group 3).split 0).readyAt ≤ s.clk)
        && ((s.group 3).split 0).st == .waiting w && !s.mergesFirst 3 0 w) = true
    ∧ (let s := { (wSplits (fun p => { p with st := .waiting (.rcv (some 0) none) }) sameOff) with clk := 4 }
       s.mergesFirst 3 0 (.rcv (some 0) none) = true) := by decide

/-- An access whose parts have been performed, for each kind of destination; and parts in another block's scratchpad. -/
def acc0 (k : AccKind) (sp : Space) (d : AccDst) (ldf : Option (Nat × Mask × Mask × Mask)) (ps : List Piece) : Acc :=
  { since := 5, kind := k, space := sp, size := 4, zext := false, order := .none, scope := .grp, dst := d, ldf := ldf, pieces := ps }
def part0 (dst : Nat) (st : PieceSt) : Piece := ⟨0, 8, 77, false, false, 0, dst, st, 0, some 4⟩
def wAcc (a : Acc) : State := { w0.modGrp (fun g => { g with accs := [(5, a)], lcnt := 1 }) with blocks := w0.blocks ++ [(77, w0.block 2)], uid := 80 }

theorem witness_AccessEvents : (∀ a ∈ [acc0 .load .mem .vec none [part0 3 (.ready 7 false)], acc0 .load .mem .vec (some (4, 1, 1, 0)) [part0 3 (.ready 7 true)],
        acc0 .load .mem .uni none [part0 3 (.ready 7 false)], acc0 .load .mem .tile none [part0 1024 (.ready 7 false)]],
      (wAcc a).groups.find? 3 = some ((wAcc a).group 3) ∧ ((wAcc a).group 3).accs.find? 5 = some a ∧ a.dst ≠ .none
      ∧ (∀ p ∈ a.pieces, (match p.st with | .ready .. => true | _ => false) = true ∧ p.data = 0)
      ∧ (a.dst = .vec → ∀ p ∈ a.pieces, p.dst < 128 ∧ ((wAcc a).group 3).wasClobbered 5 .vec p.dst p.lane = false)
      ∧ (a.pieces.map fun p => (p.dst, p.lane)).Nodup ∧ ((wAcc a).group 3).wasClobbered 5 .uni 3 0 = false
      ∧ ((wAcc a).group 3).wasClobbered 5 .uni 4 0 = false ∧ ((wAcc a).group 3).wasClobbered 5 .tile 1 0 = false)
    ∧ (∀ k ∈ [AccKind.load, .store],
      let a := acc0 k .window (if k = .load then .vec else .none) none [part0 3 .sent]
      remotePiece ((wAcc a).group 3) a (part0 3 .sent) = true ∧ (wAcc a).behind 3 5 0 = false ∧ (wAcc a).pieceReady ((wAcc a).group 3) 5 0 = true
      ∧ ((wAcc a).blocks.find? 77).isSome = true)
    ∧ (let a := acc0 .load .window .vec none [part0 3 (.served 7 false 9)]
       (wAcc a).groups.find? 3 = some ((wAcc a).group 3) ∧ ((wAcc a).group 3).accs.find? 5 = some a ∧ a.pieces[0]? = some (part0 3 (.served 7 false 9)))
    ∧ remotePiece w0.grp (acc0 .load .scratch .vec none []) (part0 3 .sent) = false := by decide

/-! ### Witnesses: translation, caches and publication -/

/-- As wWalk, with a page at 0x20000 of a generation that no slice holds. -/
def wStale : State := wWalk.modCore 0 fun k => { k with tlb := ⟨0, 1, 0x20000, 4096, 0x20000, kPrivate, true, true, false, true, noLeaf⟩ :: k.tlb }

theorem witness_TranslationEvents : (wStale.reg (dieOfCore 0) 0x000).getLsbD 0 = true ∧ wStale.tlbFind 0 0 0x10000 = none
    ∧ astValid (wStale.astEntry 0 0) = true ∧ wStale.hostWalk 0 = false ∧ wStale.walk 0 (wStale.astEntry 0 0) 0x10000 = .leaf 0x220000 0x31F 31
    ∧ wStale.walk 0 (wStale.astEntry 0 0) (3 * 2 ^ 31) = .fail 0 31 ∧ astValid (wStale.astEntry 0 5) = false
    ∧ (wStale.tlbFind 0 0 0x20000).any (fun x => x.kind != kFabric && x.gen != wStale.sliceGen (dieOfPa (x.frame % 2 ^ 44)) 0) = true
    ∧ (wStale.tlbFind 0 0 0x1000).any (fun x => x.gen == wStale.sliceGen (dieOfPa (x.frame % 2 ^ 44)) 0) = true
    ∧ wStale.walk 0 (wStale.astEntry 0 0) 0x20000 = .leaf 0x220000 0x31F 31 := by decide

/-- A split that found the fault ring full, and that waits on entry 0; the ring full and not. -/
def wFaulted (es : List Nat) (ptr : Word) : State :=
  let s := w0.modGrp fun g => { g with splits := [(0, { g.split 0 with st := .faulted 1 es 2 false none 0x9000 })] }
  (s.setReg 0 0x020 ptr).modDie 0 fun x => { x with faults := es.map fun k => (k, ⟨0, 0, 0x9000, 0x9000, 4096, 0, 0⟩) }

theorem witness_TranslationEvents_faults : ((wFaulted [] 0).group 3).splits.find? 0 = some { w0.spl with st := .faulted 1 [] 2 false none 0x9000 }
    ∧ dieOfCore ((wFaulted [] 0).group 3).cx.core = 0
    ∧ (wbits ((wFaulted [] 0).reg 0 0x020) 31 0 + 1) % (wFaulted [] 0).fqSize 0 ≠ wbits ((wFaulted [] 0).reg 0 0x020) 63 32 % (wFaulted [] 0).fqSize 0
    ∧ (wbits ((wFaulted [] 0x100000000).reg 0 0x020) 31 0 + 1) % (wFaulted [] 0x100000000).fqSize 0
      = wbits ((wFaulted [] 0x100000000).reg 0 0x020) 63 32 % (wFaulted [] 0x100000000).fqSize 0
    ∧ (((wFaulted [0] 1).die 0).faults.find? 0) = some ⟨0, 0, 0x9000, 0x9000, 4096, 0, 0⟩ ∧ ((wFaulted [0] 1).die 0).faults.find? 1 = none
    ∧ wbits (0x300000000 : Word) 33 32 = 3 ∧ wbits (0x200000000 : Word) 33 32 = 2 ∧ wbits (0 : Word) 33 32 = 0
    ∧ (wFaulted [0] 1).waiters 0 0 = [(3, 0)] ∧ ((wFaulted [0] 1).group 3).handler = none ∧ ((wFaulted [0] 1).group 3).firstTrapped = none
    ∧ (((wFaulted [0] 1).group 3).split 0).woke = none
    ∧ ((wFaulted [0] 1).group 3).latePending (wFaulted [0] 1).clk (((wFaulted [0] 1).group 3).split 0).owned = false := by decide

/-- A line of memory with dirty bytes in both caches, and all of it held in the cluster's. -/
def wLines : State :=
  (w0.setLine (.l1 0) 64 ⟨3, 1, 0xAB, 0, []⟩).setLine (.cc 0) 64 ⟨BitVec.allOnes 64, 2, 0xCD00, 0, []⟩

theorem witness_CacheTraffic : wLines.isMemory (64 * 64) 64 = true ∧ wLines.memReady (64 * 64) = true ∧ ((wLines.line (.cc 0) 64).dirty.getLsbD 0) = false
    ∧ ((wLines.line (.l1 0) 64).dirty.getLsbD 1) = false ∧ (wLines.line (.cc (clusterOfCore 0)) 64).holds 0 64 = true
    ∧ wLines.isMemory (64 * 2 ^ 31) 64 = false
    ∧ ((wLines.line (.l1 0) 64).unit 0).getLsbD 0 = true ∧ ((wLines.line (.cc 0) 64).unit 1).getLsbD 1 = true
    ∧ (∀ j, j < 8 → (wLines.line (.l1 0) 64).sizes.getD 1 j = 1)
    ∧ (let l : Line := { wLines.line (.l1 0) 64 with sizes := (List.range 8).map fun j => (j, 8) }
       (∀ j, j < 8 → l.sizes.getD 1 j = 8) ∧ l.dirty.getLsbD 0 = true) := by decide

/-- A publication and a write-back in progress; with an access of the address space outstanding, and without. -/
def wGen (s : State) : State := s.modDie 0 fun x => { x with genset := some (0, 3, 100), hflush := some 0 }

def wHost (s : State) : State := { s with links := [0] }

theorem witness_PublicationAndFlush : (wHost w0).links ≠ [] ∧ w0.links = [] ∧ ((wHost w0).die 0).genset = none ∧ ((wHost w0).die 0).hflush = none
    ∧ w0.memReady (wbits (w0.reg 0 0x000) 43 20 * 2 ^ 20 + 16 * wbits (0x30005 : Word) 15 0 + 8) = true
    ∧ ({ wHost w0 with level := 2 } : State).memReady (wbits (w0.reg 0 0x000) 43 20 * 2 ^ 20 + 16 * wbits (0x30005 : Word) 15 0 + 8) = false ∧ (w0.die 0).genset = none ∧ (w0.die 0).hflush = none ∧ ((wGen w0).die 0).genset = some (0, 3, 100)
    ∧ ((wGen w0).die 0).hflush = some 0
    ∧ w0.isMemory (wbits (w0.reg 0 0x000) 43 20 * 2 ^ 20 + 16 * wbits (0x30005 : Word) 15 0 + 8) 8 = true
    ∧ (∃ g ∈ (wGen wLds).groups, g.2.cx.asid = 0 ∧ ∃ k ∈ g.2.accs, k.1 < 100 ∧ k.2.pending = true)
    ∧ ¬(∃ g ∈ (wGen w0).groups, g.2.cx.asid = 0 ∧ ∃ k ∈ g.2.accs, k.1 < 100 ∧ k.2.pending = true) := by decide

/-! ### Witnesses: registers of a die, links and errors -/

/-- A reservation of the launch with a claim behind it; a launch with a range on a die that is to drain and another die in its mask; a suspect granule. -/
def wPassOn : State :=
  { wHost wClaims with
    clusters := [(0, { Cluster.reset with reserved := some (49, 0) })]
    launches := [(50, { launch0 0 with words := (rec0 0).set 13 (BitVec.ofNat 64 0x100000003), ranges := [(0, 0, 1), (1, 1, 2)], started := true })]
    saved := [(55, saved0)], casts := [(1, ⟨50, 0, 1, [], []⟩)] }

theorem witness_ControllerRequests_drain : wPassOn.draining 0 = false ∧ ((wPassOn.launch 50).dies.filter (fun k => decide (0 < k))
      ++ (wPassOn.launch 50).dies.filter fun k => decide (k < 0)).find? (fun k => !wPassOn.draining k) = some 1
    ∧ (wPassOn.launch 50).coRes = false ∧ wPassOn.launches.find? 50 = some (wPassOn.launch 50) ∧ wPassOn.saved.find? 55 = some saved0
    ∧ (∀ y ∈ wPassOn.saved, y.1 = 55 → y.2 = saved0) ∧ saved0.die = 0 ∧ (wPassOn.castOf saved0.cast).launch = 50
    ∧ (wPassOn.cluster 0).reserved.any (·.1 == 49) = true ∧ 0 ∈ clustersOf 0 ∧ wPassOn.links ≠ []
    ∧ (w0.modCore 0 fun k => { k with suspect := [7] }).suspectUnits 0 ≠ [] ∧ w0.suspectUnits 0 = [] := by decide

theorem witness_ControllerRequests : w0.preemptBusy 0 = false ∧ (wBlock id [2]).preemptBusy 0 = true
    ∧ w0.launchOf (1 : BitVec 32).toNat = some (0, w0.launch 0) ∧ w0.launchOf (9 : BitVec 32).toNat = none
    ∧ w0.draining 0 = false ∧ (w0.setReg 0 0x090 1).draining 0 = true
    ∧ w0.launches.find? 0 = some (w0.launch 0) ∧ w0.placedOn 0 = true ∧ w0.placedOn 1 = false
    ∧ ((w0.modDie 0 fun x => { x with pend := 0x7F }).die 0).pend.getLsbD 0 = true ∧ (w0.die 0).pend.getLsbD 0 = false
    ∧ (∀ n, n < 7 → (w0.modDie 0 fun x => { x with pend := 0x7F }).functionIdle 0 n = true) ∧ (wFaulted [0] 1).functionIdle 0 1 = false
    ∧ (w0.die 0).mode.getLsbD 6 = false ∧ ((w0.modDie 0 fun x => { x with mode := 0x40 }).die 0).mode.getLsbD 6 = true
    ∧ (∃ l ∈ wPair.launches, l.2.coRes = false) := by decide

/-- A register that is plain storage and one that is not; a reserved offset; a watch of a doubleword that is 0 and of a line. -/
theorem witness_RegisterWrites : plainMask 0 0x0B0 = some (bitRange 63 0) ∧ plainMask 0 0x090 = none ∧ mmioAt 0 0x50000 = .reserved
    ∧ w0.isMemory 0x1000 8 = true ∧ (w0.reg w0.watchDie (0x1000 + 8)) = 0
    ∧ ((wbits (w0.reg w0.watchDie (0x1000 + 8)) 2 0 = 7) ↔ ((0x8000000000001000 : Word).getLsbD 62 = true))
    ∧ watchHolds 0 (BitVec.ofNat 64 (w0.homeN 0x1000 8)) (w0.reg w0.watchDie (0x1000 + 16)) = true
    ∧ ¬watchHolds 0 (BitVec.ofNat 64 ((wDone.setReg 0 (0x1000 + 16) 5).homeN 0x1000 8)) ((wDone.setReg 0 (0x1000 + 16) 5).reg 0 (0x1000 + 16)) = true
    ∧ wbits ((w0.setReg 0 0x1008 7).reg 0 0x1008) 2 0 = 7 ∧ wbits (BitVec.ofNat 64 (wDone.homeN (0x3000 + 8) 4)) 4 0 ≠ 0
    ∧ (0x8000000000001000 : Word).getLsbD 63 = true ∧ (0xC000000000003000 : Word).getLsbD 62 = true
    ∧ ({ w0 with links := [0] } : State).links.contains 0 = true
    ∧ w0.isMemory (wbits (w0.reg 0 0x0E0) 43 30 * 2 ^ 30 + 0x1000) 4 = true ∧ w0.memReady (wbits (w0.reg 0 0x0E0) 43 30 * 2 ^ 30 + 0x1000) = true := by decide

/-- A request, a doorbell and a watch that wait for memory which level 3 serves. -/
def wRise : State :=
  { (wDone.setReg 0 (0x1000 + 8) 7).setReg 0 0x1000 0xC000000000003000 with level := 2, hostWaits := [⟨0, 0x1000, []⟩], doorWaits := [1] }

theorem witness_LinksLevelsResets : w0.groups.find? 3 = some (w0.group 3) ∧ dieOfCore (w0.group 3).cx.core = 0
    ∧ (wRise.hostWaits.filter fun x => ({ wRise with level := 3 } : State).memReady x.pa).length = 1 ∧ wRise.memReady 0x3000 = false
    ∧ ({ wRise with level := 3 } : State).memReady 0x3000 = true ∧ (wRise.reg 0 0x1000).getLsbD 63 = true
    ∧ wbits (BitVec.ofNat 64 (wRise.homeN (0x3000 + 8) 4)) 4 0 ≠ 0 := by decide

/-- The watch fires, and the request and the doorbell no longer wait. -/
theorem test_level_rise : (after .serviceLevelRise wRise).hostWaits = [] ∧ (after .serviceLevelRise wRise).doorWaits = []
    ∧ ((after .serviceLevelRise wRise).reg 0 0x1000).getLsbD 63 = false ∧ (after .serviceLevelRise wRise).hostMsgs.length = 2 := by decide

theorem witness_StorageErrors_twice : ((w0.modDie 0 fun x => { x with portSuspect := [0], memSuspect := [5] }).die 0).portSuspect.contains 0 = true
    ∧ ((w0.modDie 0 fun x => { x with memSuspect := [5] }).die 0).memSuspect.contains 5 = true
    ∧ ((w0.modDie 0 fun x => { x with llcSuspect := [llcName 5 false] }).die 0).llcSuspect.contains (llcName 5 true) = false
    ∧ ((w0.modDie 0 fun x => { x with llcSuspect := [llcName 5 false] }).die 0).llcSuspect.contains (llcName 5 false) = true
    ∧ w0.hostClasses 0 = false ∧ (w0.modDie 0 fun x => { x with mode := 0x40 }).hostClasses 0 = true
    ∧ ((w0.modCore 5 fun k => { k with doubted := true }).core 5).doubted = true ∧ (w0.core 5).doubted = false
    ∧ ((w0.modGrp fun g => { g with resident := false }).group 3).resident = false := by decide

theorem witness_StorageErrors : w0.groups.find? 3 = some (w0.group 3) ∧ w0.blocks.find? 2 = some (w0.block 2)
    ∧ 0 < (((wMail .recv 1).core 0).box 5).items.length ∧ (w0.line (.l1 0) 64).wordDirty (0x1000 / 8 % 8) = false
    ∧ (wLines.line (.l1 0) 64).wordDirty (0x1000 / 8 % 8) = true ∧ (wLines.cluster 0).suspect.contains (0x1000 / 64 % 8192) = false
    ∧ (w0.die (dieOfCore 5)).mode.getLsbD 6 = false ∧ ((w0.modDie 0 fun x => { x with mode := 0x40 }).die 0).mode.getLsbD 6 = true
    ∧ (∀ p ∈ w0.blocksOn 5, 7 ∉ p.2.granules) ∧ ((w0.modCore 5 fun k => { k with suspect := [7] }).core 5).suspect.contains 7 = true
    ∧ (∃ p ∈ w0.blocksOn 0, 7 ∈ p.2.granules) ∧ (w0.core 5).suspect.contains 7 = false := by decide

/-! ### Witnesses: the machine as a whole -/

/-- The word of NOP where the next step fetches. -/
def wNop : State := State.reset.withFetchWord 32 0x8100001F

theorem witness_StepRunsDecoded : wNop.agenda = .issue 3 0 :: []
    ∧ (let s0 := ({ wNop with agenda := [] } : State).openIssue 3 0
       let s1 := s0.modSpl fun p => { p with resumed := false }
       (s0.grp.splits.find? 0).any (fun p => !p.resumed && p.off == 0 && s0.grp.occupied p.owned == [0]) = true ∧ 0 < s0.grp.regionLen
       ∧ (match (s1.fetchInstr 3 0 0).2 with
          | .words ws => ws == [0x8100001F] && !planeVariant ws && (match decodeWords ws with | .ok (c, n) => c == ⟨none, 0, .nop⟩ && n == 1 | _ => false)
          | _ => false) = true) := by decide

theorem witness_StepRunsDecoded_fetch : 0 < (wNop.group 3).regionLen ∧ (wNop.group 3).codeVa 0 0 < 2 ^ 56
    ∧ (wNop.reg (dieOfCore (wNop.group 3).cx.core) 0x000).getLsbD 0 = true
    ∧ (wNop.tlbFind 0 0 0).any (fun e => e.kind == kImmutable && e.x && e.gen == wNop.sliceGen (dieOfPa (e.frame % 2 ^ 44)) 0) = true
    ∧ wNop.memReady 0 = true ∧ (wordLS (BitVec.ofNat 32 (wNop.homeN 0 4))).toNat ≠ 1 ∧ (wordLS (BitVec.ofNat 32 (wNop.homeN 0 4))).toNat ≠ 2
    ∧ (wNop.line (.ic 0) 0).holds 0 4 = false ∧ ((wNop.fetchIc 0 0).line (.ic 0) 0).holds 0 4 = true ∧ wNop.mayIssue 3 0 = true
    ∧ (wNop.modGroup 3 fun g => { g with resident := false }).mayIssue 3 0 = false ∧ ((wNop.openIssue 3 0).grp.split 0).part = none
    ∧ ((wNop.openIssue 3 0).grp.split 0).atLoopEnd = false ∧ isEvent .serviceLevelRise = true := by decide

/-- A line of the instruction cache keeps the word that it fetched when the word at home changes (R97, R303). -/
theorem test_store_into_code :
    let s := (wNop.fetchIc 0 0).homeWrite 0 [0x40, 0, 0, 0]
    (s.line (.ic 0) 0).byte 0 = 0x1F ∧ s.homeN 0 4 = 0x40 := by decide

theorem witness_DecodeEncode : (⟨some ⟨2, 1, false⟩, 0, .fadd ⟨4, 5, .vec 6, .bf16⟩⟩ : Coded).wf = true ∧ (⟨none, 3, .radd ⟨6, 2, 4, 1, .i64, some 20⟩⟩ : Coded).wf = true := by
  decide

/-- The step of the NOP, which goes on to the next instruction. -/
theorem witness_StepKeepsMemoryCanonical : wNop.mem.wf = true
    ∧ (match step wNop with | .next t => ((t.group 3).split 0).off == 4 && t.agenda.isEmpty | _ => false) = true := by decide
/-! ### Witnesses: further clauses -/

theorem witness_LadleCommands_ready : tileCmd.stales.find? 0 = none ∧ wPiece.memReady 0x1000 = true := by decide

/-- A list without entries, with its batch open; and one that reports to a phase barrier. -/
theorem witness_RiddleCommands_empty :
    [0, 0x1FFF9].all (fun cw => (riddleOf (.hins ⟨2, 44, 45, false⟩) (setU (setU (wSlot 0 desc0) 44 0x100) 45 cw)).any fun f =>
      f.empty && !f.bad && f.reason.isNone && wbits f.cw 1 0 == cw.toNat % 4) = true
    ∧ ((riddleOf (.hins ⟨2, 44, 45, false⟩) (wSlot 0 desc0)).map fun f => f.empty) = some false
    ∧ (wSlot 0 desc0).grp.closed.contains (wSlot 0 desc0).grp.bseq.toNat = false := by decide

/-- A packet within the node and one for another, with and without a port, below and at level 3, and paced. -/
def wPaced (t : Nat) : State := wRem.modDie 0 fun x => { x with mode := 0x10, lastSent := [(wRem.nodeId 0 * 32, t)], regs := x.regs.insert 0x0A0 (2 ^ 48) }
def farPkt : Packet := pkt 0x20 0x10 (wRem.nodeId 0 * 2 ^ 44 + 2 ^ 44 + 0x3000) []

theorem witness_RemoteSends_attempt : nodeOf (pkt 0x20 0x10 0x3000 []).target = wRem.nodeId 0 ∧ nodeOf farPkt.target ≠ wRem.nodeId 0 ∧ farPkt.sdie = some 0
    ∧ ({ wRem with level := 2 } : State).level ≠ 3 ∧ (∀ p, p < 32 → ({ wRem with level := 3 } : State).usablePort p = false) ∧ ({ wPort with level := 3 } : State).usablePort 0 = true
    ∧ (wRem.die 0).mode.getLsbD 4 = false ∧ ((wPaced 0).die 0).mode.getLsbD 4 = true
    ∧ ((wPaced 0).die 0).lastSent.find? (pkt 0x20 0x10 (wRem.nodeId 0 * 2 ^ 44 + 0x3000) []).home = some 0
    ∧ (wPaced 0).clk < 0 + wbits ((wPaced 0).reg 0 0x0A0) 63 48 * 400
    ∧ ¬({ wPaced 0 with clk := 400 } : State).clk < 0 + wbits ((wPaced 0).reg 0 0x0A0) 63 48 * 400 := by decide

/-- A CRRD that waits for its lines: a snapshot that is taken next, and one that has been taken. -/
def wLines1 : State := after (.crrd ⟨6, 2, 22, 0, .f32⟩) wRem
def wLines2 : State :=
  let s := { wLines1 with cur := wRem.cur }.performAt 3 wRem.uid 0 false
  s.modSpl fun p => { p with st := .ready, woke := some (.lines wRem.uid) }

theorem witness_CrucibleAndLineWaits_snapshot : wRem.spl.woke = none ∧ lanesOf wRem.cur.mask ≠ []
    ∧ wLines1.pieceReady (wLines1.group 3) wRem.uid 0 = true
    ∧ ((wLines1.group 3).accs.find? wRem.uid).any (fun a => (match a.kind with | .crucible .. => true | _ => false) && a.space == .mem && a.order == .none
      && a.size == 64 && a.dst == .crucible && a.pieces.length == 1 && a.pieces.all fun p => p.home && p.addr % 64 == 0) = true
    ∧ wLines2.spl.woke = some (.lines wRem.uid) ∧ ((wLines2.group 3).accs.find? wRem.uid).any (fun a => a.ready && a.pieces.length == 1) = true
    ∧ lanesOf wLines2.cur.mask = [0] := by decide

/-- WAITA whose wait has ended with an answer and without. -/
theorem witness_CrucibleAndLineWaits_ended : [none, some (true, (0 : Word), (16 : Word))].all (fun a =>
      let s := (wWoke (.line 0x3000 none none)).modSpl fun p => { p with answer := a }
      s.spl.woke == some (.line 0x3000 none none) && s.spl.answer == a) = true := by decide

/-- The translation that a stale packet takes again: it stands, and fails. -/
theorem witness_ResponsesAtSender_renewed :
    (wWalk.renewed 0 { pkt 0x20 0x10 0x100003000 [] with va := some 0x100003000 }).isSome = true
    ∧ wRem.renewed 0 { pkt 0x20 0x10 0x3000 [] with va := some (3 * 2 ^ 40) } = none
    ∧ (0 : Nat) = dieOfPa (paOf 0x3000) ∧ nodeOf (wRem.nodeId 0 * 2 ^ 44 + 0x3000) = wRem.nodeId 0 ∧ nodeOf farPkt.target ≠ wRem.nodeId 0 := by decide

/-- POUR after its wait; a ring whose tail passes its size; slots that do not wait. -/
theorem witness_PourQueues_more : (wWoke (.fence 0 .die true)).spl.woke = some (.fence 0 .die true)
    ∧ ((wWoke (.fence 0 .die true)).modSpl fun p => { p with answer := some (false, 7, 0) }).spl.answer = some (false, 7, 0)
    ∧ (wQueue 1 1).homeN 0x2008 8 ≤ (wQueue 1 1).homeN 0x2000 8 + queueSize ((wQueue 1 1).qcfg 1)
    ∧ (wQueue 9000 1).homeN 0x2000 8 + queueSize ((wQueue 9000 1).qcfg 1) < (wQueue 9000 1).homeN 0x2008 8 := by decide

theorem witness_PlacementResult_slots : (saved0.slots.any fun j => wSaved.slotWaits 0 saved0.home j.2) = false := by decide

/-- A block that is asked to stop, with its reason and without; and no save slot. -/
theorem witness_ReservationAndPreemption_asked :
    (wBlock (fun x => { x with asked := true }) []).mustStop 2 { w0.block 2 with asked := true } = false
    ∧ (wBlock (fun x => { x with asked := true }) [2]).mustStop 2 { w0.block 2 with asked := true } = true
    ∧ ({ wBlock id [2] with launches := [(0, { launch0 0 with started := true, words := (rec0 0).set 10 0 })] } : State).slotsFor [1] = none
    ∧ (wDue.pending 0).filter (fun w => decide ((wDue.launch w.launch).startedAt + 400000 ≤ wDue.clk)) = [work0] := by decide

/-- A look at a phase that its split waits for; an access of the owning core at the same bank; and an earlier reply. -/
def wLook (old : Bool) : State :=
  let a := { acc0 .load .window .phase none [{ part0 0 (.served 0x100000000 false 9) with addr := 8 }] with size := 8, zext := true }
  (wAcc a).modGrp fun g => { g with splits := [(0, { g.split 0 with st := .waiting (.phase 77 8 old (some 5)) })] }

theorem witness_AccessEvents_phase : [true, false].all (fun old => ((wLook old).group 3).splits.length == 1
      && ((wLook old).group 3).split 0 == { (w0.grp.split 0) with st := .waiting (.phase 77 8 old (some 5)) }
      && !(wLook old).replyBehind ((wLook old).group 3) 77 9) = true
    ∧ (wLook true).replyBehind ((wLook true).group 3) 77 10 = true ∧ (0x100000000 : Word).getLsbD 32 = true
    ∧ wRem.ownFirst (part0 3 .sent) = false := by decide

/-- A walk that ends at a HOST page. -/
theorem witness_TranslationEvents_host : (Tlb.ofLeaf 0 0 0x10000 0x220000 0x38F 31).kind = kHost ∧ (Tlb.ofLeaf 0 0 0x10000 0x220000 0x31F 31).kind ≠ kHost := by decide

/-- A set in use and a retired one; a copy of the instruction cache. -/
theorem witness_CacheTraffic_sets : wLines.noSet 0 64 = false
    ∧ (wLines.modCluster 0 fun k => { k with setsRet := [ccSet 64] }).noSet 0 64 = true := by decide

/-- A link that is up, and none; memory that is served and memory that waits. -/
theorem witness_RegisterWrites_links : ({ w0 with links := [] } : State).links = [] ∧ ({ w0 with links := [0] } : State).links ≠ [] ∧ ({ w0 with links := [0] } : State).links.contains 0 = true
    ∧ w0.isMemory 0x1000 8 = true ∧ w0.memReady 0x1000 = true ∧ w0.isMemory (24 * 2 ^ 39) 8 = false
    ∧ ({ w0 with level := 2 } : State).memReady 0x1000 = false := by decide

/-- Units that an error makes suspect, and that a second error retires. -/
theorem witness_StorageErrors_suspects : (w0.die 0).portSuspect.contains 0 = false
    ∧ ((w0.modDie 0 fun x => { x with portSuspect := [0] }).die 0).portSuspect.contains 0 = true
    ∧ (w0.cluster 0).suspect.contains 5 = false ∧ ((w0.modCluster 0 fun k => { k with suspect := [5] }).cluster 0).suspect.contains 5 = true
    ∧ (w0.die 0).memSuspect = [] ∧ (w0.group 3).resident = true := by decide
end Sys2Proof.Tests
end

section
/-! PROOFS. FP_EXCEPTION of lane and uniform instructions: the forms of lane and uniform instructions, and the trap that an enabled flag raises (O2). -/

namespace Sys2Proof.Machine

/-! ### Lane forms: what an instruction with a lane form does once its register checks have passed -/

/-- The end of an issue of a lane form: the flags of its active lanes, and, where none is enabled, the write (R24, R25). -/
def LaneForm.finish (f : LaneForm) (s : State) : State :=
  s.withFlags (fun k => (f.res s.srcs k).2) fun t => t.writeV f.d.toNat s.lanes f.lat fun k => (f.res s.srcs k).1

/-- A lane operation that may raise flags and computes a form's result is the end of that form's issue. -/
theorem LaneForm.finish_of_flagOp (f : LaneForm) {s : State} {g : State → Nat → Word × FpFlags} (hc : s.Clear s.lanes f.uses)
    (h : ∀ k, g s k = f.res s.srcs k) : s.laneFlagOp f.d f.uses f.lat g = f.finish s := by
  have hg : g s = f.res s.srcs := funext h
  obtain ⟨c1, c2, c3, c4⟩ := hc
  unfold State.laneFlagOp LaneForm.finish
  rw [s.guarded_clear _ _ _ c1 c2 c3 c4, hg]

/-- A lane operation that raises no flag and computes a form's result is the end of that form's issue. -/
theorem LaneForm.finish_of_op (f : LaneForm) {s : State} {g : State → Nat → Word} (hc : s.Clear s.lanes f.uses)
    (h : ∀ k, (g s k, 0) = f.res s.srcs k) : s.laneOp f.d f.uses f.lat g = f.finish s := by
  rw [laneOp_eq s _ _ _ _ hc]
  exact f.finish_of_flagOp hc h

/-- A named vector register, read as the register file of the sources holds it. -/
theorem readV_srcs {s : State} {lanes : Mask} {uses : List Use} (c : s.Clear lanes uses) (r : VReg)
    (h : (uses.any fun u => u.kind = .vec && u.num == r.toNat) = true) (k : Nat) : s.readV r.toNat k = s.srcs.v r.toNat k :=
  readV_named c r h k

/-- A named uniform register, read as the register file of the sources holds it. -/
theorem readU_srcs {s : State} {lanes : Mask} {uses : List Use} (c : s.Clear lanes uses) (r : UReg)
    (h : (uses.any fun u => u.kind = .uni && u.num == r.toNat) = true) : s.readU r.toNat = s.srcs.u r.toNat :=
  readU_named c r h

/-! One lemma for each shape of a lane instruction. -/

theorem fitBin_finish {s : State} (d a : VReg) (b : VSrc) (e : Elem) (f : Int → Int → Int)
    (hc : s.Clear s.lanes (fitForm d a b e f).uses) : s.fitBin d a b e f = (fitForm d a b e f).finish s := by
  refine LaneForm.finish_of_flagOp _ hc fun k => packFlags_congr fun j hj => ?_
  simp only [elemVal]
  rw [readV_srcs hc a (by simp [fitForm, rdV]), readB_elem hc e.w b (by simp [fitForm]) k j hj]
  rfl

theorem laneFit1_finish {s : State} (d a : VReg) (e : Elem) (f : Int → Int) (hc : s.Clear s.lanes (fitForm1 d a e f).uses) :
    (s.laneFit d [rdV a] e fun s i j => f (elemVal e j (s.readV a.toNat i))) = (fitForm1 d a e f).finish s := by
  refine LaneForm.finish_of_flagOp (fitForm1 d a e f) hc fun k => packFlags_congr fun j _ => ?_
  dsimp only
  rw [readV_srcs hc a (by simp [fitForm1, rdV])]
  rfl

theorem valBin_finish {s : State} (d a : VReg) (b : VSrc) (e : Elem) (f : Int → Int → Nat)
    (hc : s.Clear s.lanes (valForm d a b e f).uses) : s.valBin d a b e f = (valForm d a b e f).finish s := by
  refine LaneForm.finish_of_op _ hc fun k => Prod.ext (packElems_congr fun j hj => ?_) rfl
  simp only [elemVal]
  rw [readV_srcs hc a (by simp [valForm, rdV]), readB_elem hc e.w b (by simp [valForm]) k j hj]

theorem patBin_finish {s : State} (d a : VReg) (b : VSrc) (w : Nat) (f : Nat → Nat → Nat)
    (hc : s.Clear s.lanes (patForm d a b w f).uses) : s.patBin d a b w f = (patForm d a b w f).finish s := by
  refine LaneForm.finish_of_op _ hc fun k => Prod.ext (packElems_congr fun j hj => ?_) rfl
  dsimp only
  rw [readV_srcs hc a (by simp [patForm, rdV]), readB_elem hc w b (by simp [patForm]) k j hj]

theorem patUn_finish {s : State} (d a : VReg) (w : Nat) (f : Nat → Nat) (hc : s.Clear s.lanes (patForm1 d a w f).uses) :
    s.patUn d a w f = (patForm1 d a w f).finish s := by
  refine LaneForm.finish_of_op _ hc fun k => Prod.ext (packElems_congr fun j _ => ?_) rfl
  dsimp only
  rw [readV_srcs hc a (by simp [patForm1, rdV])]

theorem laneShift_finish {s : State} (o : LaneShift) (f : Nat → Nat → Nat) (hc : s.Clear s.lanes (shiftForm o f).uses) :
    s.laneShift o f = (shiftForm o f).finish s := by
  obtain ⟨d, a, k, e⟩ := o
  cases k with
  | reg b => exact patBin_finish d a b e.w f hc
  | imm k => exact patUn_finish d a e.w (fun x => f x k.toNat) hc

theorem fpBin_finish {s : State} (d a : VReg) (b : VSrc) (e : Elem) (f : FpCtx → Nat → Nat → Nat × FpFlags)
    (hc : s.Clear s.lanes (fpForm2 d a b e f).uses) : s.fpBin d a b e f = (fpForm2 d a b e f).finish s := by
  refine LaneForm.finish_of_flagOp (fpForm2 d a b e f) hc fun k => packFlags_congr fun j hj => ?_
  dsimp only
  rw [readV_srcs hc a (by simp [fpForm2, rdV]), readB_elem hc e.w b (by simp [fpForm2]) k j hj]
  rfl

theorem fpUn_finish {s : State} (d a : VReg) (e : Elem) (f : FpCtx → Nat → Nat × FpFlags) (hc : s.Clear s.lanes (fpForm1 d a e f).uses) :
    s.fpUn d a e f = (fpForm1 d a e f).finish s := by
  refine LaneForm.finish_of_flagOp (fpForm1 d a e f) hc fun k => packFlags_congr fun j _ => ?_
  dsimp only
  rw [readV_srcs hc a (by simp [fpForm1, rdV])]
  rfl

theorem fpTri_finish {s : State} (d a : VReg) (b : VSrc) (c : VReg) (e : Elem) (f : FpCtx → Nat → Nat → Nat → Nat × FpFlags)
    (hc : s.Clear s.lanes (fpForm3 d a b c e f).uses) : s.fpTri d a b c e f = (fpForm3 d a b c e f).finish s := by
  refine LaneForm.finish_of_flagOp (fpForm3 d a b c e f) hc fun k => packFlags_congr fun j hj => ?_
  dsimp only
  rw [readV_srcs hc a (by simp [fpForm3, rdV]), readB_elem hc e.w b (by simp [fpForm3]) k j hj, readV_srcs hc c (by simp [fpForm3, rdV])]
  rfl

/-- The sub-elements that Pack takes from vb, and those that it keeps, are there only where it narrows (R148). -/
theorem packFrom_narrows {ws wd pos k : Nat} (h : ¬wd < ws) : (packFrom ws wd pos k).1 = 0 := by
  unfold packFrom
  rw [if_neg h]
  split <;> rfl

theorem convert_finish {s : State} (o : LaneCvt) (f : FpCtx → Nat → Nat × FpFlags) (hc : s.Clear s.lanes (cvtForm o f).uses) :
    s.convert o f = (cvtForm o f).finish s := by
  have ha (k : Nat) : s.readV o.a.toNat k = s.srcs.v o.a.toNat k := by
    refine readV_srcs hc o.a ?_ k
    by_cases h : o.e.w < o.s.w <;> simp [cvtForm, h, rdV]
  have hnarrow (h : o.e.w < o.s.w) (r : VReg) (hr : r = o.b ∨ r = o.d) (k : Nat) : s.readV r.toNat k = s.srcs.v r.toNat k := by
    refine readV_srcs hc r ?_ k
    rcases hr with rfl | rfl <;> simp [cvtForm, h, rdV]
  refine LaneForm.finish_of_flagOp (cvtForm o f) hc fun k => packFlags_congr fun j _ => ?_
  by_cases h : o.e.w < o.s.w
  · simp only [ha, hnarrow h o.b (.inl rfl), hnarrow h o.d (.inr rfl)]
    rfl
  · have h0 := packFrom_narrows (pos := o.pos.toNat) (k := j) h
    obtain ⟨⟨x, y⟩, hp⟩ : ∃ p, packFrom o.s.w o.e.w o.pos.toNat j = p := ⟨_, rfl⟩
    obtain rfl : x = 0 := by simpa [hp] using h0
    simp only [ha, hp]
    rfl

/-! The lane instructions of a shape of their own. -/

theorem exec_vmad_form {s : State} {o : LaneTri} {f : LaneForm} (h : laneForm (.vmad o) = some f) (hc : s.Clear s.lanes f.uses) :
    exec (.vmad o) s = .next (f.finish s) := by
  cases h
  refine congrArg _ (LaneForm.finish_of_flagOp _ hc fun k => packFlags_congr fun j hj => ?_)
  simp only [elemVal]
  rw [readV_srcs hc o.a (by simp [rdV]), readB_elem hc o.e.w o.b (by simp) k j hj, readV_srcs hc o.c (by simp [rdV])]
  rfl

theorem exec_vbfx_form {s : State} {o : LaneBin} {f : LaneForm} (h : laneForm (.vbfx o) = some f) (hc : s.Clear s.lanes f.uses) :
    exec (.vbfx o) s = .next (f.finish s) := by
  cases h
  refine congrArg _ (LaneForm.finish_of_op _ hc fun k => Prod.ext (packElems_congr fun j _ => ?_) rfl)
  dsimp only
  rw [readV_srcs hc o.a (by simp [rdV]), readB_whole hc 64 o.b (by simp)]

theorem exec_vbfi_form {s : State} {o : LaneBin} {f : LaneForm} (h : laneForm (.vbfi o) = some f) (hc : s.Clear s.lanes f.uses) :
    exec (.vbfi o) s = .next (f.finish s) := by
  cases h
  refine congrArg _ (LaneForm.finish_of_op _ hc fun k => Prod.ext (packElems_congr fun j _ => ?_) rfl)
  dsimp only
  rw [readV_srcs hc o.a (by simp [rdV]), readV_srcs hc o.d (by simp [rdV]), readB_whole hc 64 o.b (by simp)]

theorem exec_vsel_form {s : State} {o : LaneTri} {f : LaneForm} (h : laneForm (.vsel o) = some f) (hc : s.Clear s.lanes f.uses) :
    exec (.vsel o) s = .next (f.finish s) := by
  cases h
  refine congrArg _ (LaneForm.finish_of_op _ hc fun k => ?_)
  dsimp only
  rw [readV_srcs hc o.a (by simp [rdV]), readV_srcs hc o.c (by simp [rdV])]
  obtain ⟨d, a, b, c, e⟩ := o
  cases b with
  | vec r => simp only [State.readB, readV_srcs hc r (by simp [useB, rdV])]
  | uni r => simp only [State.readB, readU_srcs hc r (by simp [useB, rdUw])]

theorem exec_vmov_form {s : State} {o : LaneMov} {f : LaneForm} (h : laneForm (.vmov o) = some f) (hc : s.Clear s.lanes f.uses) :
    exec (.vmov o) s = .next (f.finish s) := by
  obtain ⟨d, a, m, e⟩ := o
  cases m with
  | copy =>
    cases h
    refine congrArg _ (LaneForm.finish_of_op _ hc fun k => ?_)
    dsimp only
    rw [readV_srcs hc a (by simp [rdV])]
  | ext j =>
    cases h
    refine congrArg _ (LaneForm.finish_of_op _ hc fun k => ?_)
    simp only [elemVal]
    rw [readV_srcs hc a (by simp [rdVsub])]
  | ins j =>
    cases h
    refine congrArg _ (LaneForm.finish_of_op _ hc fun k => ?_)
    dsimp only
    rw [readV_srcs hc a (by simp [rdVsub]), readV_srcs hc d (by simp [rdVkept])]
    rfl

theorem exec_vmovs_form {s : State} {o : LaneMovS} {f : LaneForm} (h : laneForm (.vmovs o) = some f) (hc : s.Clear s.lanes f.uses) :
    exec (.vmovs o) s = .next (f.finish s) := by
  obtain ⟨d, b, m, e⟩ := o
  cases m with
  | copy =>
    cases h
    refine congrArg _ (LaneForm.finish_of_op _ hc fun k => ?_)
    dsimp only
    rw [readU_srcs hc b (by simp [rdU])]
  | splat j =>
    cases h
    refine congrArg _ (LaneForm.finish_of_op _ hc fun k => ?_)
    dsimp only
    rw [readU_srcs hc b (by simp)]

theorem exec_vmovsShort_form {s : State} {o : ShMovS} {f : LaneForm} (h : laneForm (.vmovsShort o) = some f) (hc : s.Clear s.lanes f.uses) :
    exec (.vmovsShort o) s = .next (f.finish s) := by
  cases h
  refine congrArg _ (LaneForm.finish_of_op _ hc fun k => ?_)
  dsimp only
  rw [readU_srcs hc o.b (by simp [rdU])]

theorem exec_vpack_form {s : State} {o : LanePack} {f : LaneForm} (h : laneForm (.vpack o) = some f) (hc : s.Clear s.lanes f.uses) :
    exec (.vpack o) s = .next (f.finish s) := by
  cases h
  refine congrArg _ (LaneForm.finish_of_flagOp _ hc fun k => packFlags_congr fun j _ => ?_)
  dsimp only
  rw [readV_srcs hc o.a (by simp [rdV]), readV_srcs hc o.b (by simp [rdV]), ← apply_ite]
  rfl

theorem exec_vunpk_form {s : State} {o : LaneUnX} {f : LaneForm} (h : laneForm (.vunpk o) = some f) (hc : s.Clear s.lanes f.uses) :
    exec (.vunpk o) s = .next (f.finish s) := by
  cases h
  refine congrArg _ (LaneForm.finish_of_op _ hc fun k => Prod.ext (packElems_congr fun j _ => ?_) rfl)
  dsimp only
  rw [readV_srcs hc o.a (by simp)]

theorem exec_fdot_form {s : State} {o : LaneTriX} {f : LaneForm} (h : laneForm (.fdot o) = some f) (hc : s.Clear s.lanes f.uses) :
    exec (.fdot o) s = .next (f.finish s) := by
  cases h
  refine congrArg _ (LaneForm.finish_of_flagOp _ hc fun k => ?_)
  dsimp only
  rw [readV_srcs hc o.a (by simp [rdV]), readB_whole hc 64 o.b (by simp), readV_srcs hc o.c (by simp)]
  rfl

/-- An instruction with a lane form whose registers pass their checks ends as that form's issue does (R112 to R124, R140 to R151). -/
theorem exec_laneForm {i : Instr} {s : State} {f : LaneForm} (h : laneForm i = some f) (hc : s.Clear s.lanes f.uses) :
    exec i s = .next (f.finish s) := by
  have hi := h
  unfold laneForm at h
  split at h
  · cases h; exact congrArg _ (fitBin_finish _ _ _ _ _ hc)
  · cases h; exact congrArg _ (fitBin_finish _ _ _ _ _ hc)
  · cases h; exact congrArg _ (fitBin_finish _ _ _ _ _ hc)
  · cases h; exact congrArg _ (valBin_finish _ _ _ _ _ hc)
  · exact exec_vmad_form hi hc
  · cases h; exact congrArg _ (patBin_finish _ _ _ _ _ hc)
  · cases h; exact congrArg _ (patBin_finish _ _ _ _ _ hc)
  · cases h; exact congrArg _ (patBin_finish _ _ _ _ _ hc)
  · cases h; exact congrArg _ (patUn_finish _ _ _ _ hc)
  · cases h; exact congrArg _ (laneShift_finish _ _ hc)
  · cases h; exact congrArg _ (laneShift_finish _ _ hc)
  · cases h; exact congrArg _ (laneShift_finish _ _ hc)
  · cases h; exact congrArg _ (laneShift_finish _ _ hc)
  · cases h; exact congrArg _ (valBin_finish _ _ _ _ _ hc)
  · cases h; exact congrArg _ (valBin_finish _ _ _ _ _ hc)
  · cases h; exact congrArg _ (laneFit1_finish _ _ _ _ hc)
  · cases h; exact congrArg _ (laneFit1_finish _ _ _ _ hc)
  · cases h; exact congrArg _ (patUn_finish _ _ _ _ hc)
  · cases h; exact congrArg _ (patUn_finish _ _ _ _ hc)
  · cases h; exact congrArg _ (patUn_finish _ _ _ _ hc)
  · exact exec_vbfx_form hi hc
  · exact exec_vbfi_form hi hc
  · exact exec_vsel_form hi hc
  · cases h; exact congrArg _ (valBin_finish _ _ _ _ _ hc)
  · exact exec_vmov_form hi hc
  · exact exec_vmovs_form hi hc
  · cases h; exact congrArg _ (LaneForm.finish_of_op _ hc fun _ => rfl)
  · exact exec_vpack_form hi hc
  · exact exec_vunpk_form hi hc
  · cases h; exact congrArg _ (fitBin_finish _ _ _ _ _ hc)
  · cases h; exact congrArg _ (fitBin_finish _ _ _ _ _ hc)
  · cases h; exact congrArg _ (laneFit1_finish _ _ _ _ hc)
  · cases h; exact congrArg _ (fitBin_finish _ _ _ _ _ hc)
  · cases h; exact congrArg _ (patBin_finish _ _ _ _ _ hc)
  · cases h; exact congrArg _ (patBin_finish _ _ _ _ _ hc)
  · cases h; exact congrArg _ (patBin_finish _ _ _ _ _ hc)
  · cases h; exact congrArg _ (patUn_finish _ _ _ _ hc)
  · cases h; exact congrArg _ (patUn_finish _ _ _ _ hc)
  · cases h; exact congrArg _ (patUn_finish _ _ _ _ hc)
  · cases h; exact congrArg _ (valBin_finish _ _ _ _ _ hc)
  · cases h; exact congrArg _ (valBin_finish _ _ _ _ _ hc)
  · cases h; exact congrArg _ (fitBin_finish _ _ _ _ _ hc)
  · cases h; exact congrArg _ (fitBin_finish _ _ _ _ _ hc)
  · exact exec_vmovsShort_form hi hc
  · cases h; exact congrArg _ (fpBin_finish _ _ _ _ _ hc)
  · cases h; exact congrArg _ (fpBin_finish _ _ _ _ _ hc)
  · cases h; exact congrArg _ (fpBin_finish _ _ _ _ _ hc)
  · cases h; exact congrArg _ (fpTri_finish _ _ _ _ _ _ hc)
  · cases h; exact congrArg _ (fpBin_finish _ _ _ _ _ hc)
  · cases h; exact congrArg _ (fpBin_finish _ _ _ _ _ hc)
  · cases h; exact congrArg _ (fpUn_finish _ _ _ _ hc)
  · cases h; exact congrArg _ (fpUn_finish _ _ _ _ hc)
  · cases h; exact congrArg _ (fpBin_finish _ _ _ _ _ hc)
  · cases h; exact congrArg _ (fpUn_finish _ _ _ _ hc)
  · cases h; exact congrArg _ (fpBin_finish _ _ _ _ _ hc)
  · cases h; exact congrArg _ (fpUn_finish _ _ _ _ hc)
  · cases h; exact congrArg _ (convert_finish _ _ hc)
  · cases h; exact congrArg _ (convert_finish _ _ hc)
  · cases h; exact congrArg _ (convert_finish _ _ hc)
  · exact exec_fdot_form hi hc
  · cases h; exact congrArg _ (fpBin_finish _ _ _ _ _ hc)
  · cases h; exact congrArg _ (fpBin_finish _ _ _ _ _ hc)
  · cases h; exact congrArg _ (fpBin_finish _ _ _ _ _ hc)
  · cases h; exact congrArg _ (fpBin_finish _ _ _ _ _ hc)
  · cases h; exact congrArg _ (fpBin_finish _ _ _ _ _ hc)
  · cases h; exact congrArg _ (fpBin_finish _ _ _ _ _ hc)
  · cases h; exact congrArg _ (fpBin_finish _ _ _ _ _ hc)
  · cases h; exact congrArg _ (fpTri_finish _ _ _ _ _ _ hc)
  · cases h

/-! ### Uniform forms: what an instruction with a uniform form does once its register checks have passed -/

/-- The end of an issue of a uniform form: its flag, and, where it is not enabled, the write (R14, R25, R125). -/
def UniForm.finish (f : UniForm) (s : State) : State :=
  s.withUniFlags (f.res s).2 fun t => t.writeU f.d.toNat (f.res s).1 f.lat

/-- A uniform operation that computes a form's result and raises no flag is the end of that form's issue. -/
theorem UniForm.finish_of_op (f : UniForm) {s : State} {g : State → Word} (hc : s.Clear s.cur.mask f.uses)
    (h : (g s, 0) = f.res s) : s.uniOp f.d f.uses f.lat g = f.finish s := by
  obtain ⟨c1, c2, c3, c4⟩ := hc
  unfold State.uniOp UniForm.finish State.withUniFlags
  rw [s.guarded_clear _ _ _ c1 c2 c3 c4, ← h]
  simp only [setFlags_zero]
  rw [if_pos (by simp)]

/-! One lemma for each shape of a uniform instruction. -/

theorem uniFit_finish {s : State} (d a : UReg) (b : USrc) (e : Elem) (lat : Nat) (f : Int → Int → Int)
    (hc : s.Clear s.cur.mask (uFit d a b e lat f).uses) : s.uniFit d a b e lat f = (uFit d a b e lat f).finish s := by
  have ha := readU_named hc a (by simp [uFit, rdUw])
  have hb := readS_named hc e.w b fun u hu => by simp [uFit, hu]
  obtain ⟨c1, c2, c3, c4⟩ := hc
  unfold State.uniFit
  refine (s.guarded_clear _ _ _ c1 c2 c3 c4).trans ?_
  simp only [uniVal, ha, hb]
  rfl

theorem uniBin_finish {s : State} (d a : UReg) (b : USrc) (e : Elem) (lat : Nat) (f : Int → Int → Nat)
    (hc : s.Clear s.cur.mask (uVal d a b e lat f).uses) : s.uniBin d a b e lat f = (uVal d a b e lat f).finish s := by
  refine UniForm.finish_of_op (uVal d a b e lat f) hc ?_
  simp only [uniVal]
  rw [readU_named hc a (by simp [uVal, rdUw]), readS_named hc e.w b fun u hu => by simp [uVal, hu]]
  rfl

theorem uniBlind_finish {s : State} (d a : UReg) (b : USrc) (f : Word → Word → Word) (hc : s.Clear s.cur.mask (uBits d a b f).uses) :
    s.uniBlind d a b f = (uBits d a b f).finish s := by
  refine UniForm.finish_of_op (uBits d a b f) hc ?_
  rw [readU_named hc a (by simp [uBits, rdU]), readS_named hc 64 b fun u hu => by simp [uBits, hu]]
  rfl

theorem uniShift_finish {s : State} (d a : UReg) (b : USrc) (w : Nat) (signed : Bool) (f : Nat → Nat → Nat)
    (hc : s.Clear s.cur.mask (uShift d a b w signed f).uses) : s.uniShift d a b w signed f = (uShift d a b w signed f).finish s := by
  refine UniForm.finish_of_op (uShift d a b w signed f) hc ?_
  rw [readU_named hc a (by simp [uShift, rdUw]), readS_named hc w b fun u hu => by simp [uShift, hu]]
  rfl

theorem uniCount_finish {s : State} (o : UniUn) (f : Nat → Nat) (hc : s.Clear s.cur.mask (uCount o f).uses) :
    s.uniCount o f = (uCount o f).finish s := by
  refine UniForm.finish_of_op (uCount o f) hc ?_
  rw [readU_named hc o.a (by simp [uCount, rdUw])]
  rfl

/-! The uniform instructions of a shape of their own. -/

theorem exec_snot_form {s : State} {o : UniUn} {f : UniForm} (h : uniForm (.snot o) = some f) (hc : s.Clear s.cur.mask f.uses) :
    exec (.snot o) s = .next (f.finish s) := by
  cases h
  refine congrArg _ (UniForm.finish_of_op _ hc ?_)
  dsimp only
  rw [readU_named hc o.a (by simp [rdU])]

theorem exec_sbfx_form {s : State} {o : UniTri} {f : UniForm} (h : uniForm (.sbfx o) = some f) (hc : s.Clear s.cur.mask f.uses) :
    exec (.sbfx o) s = .next (f.finish s) := by
  cases h
  refine congrArg _ (UniForm.finish_of_op _ hc ?_)
  simp only [uniPat]
  rw [readU_named hc o.a (by simp [rdUw]), readU_named hc o.b (by simp [rdU])]

theorem exec_sbfi_form {s : State} {o : UniTri} {f : UniForm} (h : uniForm (.sbfi o) = some f) (hc : s.Clear s.cur.mask f.uses) :
    exec (.sbfi o) s = .next (f.finish s) := by
  cases h
  refine congrArg _ (UniForm.finish_of_op _ hc ?_)
  simp only [uniPat]
  rw [readU_named hc o.a (by simp [rdUw]), readU_named hc o.b (by simp [rdU]), readU_named hc o.d (by simp [rdUw])]

theorem exec_ssel_form {s : State} {o : UniBin} {f : UniForm} (h : uniForm (.ssel o) = some f) (hc : s.Clear s.cur.mask f.uses) :
    exec (.ssel o) s = .next (f.finish s) := by
  cases h
  refine congrArg _ (UniForm.finish_of_op _ hc ?_)
  dsimp only
  rw [s.readSc_of_any _ hc.2.1 rdSc (by simp) rfl, readU_named hc o.a (by simp [rdU]),
    readS_named hc 64 o.b fun u hu => by simp [hu]]

theorem exec_smov_form {s : State} {o : UniMov} {f : UniForm} (h : uniForm (.smov o) = some f) (hc : s.Clear s.cur.mask f.uses) :
    exec (.smov o) s = .next (f.finish s) := by
  cases h
  refine congrArg _ (UniForm.finish_of_op _ hc ?_)
  dsimp only
  rw [readS_named hc 64 o.b fun u hu => by simp [hu]]

theorem exec_smovShort_form {s : State} {o : ShU} {f : UniForm} (h : uniForm (.smovShort o) = some f) (hc : s.Clear s.cur.mask f.uses) :
    exec (.smovShort o) s = .next (f.finish s) := by
  cases h
  refine congrArg _ (UniForm.finish_of_op _ hc ?_)
  dsimp only
  rw [readS_named hc 64 o.b fun u hu => by simp [hu]]

theorem exec_sinsi_form {s : State} {o : UniIns} {f : UniForm} (h : uniForm (.sinsi o) = some f) (hc : s.Clear s.cur.mask f.uses) :
    exec (.sinsi o) s = .next (f.finish s) := by
  cases h
  refine congrArg _ (UniForm.finish_of_op _ hc ?_)
  dsimp only
  rw [readU_named hc o.d (by simp [rwU])]
  rfl

/-- An instruction with a uniform form whose registers pass their checks ends as that form's issue does (R126 to R133, R137). -/
theorem exec_uniForm {i : Instr} {s : State} {f : UniForm} (h : uniForm i = some f) (hc : s.Clear s.cur.mask f.uses) :
    exec i s = .next (f.finish s) := by
  have hi := h
  unfold uniForm at h
  split at h
  · cases h; exact congrArg _ (uniFit_finish _ _ _ _ _ _ hc)
  · cases h; exact congrArg _ (uniFit_finish _ _ _ _ _ _ hc)
  · cases h; exact congrArg _ (uniFit_finish _ _ _ _ _ _ hc)
  · cases h; exact congrArg _ (uniBin_finish _ _ _ _ _ _ hc)
  · cases h; exact congrArg _ (uniBlind_finish _ _ _ _ hc)
  · cases h; exact congrArg _ (uniBlind_finish _ _ _ _ hc)
  · cases h; exact congrArg _ (uniBlind_finish _ _ _ _ hc)
  · exact exec_snot_form hi hc
  · cases h; exact congrArg _ (uniShift_finish _ _ _ _ _ _ hc)
  · cases h; exact congrArg _ (uniShift_finish _ _ _ _ _ _ hc)
  · cases h; exact congrArg _ (uniShift_finish _ _ _ _ _ _ hc)
  · cases h; exact congrArg _ (uniBin_finish _ _ _ _ _ _ hc)
  · cases h; exact congrArg _ (uniBin_finish _ _ _ _ _ _ hc)
  · cases h; exact congrArg _ (uniCount_finish _ _ hc)
  · cases h; exact congrArg _ (uniCount_finish _ _ hc)
  · cases h; exact congrArg _ (uniCount_finish _ _ hc)
  · exact exec_sbfx_form hi hc
  · exact exec_sbfi_form hi hc
  · exact exec_ssel_form hi hc
  · exact exec_smov_form hi hc
  · cases h; exact congrArg _ (UniForm.finish_of_op _ hc rfl)
  · exact exec_sinsi_form hi hc
  · exact exec_smovShort_form hi hc
  · cases h; exact congrArg _ (uniFit_finish _ _ _ _ _ _ hc)
  · cases h; exact congrArg _ (uniFit_finish _ _ _ _ _ _ hc)
  · cases h; exact congrArg _ (uniFit_finish _ _ _ _ _ _ hc)
  · cases h; exact congrArg _ (uniBlind_finish _ _ _ _ hc)
  · cases h; exact congrArg _ (uniBlind_finish _ _ _ _ hc)
  · cases h; exact congrArg _ (uniBlind_finish _ _ _ _ hc)
  · cases h; exact congrArg _ (uniShift_finish _ _ _ _ _ _ hc)
  · cases h; exact congrArg _ (uniShift_finish _ _ _ _ _ _ hc)
  · cases h; exact congrArg _ (uniShift_finish _ _ _ _ _ _ hc)
  · cases h; exact congrArg _ (uniBin_finish _ _ _ _ _ _ hc)
  · cases h; exact congrArg _ (uniBin_finish _ _ _ _ _ _ hc)
  · cases h; exact congrArg _ (uniBin_finish _ _ _ _ _ _ hc)
  · cases h; exact congrArg _ (uniBin_finish _ _ _ _ _ _ hc)
  · cases h; exact congrArg _ (UniForm.finish_of_op _ hc rfl)
  · cases h; exact congrArg _ (UniForm.finish_of_op _ hc rfl)
  · cases h

/-! ### FP_EXCEPTION: the flags are set, and the trap is that of the issue (R25, R191) -/

/-- A change of groups that keeps their sticky flags keeps those of every group. -/
theorem State.modGroup_fpst (s : State) (k n : Nat) (f : Group → Group) (h : ∀ g, (f g).fpst = g.fpst) :
    ((s.modGroup k f).group n).fpst = (s.group n).fpst := by
  simp only [State.group, State.find?_modGroup]
  split
  · cases s.groups.find? n <;> simp [h]
  · rfl

theorem State.tryTrap_fpst (s : State) (k n : Nat) : ((s.tryTrap k).group n).fpst = (s.group n).fpst := by
  have clear (g : Group) (r : RecordKind) : (g.clearRecord r).fpst = g.fpst := by cases r <;> rfl
  unfold State.tryTrap
  dsimp only
  split
  · split
    · rfl
    · exact s.modGroup_fpst _ _ _ fun g => clear g _
  · rfl

/-- Taking a trap outside the handler keeps the sticky flags of the group. -/
theorem State.takeTrap_fpst (s : State) (cause : Nat) (taddr : Word) (blame : Mask) (hi : s.Issuing) (hm : s.MayTrap) :
    (s.takeTrap cause taddr blame).grp.fpst = s.grp.fpst := by
  have hcur : (s.takeTrap cause taddr blame).cur.gid = s.cur.gid := by
    obtain ⟨h, -⟩ := takeTrapAt_entered s cause s.cur.off taddr blame hi hm
    exact (congrArg (fun t : State => t.cur.gid) h :)
  obtain ⟨hh, -, -, -, h0, hp⟩ := hm
  have hn : ¬(s.group s.cur.gid).handler = some s.cur.ent := by
    rw [show (s.group s.cur.gid).handler = none from hh]; simp
  unfold State.grp
  rw [hcur]
  unfold State.takeTrap State.takeTrapAt
  simp only [applyPlanes_none s hp, h0, ne_eq, not_true_eq_false, if_false, State.raiseAt, if_neg hn]
  exact (State.tryTrap_fpst _ _ _).trans (s.modGroup_fpst _ _ (fun g => g.modSplit s.cur.ent _) fun _ => rfl)

/-- The group that issues, after its flags are set. -/
theorem State.setFlags_grp {s : State} (hi : s.Issuing) (fl : FpFlags) : (s.setFlags fl).grp = { s.grp with fpst := s.grp.fpst ||| fl } :=
  s.grp_modGrp _ hi.1

/-- The split that issues is the same after its group's flags are set. -/
theorem State.setFlags_spl {s : State} (hi : s.Issuing) (fl : FpFlags) : (s.setFlags fl).spl = s.spl := by
  unfold State.spl
  rw [State.setFlags_grp hi]
  rfl

theorem State.Issuing.setFlags {s : State} (hi : s.Issuing) (fl : FpFlags) : (s.setFlags fl).Issuing := by
  refine ⟨s.issuing_modGrp _ hi.1, ?_⟩
  rw [State.setFlags_grp hi]
  exact hi.2

theorem State.MayTrap.setFlags {s : State} (hm : s.MayTrap) (hi : s.Issuing) (fl : FpFlags) : (s.setFlags fl).MayTrap := by
  unfold State.MayTrap
  rw [State.setFlags_grp hi, State.setFlags_spl hi]
  exact hm

/-- The entry of a trap of an issue whose flags have been set is the entry of a trap of the issue. -/
theorem TrapEntered.of_setFlags {s t : State} {fl : FpFlags} {cause toff : Nat} {taddr : Word} {blame : Mask} (hi : s.Issuing)
    (h : TrapEntered (s.setFlags fl) t cause toff taddr blame) : TrapEntered s t cause toff taddr blame := by
  unfold TrapEntered at h ⊢
  rw [State.setFlags_grp hi, State.setFlags_spl hi] at h
  obtain ⟨ht, hg, ⟨hb, hl, hs⟩, h⟩ := h
  refine ⟨ht, fun g hne => ?_, ⟨hb, fun c n => ?_, hs⟩, h⟩
  · rw [hg g hne]
    exact Tab.find?_modify_ne _ _ hne
  · rw [hl c n]
    cases c <;> rfl

/-- An issue whose enabled flags raise FP_EXCEPTION: its flags are set and its handler is entered (R25, R191). -/
theorem State.fpException_entered {s : State} (hi : s.Issuing) (hm : s.MayTrap) (fl : FpFlags) (taddr : Word) (blame : Mask) :
    TrapEntered s ((s.setFlags fl).takeTrap 0x0D taddr blame) 0x0D s.cur.off taddr blame
      ∧ ((s.setFlags fl).takeTrap 0x0D taddr blame).grp.fpst = s.grp.fpst ||| fl := by
  have hi' := hi.setFlags fl
  have hm' := hm.setFlags hi fl
  refine ⟨.of_setFlags hi (takeTrapAt_entered _ _ _ _ _ hi' hm'), ?_⟩
  rw [State.takeTrap_fpst _ _ _ _ hi' hm', State.setFlags_grp hi]

/-- A lane form one of whose flags is enabled ends in FP_EXCEPTION. -/
theorem LaneForm.finish_of_enabled (f : LaneForm) {s : State} (h : f.flags s &&& s.grp.enabled ≠ 0) :
    f.finish s = (s.setFlags (f.flags s)).takeTrap 0x0D ((f.flags s).setWidth 64)
      (maskOf fun k => s.cur.mask.getLsbD k && (f.res s.srcs k).2 &&& s.grp.enabled != 0) := if_neg h

/-- A uniform form whose flag is enabled ends in FP_EXCEPTION, which blames EXEC. -/
theorem UniForm.finish_of_enabled (f : UniForm) {s : State} (hi : s.Issuing) (h : (f.res s).2 &&& s.grp.enabled ≠ 0) :
    f.finish s = (s.setFlags (f.res s).2).takeTrap 0x0D ((f.res s).2.setWidth 64) s.spl.exec := by
  unfold UniForm.finish State.withUniFlags
  rw [if_neg h, State.trapExec, State.setFlags_spl hi]

/-- Settles O2: the instruction ends as its form's issue does, and that issue ends in FP_EXCEPTION. -/
theorem fpExceptionTraps : Obligations.FpExceptionTraps := by
  unfold Obligations.FpExceptionTraps
  constructor
  · intro i s f hf hi hm hc he
    refine ⟨_, exec_laneForm hf hc, ?_⟩
    rw [f.finish_of_enabled he]
    exact s.fpException_entered hi hm _ _ _
  · intro i s f hf hi hm hc he
    refine ⟨_, exec_uniForm hf hc, ?_⟩
    rw [f.finish_of_enabled hi he]
    exact s.fpException_entered hi hm _ _ _

end Sys2Proof.Machine
end

section
/-! PROOFS. The special functions (O3). -/

namespace Sys2Proof.Machine

/-- The instruction of a special function performs it (R140). -/
theorem exec_specialOf {i : Instr} {o : LaneUn} {fn : SpecFn} (h : specialOf i = some (o, fn)) (s : State) :
    exec i s = .next (s.special o fn) := by
  unfold specialOf at h
  split at h <;> cases h <;> rfl

/-- The word and the flags of a special function of a lane (R38, R152): a sub-element that the bounds do not settle is free (log 7). -/
def State.specialLane (s : State) (fn : SpecFn) (x : Nat → Word) (k : Nat) : Word × FpFlags :=
  packFlags 32 fun j => (fn.eval s.fpCtx (elemAt 32 j (x k))).getD ((Config.freeWord s.tick (4096 + j) k).toNat % 2 ^ 32, 0)

/-- The clks for which a special function takes the quarter's unit: one for each 8 lanes (R153). -/
def State.specialBatches (s : State) : Nat := max 1 ((popMask s.lanes + 7) / 8)

/-- A special function that finds its unit free computes its lanes, and takes the unit where it has not trapped. -/
theorem State.special_free {s : State} (o : LaneUn) (fn : SpecFn)
    (h : (s.core s.curCore).sfu.getD 0 (s.grp.cx.grpid.toNat % 4) ≤ s.now) :
    s.special o fn =
      let t := s.laneFlagOp o.d [rdV o.a, wrV o.d] (s.specialBatches - 1 + 12) fun s k => s.specialLane fn (s.readV o.a.toNat) k
      if t.cur.flow = .run then
        t.modCore s.curCore fun k => { k with sfu := k.sfu.insert (s.grp.cx.grpid.toNat % 4) (s.now + s.specialBatches) } else t := by
  have hcur : s.modCur (fun c => { c with cycles := c.cycles + ((s.core s.curCore).sfu.getD 0 (s.grp.cx.grpid.toNat % 4) - s.now) }) = s := by
    rw [Nat.sub_eq_zero_of_le h]; rfl
  unfold State.special
  rw [if_neg fun hb => absurd hb.1 (by omega), hcur]
  rfl

/-- Settles O3: a special function that finds its unit free writes its lanes as a lane instruction that raises flags does. -/
theorem specialFunctionResult : Obligations.SpecialFunctionResult := by
  unfold Obligations.SpecialFunctionResult
  intro i s o fn hf hi hc hfree res batches flags hrun he
  have hread : s.specialLane fn (s.readV o.a.toNat) = res := by
    rw [funext fun k => readV_named hc o.a (by simp [rdV]) k]; rfl
  have hlat : batches + 11 = s.specialBatches - 1 + 12 := by
    have : 1 ≤ s.specialBatches := Nat.le_max_left ..
    show s.specialBatches + 11 = _
    omega
  have hw := laneFlagOp_post s o.d [rdV o.a, wrV o.d] (s.specialBatches - 1 + 12) (fun s k => s.specialLane fn (s.readV o.a.toNat) k) hi hc
    (by simp) (by omega) (by rw [hread]; exact he)
  have hflow : (s.laneFlagOp o.d [rdV o.a, wrV o.d] (s.specialBatches - 1 + 12) fun s k => s.specialLane fn (s.readV o.a.toNat) k).cur.flow
      = .run := by
    obtain ⟨-, -, -, ⟨ht, -⟩, -⟩ := hw
    exact ((congrArg (fun t : State => t.cur.flow) ht :) : _ = s.cur.flow).trans hrun
  refine ⟨_, (exec_specialOf hf s).trans (congrArg _ ((State.special_free o fn hfree).trans (if_pos hflow))), _, ?_, rfl⟩
  rw [hread] at hw
  rw [hlat]
  exact hw

end Sys2Proof.Machine
end

section
/-! PROOFS. The cross-lane instructions that write a vector register (O4). -/

namespace Sys2Proof.Machine

/-! ### Cross-lane forms: what an instruction with a cross-lane form does once its checks have passed -/

/-- The end of an issue of a cross-lane form that raises no enabled flag: the flags and the write (R154). -/
def CrossForm.finish (f : CrossForm) (s : State) : State :=
  (s.setFlags (f.flags s.srcs (f.part s))).writeV f.d.toNat (f.part s) f.lat (f.res s.srcs (f.part s))

/-! The checks, use by use. -/

theorem State.firstPoison_eq_none_iff (s : State) (lanes : Mask) (uses : List Use) :
    s.firstPoison lanes uses = none ↔ ∀ u ∈ uses, s.poisonHit lanes u = none := by
  induction uses with
  | nil => simp [State.firstPoison]
  | cons u us ih =>
    unfold State.firstPoison
    cases h : s.poisonHit lanes u <;> simp [h, ih]

theorem State.operandHazards_eq_nil_iff (s : State) (uses : List Use) :
    s.operandHazards uses = [] ↔ ∀ p ∈ s.grp.mops, ∀ u ∈ uses, (u.wr && p.2.op.holds u) = false := by
  simp [State.operandHazards, List.flatMap_eq_nil_iff, List.filter_eq_nil_iff]

/-- A register that is named and not read meets no poison. -/
theorem State.poisonHit_unread (s : State) (lanes : Mask) (u : Use) : s.poisonHit lanes { u with rd := 0 } = none := by
  unfold State.poisonHit
  cases u.kind <;> simp [List.findSome?_eq_none_iff]

/-- The checks pass as well where a register is named without being read. -/
theorem State.Clear.unread {s : State} {lanes : Mask} {u v : Use} {us : List Use} (h : s.Clear lanes (v :: u :: us)) :
    s.Clear lanes (v :: { u with rd := 0 } :: us) := by
  obtain ⟨h1, h2, h3, h4⟩ := h
  refine ⟨h1, h2, ?_, ?_⟩
  · rw [State.operandHazards_eq_nil_iff] at h3 ⊢
    intro p hp
    have := h3 p hp
    simp only [List.forall_mem_cons] at this ⊢
    exact this
  · rw [State.firstPoison_eq_none_iff] at h4 ⊢
    simp only [List.forall_mem_cons] at h4 ⊢
    exact ⟨h4.1, s.poisonHit_unread _ _, h4.2.2⟩

/-- An instruction of the block that is not held back and whose registers pass their checks runs its meaning. -/
theorem State.crossOp_clear {s : State} {part : Mask} {uses : List Use} (body : State → State)
    (hg : s.heldBack s.cur.gid s.cur.ent = false) (hc : s.Clear part uses) : s.crossOp part uses body = body s := by
  obtain ⟨c1, c2, c3, c4⟩ := hc
  unfold State.crossOp State.reconverging
  rw [hg, if_neg (by simp)]
  exact s.guarded_clear _ _ _ c1 c2 c3 c4

/-- A register without poison in any lane passes the check of the lanes that are read across. -/
theorem State.crossPoison_clean {s : State} {r : VReg} (halves : Nat → Nat) {part : Mask} {own : List Use} (body : State → State)
    (ho : s.firstPoison part own = none) (hr : s.CleanVector r) : s.crossPoison r halves part own body = body s := by
  have hlook (k : Nat) : (if (halves (k / 2)).testBit (k % 2) then s.grp.vpois.find? (2 * vkey r.toNat (k / 2) + k % 2) else none) = none := by
    rw [hr _ _ (Nat.mod_lt _ (by omega)), ite_self]
  unfold State.crossPoison
  simp only [ho, hlook, Option.map_none]
  rw [List.findSome?_eq_none_iff.2 fun _ _ => rfl]

/-- The flags of a single issue, none of which is enabled, are set before the write (R154). -/
theorem State.withIssueFlags_disabled {s : State} (part : Mask) {fl : FpFlags} (write : State → State) (h : fl &&& s.grp.enabled = 0) :
    s.withIssueFlags part fl write = write (s.setFlags fl) := if_pos h

/-- A move of sub-elements from a register without poison is the end of its form's issue. -/
theorem crossMove_finish {s : State} (d a : VReg) (part : State → Mask) (uses own : List Use) (w : Nat)
    (src : Nat → Nat → Nat × Nat) (form : Srcs → Nat → Nat → Nat × Nat) (hc : s.Clear (part s) (moveForm d a part uses w form).uses)
    (ho : ∀ u ∈ own, u ∈ uses) (hr : s.CleanVector a) (hsrc : ∀ i j, j < 64 / w → src i j = form s.srcs i j) :
    s.crossMove (part s) d a w own src = (moveForm d a part uses w form).finish s := by
  have ha : s.readV a.toNat = s.srcs.v a.toNat := funext (readV_srcs hc a (by simp [moveForm]))
  have hp : s.firstPoison (part s) own = none := by
    rw [s.firstPoison_eq_none_iff]
    intro u hu
    exact (s.firstPoison_eq_none_iff _ _).1 hc.2.2.2 u (by simp [moveForm, ho u hu])
  unfold State.crossMove
  refine (State.crossPoison_clean _ _ hp hr).trans ?_
  have hv (i : Nat) : (packElems w fun j => if (part s).getLsbD (src i j).1 then elemAt w (src i j).2 (s.readV a.toNat (src i j).1) else 0)
      = (moveForm d a part uses w form).res s.srcs (part s) i := by
    refine packElems_congr fun j hj => ?_
    rw [hsrc i j hj, ha]
  unfold CrossForm.finish
  simp only [hv]
  exact congrArg (fun t : State => t.writeV d.toNat (part s) 6 _) (setFlags_zero s).symm

/-! Each instruction of the block. The conditions are those of the statement: the form's lanes and uses, the reconvergence, the poison of the register
read across lanes, and the flags. -/

/-- What an issue of a cross-lane form must meet to end in its write (R154). -/
structure CrossForm.Passes (f : CrossForm) (s : State) : Prop where
  free : f.gathers = true → s.heldBack s.cur.gid s.cur.ent = false
  clear : s.Clear (f.part s) f.uses
  clean : ∀ r, f.src = some r → s.CleanVector r
  quiet : f.flags s.srcs (f.part s) &&& s.grp.enabled = 0

theorem exec_vshf_form {s : State} {o : LaneBin} {f : CrossForm} (h : crossForm (.vshf o) = some f) (hp : f.Passes s) :
    exec (.vshf o) s = .next (f.finish s) := by
  cases h
  refine congrArg Host.Outcome.next ((State.crossOp_clear _ (hp.free rfl) hp.clear.unread).trans
    (crossMove_finish o.d o.a (fun s => s.cur.mask) _ [useB o.e.w o.b] _ _ _ hp.clear (by simp) (hp.clean _ rfl) fun i j hj => ?_))
  dsimp only
  rw [readB_elem hp.clear o.e.w o.b (by simp [moveForm]) i j hj]
  simp [bits, Nat.shiftRight_eq_div_pow, Elem.n]

theorem exec_vshfi_form {s : State} {o : ShufImm} {f : CrossForm} (h : crossForm (.vshfi o) = some f) (hp : f.Passes s) :
    exec (.vshfi o) s = .next (f.finish s) := by
  cases h
  exact congrArg Host.Outcome.next ((State.crossOp_clear _ (hp.free rfl) hp.clear).trans
    (crossMove_finish o.d o.a (fun s => s.cur.mask) _ [] _ _ _ hp.clear (by simp) (hp.clean _ rfl) fun _ _ _ => rfl))

theorem exec_qswp_form {s : State} {o : QuadSwap} {f : CrossForm} (h : crossForm (.qswp o) = some f) (hp : f.Passes s) :
    exec (.qswp o) s = .next (f.finish s) := by
  cases h
  exact congrArg Host.Outcome.next ((State.crossOp_clear _ (hp.free rfl) hp.clear).trans
    (crossMove_finish o.d o.a State.lanes _ [] _ _ _ hp.clear (by simp) (hp.clean _ rfl) fun _ _ _ => rfl))

theorem exec_qbc_form {s : State} {o : QuadBc} {f : CrossForm} (h : crossForm (.qbc o) = some f) (hp : f.Passes s) :
    exec (.qbc o) s = .next (f.finish s) := by
  cases h
  exact congrArg Host.Outcome.next ((State.crossOp_clear _ (hp.free rfl) hp.clear).trans
    (crossMove_finish o.d o.a State.lanes _ [] _ _ _ hp.clear (by simp) (hp.clean _ rfl) fun _ _ _ => rfl))

theorem exec_vred_form {s : State} {o : Reduce} {f : CrossForm} (h : crossForm (.vred o) = some f) (hp : f.Passes s) :
    exec (.vred o) s = .next (f.finish s) := by
  obtain ⟨d, a, op, e⟩ := o
  cases d with
  | uni r => cases h
  | vec d =>
    cases h
    have ha : s.readV a.toNat = s.srcs.v a.toNat := funext (readV_srcs hp.clear a (by simp [rdV]))
    refine congrArg Host.Outcome.next ((State.crossOp_clear _ (hp.free rfl) hp.clear).trans ?_)
    rw [ha]
    exact State.withIssueFlags_disabled _ _ hp.quiet

theorem exec_vscan_form {s : State} {o : Scan} {f : CrossForm} (h : crossForm (.vscan o) = some f) (hp : f.Passes s) :
    exec (.vscan o) s = .next (f.finish s) := by
  cases h
  have ha : s.readV o.a.toNat = s.srcs.v o.a.toNat := funext (readV_srcs hp.clear o.a (by simp [rdV]))
  refine congrArg Host.Outcome.next ((State.crossOp_clear _ (hp.free rfl) hp.clear).trans ?_)
  rw [ha]
  exact State.withIssueFlags_disabled _ _ hp.quiet

/-- The end of an issue of a form that raises no flag is its write. -/
theorem CrossForm.finish_of_quiet {f : CrossForm} {s : State} (h : f.flags s.srcs (f.part s) = 0) :
    f.finish s = s.writeV f.d.toNat (f.part s) f.lat (f.res s.srcs (f.part s)) := by
  unfold CrossForm.finish
  rw [h, setFlags_zero]

theorem exec_vconf_form {s : State} {o : LaneMono} {f : CrossForm} (h : crossForm (.vconf o) = some f) (hp : f.Passes s) :
    exec (.vconf o) s = .next (f.finish s) := by
  cases h
  have ha : s.readV o.a.toNat = s.srcs.v o.a.toNat := funext (readV_srcs hp.clear o.a (by simp [rdVlo]))
  refine congrArg Host.Outcome.next ((State.crossOp_clear _ (hp.free rfl) hp.clear).trans ?_)
  rw [ha]
  exact Eq.symm (CrossForm.finish_of_quiet rfl)

theorem exec_vtopk_form {s : State} {o : LaneUn} {f : CrossForm} (h : crossForm (.vtopk o) = some f) (hp : f.Passes s) :
    exec (.vtopk o) s = .next (f.finish s) := by
  cases h
  have ha : s.readV o.a.toNat = s.srcs.v o.a.toNat := funext (readV_srcs hp.clear o.a (by simp [rdV]))
  have hd : s.readV o.d.toNat = s.srcs.v o.d.toNat := funext (readV_srcs hp.clear o.d (by simp [rwV]))
  refine congrArg Host.Outcome.next ((State.crossOp_clear _ (hp.free rfl) hp.clear).trans ?_)
  rw [ha, hd]
  exact Eq.symm (CrossForm.finish_of_quiet rfl)

theorem exec_vmrank_form {s : State} {o : Rank} {f : CrossForm} (h : crossForm (.vmrank o) = some f) (hp : f.Passes s) :
    exec (.vmrank o) s = .next (f.finish s) := by
  cases h
  have hb : s.readU o.b.toNat = s.srcs.u o.b.toNat := readU_srcs hp.clear o.b (by simp [rdUlo])
  obtain ⟨c1, c2, c3, c4⟩ := hp.clear
  refine congrArg Host.Outcome.next ((s.guarded_clear _ _ _ c1 c2 c3 c4).trans ?_)
  rw [hb]
  exact Eq.symm (CrossForm.finish_of_quiet rfl)

/-- An instruction with a cross-lane form whose checks pass ends as that form's issue does (R154 to R164). -/
theorem exec_crossForm {i : Instr} {s : State} {f : CrossForm} (h : crossForm i = some f) (hp : f.Passes s) :
    exec i s = .next (f.finish s) := by
  have hi := h
  unfold crossForm at h
  split at h
  · exact exec_vshf_form hi hp
  · exact exec_vshfi_form hi hp
  · exact exec_qswp_form hi hp
  · exact exec_qbc_form hi hp
  · exact exec_vred_form hi hp
  · exact exec_vscan_form hi hp
  · exact exec_vconf_form hi hp
  · exact exec_vtopk_form hi hp
  · exact exec_vmrank_form hi hp
  · cases h

/-- A cross-lane form writes its destination, which it names, with the latency of the block (R165). -/
theorem crossForm_write {i : Instr} {f : CrossForm} (h : crossForm i = some f) :
    f.lat = 6 ∧ (f.uses.any fun u => u.kind = .vec && u.num == f.d.toNat) = true := by
  unfold crossForm at h
  split at h
  case h_5 o =>
    split at h
    · cases h; exact ⟨rfl, by simp [wrV]⟩
    · cases h
  case h_10 => cases h
  all_goals
    cases h
    exact ⟨rfl, by simp [moveForm, wrV, rwV]⟩

/-- A vector register that an issue names is settled in every lane, once its checks have passed. -/
theorem settled_named {s : State} {lanes : Mask} {uses : List Use} (c : s.Clear lanes uses) (r : VReg)
    (h : (uses.any fun u => u.kind = .vec && u.num == r.toNat) = true) (k : Nat) : s.Settled s.grp .vec r.toNat k := by
  simp only [List.any_eq_true, Bool.and_eq_true, decide_eq_true_eq, beq_iff_eq] at h
  obtain ⟨u, hu, hk, hn⟩ := h
  have := s.settled_of_any uses c.2.1 u hu (by simp [hk]) k
  rwa [hk, hn] at this

/-- Settles O4: the instruction ends as its form's issue does, and that issue is a lane write. -/
theorem crossLaneResult : Obligations.CrossLaneResult := by
  unfold Obligations.CrossLaneResult
  intro i s f hf hi hg hc hr hq
  obtain ⟨hlat, hd⟩ := crossForm_write hf
  exact ⟨_, exec_crossForm hf ⟨hg, hc, hr, hq⟩, writeV_post s f.d (f.part s) f.lat _ _ hi (by omega) (settled_named hc f.d hd)⟩

end Sys2Proof.Machine
end

section
/-! PROOFS. SETSR (O8). -/

namespace Sys2Proof.Machine

/-! ### Values that a special register takes -/

/-- A mode field names a mode where it is neither 0 nor above 5 (R23). -/
theorem Rm.ofCode_isSome (m : Nat) : (Rm.ofCode m).isSome = !decide (m = 0 ∨ 5 < m) := by
  by_cases h : m = 0 ∨ 5 < m
  · unfold Rm.ofCode
    repeat rw [if_neg (by omega)]
    simp [h]
  · have : m = 1 ∨ m = 2 ∨ m = 3 ∨ m = 4 ∨ m = 5 := by omega
    rcases this with rfl | rfl | rfl | rfl | rfl <;> rfl

theorem fpmWrite_eq (x : Word) : fpmWrite x =
    (x.extractLsb' 4 5 ++ 0#1) ++ (if (x.extractLsb' 0 3).toNat = 0 ∨ 5 < (x.extractLsb' 0 3).toNat then 1#3 else x.extractLsb' 0 3) := by
  have hm : wbits x 2 0 = (x.extractLsb' 0 3).toNat := by simp [wbits, bits]
  have hw : wbits x 8 4 = (x.extractLsb' 4 5).toNat := by simp [wbits, bits]
  have join (w : BitVec 5) (r : BitVec 3) : BitVec.ofNat 9 (r.toNat + w.toNat * 16) = (w ++ 0#1) ++ r := by
    apply BitVec.eq_of_toNat_eq
    rw [BitVec.toNat_append, BitVec.toNat_append, ← Nat.shiftLeft_add_eq_or_of_lt r.isLt]
    simp only [BitVec.toNat_ofNat, Nat.shiftLeft_eq, Nat.zero_mod, Nat.or_zero]
    omega
  unfold fpmWrite
  simp only [hm, hw, Rm.ofCode_isSome, ← join]
  by_cases h : (x.extractLsb' 0 3).toNat = 0 ∨ 5 < (x.extractLsb' 0 3).toNat
  · simp only [h, decide_true, Bool.not_true, if_true]
    rfl
  · simp only [h, decide_false, Bool.not_false, if_true, if_false]

theorem lowBits_eq {n : Nat} (x : Word) (h : n ≤ 64) : lowBits n x = x &&& BitVec.ofNat 64 (2 ^ n - 1) := by
  have hn : 2 ^ n ≤ 2 ^ 64 := Nat.pow_le_pow_right (by omega) h
  have hm : (2 ^ n - 1) % 2 ^ 64 = 2 ^ n - 1 := Nat.mod_eq_of_lt (by omega)
  apply BitVec.eq_of_toNat_eq
  unfold lowBits
  rw [BitVec.toNat_and, BitVec.toNat_ofNat, BitVec.toNat_ofNat, hm, Nat.and_two_pow_sub_one_eq_mod]
  exact Nat.mod_eq_of_lt (Nat.lt_of_le_of_lt (Nat.mod_le _ _) x.isLt)

/-- A loop stack with level k changed, read from the top down (R173, R176). -/
theorem setLoopLevel_eq (ls : List Loop) (k : Nat) (f : Loop → Loop) :
    setLoopLevel ls k f = ls.zipIdx.map fun p => if p.2 + k + 1 = ls.length then f p.1 else p.1 := by
  unfold setLoopLevel
  refine List.ext_getElem (by simp) fun n h1 h2 => ?_
  simp only [List.length_reverse, List.length_modify] at h1
  have : (k = ls.length - 1 - n) ↔ n + k + 1 = ls.length := by omega
  have hn : ls.length - 1 - (ls.length - 1 - n) = n := by omega
  simp [List.getElem_modify, this, hn]

/-- SC of the split is written at once where no VVOTE of another instruction is pending (R136, R186). -/
theorem State.writeSc_of_any (s : State) (uses : List Use) (h : uses.any (s.grp.pendingUse s.now s.iid s.spl.owned) = false)
    (hu : wrSc ∈ uses) (b : Bool) : s.writeSc b = s.modSpl fun p => { p with sc := b } := by
  have hp := List.any_eq_false.1 h wrSc hu
  have hsc : s.scPending = false := by
    simp only [Group.pendingUse, wrSc, Bool.or_eq_true, not_or, Bool.not_eq_true] at hp
    obtain ⟨hp, -⟩ := hp
    refine List.any_eq_false.2 fun l hl hpend => List.any_eq_false.1 hp l hl ?_
    simp only [Bool.and_eq_true] at hpend ⊢
    obtain ⟨⟨⟨hkind, hown⟩, hland⟩, hiid⟩ := hpend
    exact ⟨⟨⟨⟨hkind, by simp⟩, hland⟩, hiid⟩, by simpa using hown⟩
  unfold State.writeSc
  simp [hsc]

/-! ### SETSR -/

/-- SETSR once its register checks have passed: the register's write, or PRIVILEGE where it is only read (R50, R137). -/
theorem exec_setsr {s : State} {o : SetSr} (hc : s.Clear s.cur.mask (rdU o.a :: scUse o.r wrSc)) :
    exec (.setsr o) s = .next ((s.setSpecial o.r (s.grp.ureg o.a.toNat)).getD (s.trapExec 0x0F (o.r.index.setWidth 64))) := by
  have hr := readU_named hc o.a (by simp [rdU])
  obtain ⟨c1, c2, c3, c4⟩ := hc
  refine congrArg Host.Outcome.next ((s.guarded_clear _ _ _ c1 c2 c3 c4).trans ?_)
  rw [hr]
  cases s.setSpecial o.r (s.grp.ureg o.a.toNat) <;> rfl

/-- The loop stack that the special registers reach, changed by a rule for each level (R176, R192). -/
theorem State.setSpecial_loop {s : State} {r : SpecReg} {k : Nat} {f : Word → Loop → Loop} (h : loopRegOf r = some (k, f)) (x : Word) :
    s.setSpecial r x = some (s.modLoops fun l => setLoopLevel l k (f x)) := by
  have lo : wbits x 25 0 = (x.setWidth 26).toNat := by simp [wbits, bits]
  unfold loopRegOf at h
  split at h <;> cases h <;> simp only [State.setSpecial, lo]

/-- Settles O8: the register's write is its field's, and a register that is only read raises PRIVILEGE. -/
theorem setSpecialResult : Obligations.SetSpecialResult := by
  unfold Obligations.SetSpecialResult
  constructor
  · intro o s hi hc x grp spl
    have hw {t : State} (h : s.setSpecial o.r x = some t) : exec (.setsr o) s = .next t := by
      rw [exec_setsr hc, h, Option.getD_some]
    have ht (h : s.setSpecial o.r x = none) (hm : s.MayTrap) :
        Completes (.setsr o) s fun t => TrapEntered s t 0x0F s.cur.off (o.r.index.setWidth 64) s.spl.exec := by
      refine ⟨_, exec_setsr hc, ?_⟩
      rw [h, Option.getD_none]
      exact takeTrapAt_entered s 0x0F _ _ _ hi hm
    obtain ⟨r, a⟩ := o
    cases r
    case exec => exact hw rfl
    case sc => exact hw (congrArg some (s.writeSc_of_any _ hc.2.1 (by simp) _))
    case fpm => exact hw (congrArg (fun v => some (s.modGrp fun g => { g with fpm := v })) (fpmWrite_eq x))
    case fpst => exact hw rfl
    case hlp => exact hw rfl
    case sbchk => exact hw rfl
    case rcvf => exact hw rfl
    case tcause => exact hw rfl
    case taddr => exact hw rfl
    case toff => exact hw (congrArg (fun v => some (s.modGrp fun g => { g with toff := v })) (lowBits_eq x (by omega)))
    case tmask => exact hw rfl
    case svpl0 => exact hw (congrArg (fun v => some (s.modGrp fun g => { g with svpl0 := v })) (lowBits_eq x (by omega)))
    case svpl1 => exact hw (congrArg (fun v => some (s.modGrp fun g => { g with svpl1 := v })) (lowBits_eq x (by omega)))
    case lb0 | lb1 | lb2 | lb3 | le0 | le1 | le2 | le3 | lc0 | lc1 | lc2 | lc3 => trivial
    all_goals exact ht rfl
  · intro o s k f hf hi hc x set
    have hsc : scUse o.r wrSc = [] := by
      unfold scUse
      rw [if_neg fun h => by rw [h] at hf; cases hf]
    have hset : (fun l => setLoopLevel l k (f (s.grp.ureg o.a.toNat))) = set := funext fun l => setLoopLevel_eq l k (f x)
    rw [exec_setsr (by rw [hsc]; exact hc), State.setSpecial_loop hf, Option.getD_some, hset]
    rfl

end Sys2Proof.Machine
end

section
/-! PROOFS. Memory at home: what a read answers after a write. -/

namespace Sys2Proof.Machine

theorem ofBytes_lt (bs : List Byte) : ofBytes bs < 256 ^ bs.length := by
  induction bs with
  | nil => simp [ofBytes]
  | cons b bs ih =>
    have hb := b.isLt
    simp only [ofBytes, List.length_cons, Nat.pow_succ]
    omega

/-- Memory holds bytes, so that n of them are a number below 256 ^ n. -/
theorem State.homeN_lt (s : State) (pa n : Nat) : s.homeN pa n < 256 ^ n := by
  simpa [State.homeN] using ofBytes_lt ((List.range n).map fun k => s.homeByte (pa + k))

end Sys2Proof.Machine
end

section
/-! PROOFS. The riddle's steps on a bucket (O35). -/

namespace Sys2Proof.Machine

/-- A descriptor of family A with one table of 4 bits, whose buckets of one line begin at 0x1000. -/
def wideDesc : List Word := [0, 0, 0, 0, 0, 0, 0, 0x1000, 0x01040010, 0, 0, 0, 0, 0, 0, 0]

/-- An insertion of the list of one row at 0x100 that remembers 2^32 as its row, a value of 33 bits. -/
def wideRow : RCmd :=
  { gid := 0, core := 0, blk := 0, slot := 0, bind := 0, op := .insert false, version := 0, desc := wideDesc, asid := 0, words := [0x100000100],
    seq := 0, batch := none, phase := none, step := 0, hits := [], blocked := none, linked := [], applied := false, ids := [(0x100, 2 ^ 32)],
    rejects := 0, skips := [] }

/-- A die after training with translation on, the page of the buckets installed, the command in flight, and the first slot of its bucket free. -/
def wideState : State :=
  { State.reset with
    level := 3
    cores := [(0, { Core.reset with tlb := [⟨0, 0, 0x1000, 4096, 0x1000, kPrivate, true, true, false, true, noLeaf⟩] })]
    dies := [(0, { Die.reset with regs := [(0, 1)], riddle := [(9, wideRow)] })]
    mem := Memory.writeList [] 0x1008 [0xFF, 0xFF, 0xFF, 0xFF] }

/-- The one line of its bucket, with no chain. -/
def wideBucket : Bucket := ⟨[0x1000], []⟩

theorem wideState_stepping : wideState.Stepping (wideState.stepState 0 9 wideRow) 0 9 wideRow .atomic wideBucket :=
  ⟨rfl, by decide, rfl, by decide, by decide, by decide, rfl⟩

theorem wideState_row : wideState.inputWord wideRow ((wideRow.stepAt wideRow.step).words - 4) = 2 ^ 32 := by decide

theorem wideState_slot_free : wideBucket.slots.find? (fun a => (wideState.stepState 0 9 wideRow).homeN a 4 == 0xFFFFFFFF) = some 0x1008 := by decide

/-- Refutes O35, in the clause of an insertion into a free slot of the bucket's own: the statement lets a command remember any number as the row that
it has read (RCmd.ids), and one of 2^32 cannot stand in the slot's 4 bytes afterwards. The missing premise is that a remembered row
has 32 bits, as each one that a command reads from its list has (R374). -/
theorem not_bucketSteps : ¬ Obligations.BucketSteps := by
  unfold Obligations.BucketSteps
  intro h
  obtain ⟨insert, -⟩ := h wideState (wideState.stepState 0 9 wideRow) 0 9 wideRow wideBucket (by decide) (by decide)
  obtain ⟨-, fresh⟩ := insert ⟨false, rfl⟩ wideState_stepping (by rw [wideState_row]; decide) (by decide)
  rw [wideState_row] at fresh
  obtain ⟨intoFree, -⟩ := fresh fun a _ => Nat.ne_of_lt (State.homeN_lt _ a 4)
  obtain ⟨t, -, -, row, -⟩ := intoFree 0x1008 wideState_slot_free
  exact Nat.ne_of_lt (State.homeN_lt t 0x1008 4) row

end Sys2Proof.Machine
end

section
/-! PROOFS. The result of a lane instruction (O1). -/

namespace Sys2Proof.Machine

/-- A lane form names its destination, and its write is pending for some time (R56, R185). -/
def LaneForm.Writes (f : LaneForm) : Prop := wrV f.d ∈ f.uses ∧ f.lat ≠ 0

theorem fpLat_ne_zero (wide : Bool) : fpLat wide ≠ 0 := by cases wide <;> decide

/-! Each shape of a lane instruction writes. -/

@[simp] theorem fitForm_writes (d a : VReg) (b : VSrc) (e : Elem) (f : Int → Int → Int) : (fitForm d a b e f).Writes :=
  ⟨by simp [fitForm], by simp [fitForm]⟩

@[simp] theorem fitForm1_writes (d a : VReg) (e : Elem) (f : Int → Int) : (fitForm1 d a e f).Writes :=
  ⟨by simp [fitForm1], by simp [fitForm1]⟩

@[simp] theorem valForm_writes (d a : VReg) (b : VSrc) (e : Elem) (f : Int → Int → Nat) : (valForm d a b e f).Writes :=
  ⟨by simp [valForm], by simp [valForm]⟩

@[simp] theorem patForm_writes (d a : VReg) (b : VSrc) (w : Nat) (f : Nat → Nat → Nat) : (patForm d a b w f).Writes :=
  ⟨by simp [patForm], by simp [patForm]⟩

@[simp] theorem patForm1_writes (d a : VReg) (w : Nat) (f : Nat → Nat) : (patForm1 d a w f).Writes :=
  ⟨by simp [patForm1], by simp [patForm1]⟩

@[simp] theorem shiftForm_writes (o : LaneShift) (f : Nat → Nat → Nat) : (shiftForm o f).Writes := by
  unfold shiftForm
  split
  · exact patForm_writes ..
  · exact patForm1_writes ..

@[simp] theorem fpForm1_writes (d a : VReg) (e : Elem) (f : FpCtx → Nat → Nat × FpFlags) : (fpForm1 d a e f).Writes :=
  ⟨by simp [fpForm1], fpLat_ne_zero _⟩

@[simp] theorem fpForm2_writes (d a : VReg) (b : VSrc) (e : Elem) (f : FpCtx → Nat → Nat → Nat × FpFlags) : (fpForm2 d a b e f).Writes :=
  ⟨by simp [fpForm2], fpLat_ne_zero _⟩

@[simp] theorem fpForm3_writes (d a : VReg) (b : VSrc) (c : VReg) (e : Elem) (f : FpCtx → Nat → Nat → Nat → Nat × FpFlags) :
    (fpForm3 d a b c e f).Writes :=
  ⟨by simp [fpForm3], fpLat_ne_zero _⟩

@[simp] theorem cvtForm_writes (o : LaneCvt) (f : FpCtx → Nat → Nat × FpFlags) : (cvtForm o f).Writes :=
  ⟨by simp [cvtForm], fpLat_ne_zero _⟩

@[simp] theorem LaneForm.writes_mk (d : VReg) (uses : List Use) (lat : Nat) (res : Srcs → Nat → Word × FpFlags) :
    (LaneForm.mk d uses lat res).Writes ↔ wrV d ∈ uses ∧ lat ≠ 0 := Iff.rfl

/-- Every lane form writes (R112 to R124, R140 to R151). -/
theorem laneForm_writes {i : Instr} {f : LaneForm} (h : laneForm i = some f) : f.Writes := by
  unfold laneForm at h
  split at h
  case h_25 | h_26 => split at h <;> cases h <;> simp
  case h_69 => cases h
  all_goals
    cases h
    simp

/-- A lane form none of whose flags is enabled ends in its write (R24, R25). -/
theorem LaneForm.finish_of_quiet (f : LaneForm) {s : State} (h : f.flags s &&& s.grp.enabled = 0) :
    f.finish s = (s.setFlags (f.flags s)).writeV f.d.toNat s.lanes f.lat fun k => (f.res s.srcs k).1 := if_pos h

/-- Settles O1: the instruction ends as its form's issue does, and that issue is a lane write. -/
theorem laneResult : Obligations.LaneResult := by
  unfold Obligations.LaneResult
  intro i s f hf hi hc he
  obtain ⟨hd, hlat⟩ := laneForm_writes hf
  have ⟨_, hpend, _, _⟩ := hc
  refine ⟨_, exec_laneForm hf hc, ?_⟩
  rw [f.finish_of_quiet he]
  exact writeV_post s f.d s.lanes f.lat _ _ hi hlat (s.settled_of_any f.uses hpend _ hd (by simp [wrV]))

end Sys2Proof.Machine
end

section
/-! PROOFS. The checks of the registers that an instruction names (O9). -/

namespace Sys2Proof.Machine

/-! ### Every instruction with a form makes its checks before it acts -/

/-- An instruction acts only once the checks of the registers that it names, in some lanes, have passed. -/
def Guards (i : Instr) (s : State) (lanes : Mask) (uses : List Use) : Prop := ∃ body, exec i s = .next (s.guarded lanes uses body)

theorem laneForm_guards {i : Instr} {f : LaneForm} (h : laneForm i = some f) (s : State) : Guards i s s.lanes f.uses := by
  unfold laneForm at h
  split at h
  case h_10 o | h_11 o | h_12 o | h_13 o =>
    obtain ⟨d, a, k, e⟩ := o
    cases k <;> cases h <;> exact ⟨_, rfl⟩
  case h_25 o | h_26 o =>
    obtain ⟨d, a, m, e⟩ := o
    cases m <;> cases h <;> exact ⟨_, rfl⟩
  case h_69 => cases h
  all_goals
    cases h
    exact ⟨_, rfl⟩

theorem uniForm_guards {i : Instr} {f : UniForm} (h : uniForm i = some f) (s : State) : Guards i s s.cur.mask f.uses := by
  unfold uniForm at h
  split at h
  case h_39 => cases h
  all_goals
    cases h
    exact ⟨_, rfl⟩

theorem checksOf_guards {i : Instr} {s : State} {lanes : Mask} {uses : List Use} (h : checksOf i s = some (lanes, uses)) :
    Guards i s lanes uses := by
  unfold checksOf at h
  split at h
  · next f hf =>
    cases h
    exact laneForm_guards hf s
  · obtain ⟨f, hf, hu⟩ := Option.map_eq_some_iff.1 h
    cases hu
    exact uniForm_guards hf s

/-! ### The first check that fails decides -/

/-- A register's code, by its kind (R186). -/
theorem regCode_eq (k : RegKind) (n : Nat) :
    regCode k n = match k with | .vec => n | .uni => 256 + n | .tile => 512 + n | .sc => 768 := by
  cases k <;> rfl

/-- A register that is not allocated: ILLEGAL_INSTR, which blames the issue's active lanes (R46, R95). -/
theorem State.guarded_unallocated {s : State} {lanes : Mask} {uses : List Use} (body : State → State) (hu : uses.any s.grp.unallocated = true)
    (hm : s.cur.mask ≠ 0) : s.guarded lanes uses body = s.takeTrap 0x01 (BitVec.ofNat 64 s.cur.off) s.cur.mask := by
  unfold State.guarded
  rw [if_pos hu, if_neg fun h => hm h.1]

/-- A register whose result is pending: SB_UNDERSIZED on the first, which blames EXEC (R186, R228). -/
theorem State.guarded_pending {s : State} {lanes : Mask} {uses : List Use} {u : Use} (body : State → State)
    (hu : uses.any s.grp.unallocated = false) (hsb : s.grp.sbchk = true)
    (hp : uses.find? (s.grp.pendingUse s.now s.iid s.spl.owned) = some u) :
    s.guarded lanes uses body = s.trapExec 0x0A (BitVec.ofNat 64 (regCode u.kind u.num)) := by
  unfold State.guarded
  simp only [hu, hsb, hp, if_true, Bool.false_eq_true, if_false]

/-- A poisoned half that is read: RF_POISON or MEM_POISON, which blames every lane that reads poison (R67, R234). -/
theorem State.guarded_poison {s : State} {lanes : Mask} {uses : List Use} {u : Use} {half : Nat} {memory : Bool} (body : State → State)
    (hu : uses.any s.grp.unallocated = false) (hp : uses.any (s.grp.pendingUse s.now s.iid s.spl.owned) = false)
    (ho : s.operandHazards uses = []) (hf : s.firstPoison lanes uses = some (u, half, memory)) :
    s.guarded lanes uses body =
      s.takeTrap (if memory then 0x16 else 0x0C) (BitVec.ofNat 64 (regCode u.kind u.num + 1024 * half)) (s.poisonLanes lanes uses) := by
  have hn : uses.find? (s.grp.pendingUse s.now s.iid s.spl.owned) = none := by
    simpa [List.any_eq_false, List.find?_eq_none] using hp
  unfold State.guarded
  simp only [hu, hn, ho, ite_self, State.guarded.poisonCheck, hf, Bool.false_eq_true, if_false]

/-- A trap that the group may take at once is entered, and the sticky flags are kept (R191). -/
theorem State.takeTrap_entered {s : State} (hi : s.Issuing) (hm : s.MayTrap) (cause : Nat) (taddr : Word) (blame : Mask) :
    TrapEntered s (s.takeTrap cause taddr blame) cause s.cur.off taddr blame ∧ (s.takeTrap cause taddr blame).grp.fpst = s.grp.fpst :=
  ⟨takeTrapAt_entered _ _ _ _ _ hi hm, s.takeTrap_fpst _ _ _ hi hm⟩

/-- The issuing group after a change of the issuing split. -/
theorem State.grp_modSpl (s : State) (f : Split → Split) (h : (s.groups.find? s.cur.gid).isSome = true) :
    (s.modSpl f).grp = s.grp.modSplit s.cur.ent f :=
  s.grp_modGrp _ h

@[simp] theorem State.grp_setFlow (s : State) (f : Flow) : (s.setFlow f).grp = s.grp := rfl

/-! ### A trap that waits for the split's own results -/

/-- While a result of the split is still to be written, its trap leaves it TRAPPED, and nothing else changes (R191, R195). -/
theorem State.takeTrap_waits {s : State} (cause : Nat) (taddr : Word) (blame : Mask) (hi : s.Issuing) (hh : s.grp.handler = none)
    (ht : s.grp.firstTrapped = none) (hl : s.grp.latePending s.clk s.spl.owned = true) (hheld : s.spl.held = none) (hf : s.cur.fset = 0)
    (hp : s.cur.newPlanes = []) :
    ∃ x : Trap, x.cause = BitVec.ofNat 8 cause ∧ x.toff = s.cur.off ∧ x.taddr = taddr ∧ x.blame = blame
      ∧ s.takeTrap cause taddr blame = (s.modSpl fun p => p.asTrapped x s.clk).setFlow .trapped := by
  obtain ⟨hig, his⟩ := hi
  refine ⟨⟨BitVec.ofNat 8 cause, s.cur.off, taddr, blame, if s.cur.lower then BitVec.ofNat 3 s.cur.plane else 0, .none⟩, rfl, rfl, rfl, rfl, ?_⟩
  generalize hx : (⟨BitVec.ofNat 8 cause, s.cur.off, taddr, blame, if s.cur.lower then BitVec.ofNat 3 s.cur.plane else 0, .none⟩ : Trap) = x
  let s1 := s.modGroup s.cur.gid fun g => g.modSplit s.cur.ent fun p => p.asTrapped x s.clk
  have h1 : s1.group s.cur.gid = s.grp.modSplit s.cur.ent fun p => p.asTrapped x s.clk := s.group_modGroup_self _ _ hig
  have hfirst : (s1.group s.cur.gid).firstTrapped = some (s.cur.ent, x) := by
    rw [h1]
    exact firstTrapped_modify _ _ _ _ s.clk ht his fun _ => rfl
  have hwait : s1.tryTrap s.cur.gid = s1 := by
    have howned : ((s1.group s.cur.gid).split s.cur.ent).owned = s.spl.owned := by
      rw [h1, Group.split_modSplit_self _ _ _ his]
      rfl
    have hlate : (s1.group s.cur.gid).latePending s1.clk ((s1.group s.cur.gid).split s.cur.ent).owned = true := by
      rw [howned, h1]
      exact hl
    have hnone : (s1.group s.cur.gid).handler = none := by
      rw [h1]
      exact hh
    unfold State.tryTrap
    simp only [hnone, hfirst, hlate, if_true]
  have hn : ¬(s.group s.cur.gid).handler = some s.cur.ent := by
    rw [show (s.group s.cur.gid).handler = none from hh]
    simp
  unfold State.takeTrap State.takeTrapAt
  simp only [hx, hheld, Trap.lower, applyPlanes_none s hp, hf, ne_eq, not_true_eq_false, if_false, State.raiseAt, if_neg hn]
  exact congrArg (fun t : State => t.setFlow .trapped) hwait

/-! ### The lanes that read poison -/

/-- A half of the register that a use names is marked as poisoned, for a vector register in a lane (R67, R221). -/
def Group.halfPoisoned (g : Group) (u : Use) (lane half : Nat) : Bool :=
  match u.kind with
  | .vec => (g.vpois.find? (2 * vkey u.num lane + half)).isSome
  | .uni => (g.upois.find? (2 * u.num + half)).isSome
  | _ => false

/-- A use reads poison in a lane: in the low half or in the high half (R67). -/
def Group.readsPoison (g : Group) (u : Use) (lane : Nat) : Bool :=
  (u.rd % 2 == 1 && g.halfPoisoned u lane 0) || (decide (2 ≤ u.rd) && g.halfPoisoned u lane 1)

theorem lanesOf_single {k : Nat} (hk : k < 32) : lanesOf (1#32 <<< k) = [k] := by
  revert hk
  revert k
  decide

/-- The first half found, low before high, is there where either is. -/
theorem firstHalf_isSome (rd : Nat) (lo hi : Option Bool) :
    (match (if rd % 2 = 1 then lo else none) with
      | some b => some (0, b)
      | none => (if 2 ≤ rd then hi else none).map fun b => (1, b) : Option (Nat × Bool)).isSome
      = ((rd % 2 == 1 && lo.isSome) || (decide (2 ≤ rd) && hi.isSome)) := by
  by_cases h1 : rd % 2 = 1 <;> by_cases h2 : 2 ≤ rd <;> cases lo <;> cases hi <;> simp [h1, h2]

theorem State.poisonHit_lane (s : State) {k : Nat} (hk : k < 32) (u : Use) :
    (s.poisonHit (1#32 <<< k) u).isSome = s.grp.readsPoison u k := by
  obtain ⟨kind, num, rd, wr⟩ := u
  unfold State.poisonHit Group.readsPoison Group.halfPoisoned
  cases kind with
  | vec =>
    simp only [lanesOf_single hk]
    split
    · next h =>
      rw [List.isEmpty_iff.1 h]
      simp
    · rw [List.findSome?_singleton]
      exact firstHalf_isSome _ _ _
  | uni => exact firstHalf_isSome _ _ _
  | tile => simp
  | sc => simp

theorem State.poisonLanes_eq (s : State) (lanes : Mask) (uses : List Use) :
    s.poisonLanes lanes uses = maskOf fun k => lanes.getLsbD k && uses.any fun u => s.grp.readsPoison u k := by
  refine BitVec.eq_of_getLsbD_eq fun k hk => ?_
  unfold State.poisonLanes
  simp only [maskOf_getLsbD, s.poisonHit_lane hk]

/-- Settles O9: each check that fails raises its trap, which the group enters at once, or once the split's results are written. -/
theorem registerChecks : Obligations.RegisterChecks := by
  unfold Obligations.RegisterChecks
  refine ⟨?_, ?_, ?_⟩
  · intro i s lanes uses h hi hm hmask hu
    obtain ⟨body, hexec⟩ := checksOf_guards h
    rw [s.guarded_unallocated body hu hmask] at hexec
    exact ⟨_, hexec, s.takeTrap_entered hi hm _ _ _⟩
  · intro i s lanes uses u h hi hu hsb hp detail
    obtain ⟨body, hexec⟩ := checksOf_guards h
    rw [s.guarded_pending body hu hsb hp, regCode_eq] at hexec
    refine ⟨fun hm => ⟨_, hexec, s.takeTrap_entered hi hm 0x0A detail s.spl.exec⟩, fun hh ht hl hheld hfs hnp => ?_⟩
    obtain ⟨x, hc, htoff, htaddr, hblame, heq⟩ := s.takeTrap_waits 0x0A detail s.spl.exec hi hh ht hl hheld hfs hnp
    replace hexec := hexec.trans (congrArg Host.Outcome.next heq)
    refine ⟨_, hexec, rfl, fun g hg => Tab.find?_modify_ne _ _ hg, ?_, x, s.spl_modSpl _ hi.1 hi.2, hc, htoff, htaddr, hblame⟩
    rw [State.grp_setFlow, s.grp_modSpl _ hi.1]
    rfl
  · intro i s lanes uses u half memory h hi hm hu hp ho hf
    obtain ⟨body, hexec⟩ := checksOf_guards h
    rw [s.guarded_poison body hu hp ho hf, regCode_eq, s.poisonLanes_eq] at hexec
    exact ⟨_, hexec, s.takeTrap_entered hi hm _ _ _⟩

end Sys2Proof.Machine
end

section
/-! PROOFS. A step runs the decoded instruction (O57). -/

namespace Sys2Proof.Machine

/-! ### Fetching leaves the groups and the issue in progress as they are -/

/-- The groups and the issue in progress are as before. -/
def State.SameIssue (s t : State) : Prop := t.groups = s.groups ∧ t.cur = s.cur

theorem State.SameIssue.refl (s : State) : s.SameIssue s := ⟨rfl, rfl⟩

theorem State.SameIssue.trans {s t u : State} (h : s.SameIssue t) (h' : t.SameIssue u) : s.SameIssue u :=
  ⟨h'.1.trans h.1, h'.2.trans h.2⟩

theorem State.SameIssue.ite {c : Prop} [Decidable c] {s t u : State} (ht : s.SameIssue t) (hu : s.SameIssue u) :
    s.SameIssue (if c then t else u) := by
  split
  · exact ht
  · exact hu

theorem State.SameIssue.ite_fst {α : Type} {c : Prop} [Decidable c] {s : State} {p q : State × α} (hp : s.SameIssue p.1) (hq : s.SameIssue q.1) :
    s.SameIssue (if c then p else q).1 := by
  split
  · exact hp
  · exact hq

theorem State.evalWatch_sameIssue (s : State) (w : Nat) : s.SameIssue (s.evalWatch w) := by
  unfold State.evalWatch
  exact .ite (.refl s) (.ite (.refl s) ⟨rfl, rfl⟩)

theorem State.fireWatches_sameIssue (s : State) (pa n : Nat) : s.SameIssue (s.fireWatches pa n) := by
  unfold State.fireWatches
  refine List.foldlRecOn _ _ (motive := s.SameIssue) (.refl s) fun t ht p _ => ?_
  exact .ite (.ite (ht.trans (t.evalWatch_sameIssue _)) ht) ht

theorem State.homeWrite_sameIssue (s : State) (pa : Nat) (bs : List Byte) : s.SameIssue (s.homeWrite pa bs) :=
  State.SameIssue.trans (t := State.touch { s with mem := _, mpois := _ } _ _) ⟨rfl, rfl⟩ (State.fireWatches_sameIssue _ _ _)

theorem State.tlbInstall_sameIssue (s : State) (c : Nat) (t : Tlb) (entry : Nat) : s.SameIssue (s.tlbInstall c t entry) := by
  unfold State.tlbInstall
  dsimp only
  split
  · exact ⟨rfl, rfl⟩
  · exact .trans ⟨rfl, rfl⟩ (State.homeWrite_sameIssue _ _ _)

theorem State.tlbFill_sameIssue (s : State) (c : Nat) (t : Tlb) : s.SameIssue (s.tlbFill c t) := by
  unfold State.tlbFill
  split <;> exact ⟨rfl, rfl⟩

theorem State.tlbDrop_sameIssue (s : State) (c : Nat) (asid : BitVec 16) (va : Nat) : s.SameIssue (s.tlbDrop c asid va) := ⟨rfl, rfl⟩

theorem State.walkInstall_sameIssue (s : State) (c : Nat) (asid : BitVec 16) (va : Nat) : s.SameIssue (s.walkInstall c asid va).1 := by
  unfold State.walkInstall
  extract_lets d ast
  refine .ite_fst (.refl s) (.ite_fst (.refl s) (.ite_fst (.refl s) ?_))
  generalize s.walk d ast va = r
  cases r with
  | fail _ _ => exact .refl s
  | wait => exact .refl s
  | leaf _ _ _ => exact .ite (.refl s) (s.tlbInstall_sameIssue _ _ _)

theorem State.lookup_sameIssue (s : State) (c : Nat) (asid : BitVec 16) (va : Nat) : s.SameIssue (s.lookup c asid va).1 := by
  have hw := s.walkInstall_sameIssue c asid va
  unfold State.lookup
  extract_lets check
  generalize s.tlbFind c asid va = found
  generalize s.walkInstall c asid va = walked at hw ⊢
  cases found with
  | some t => exact .ite_fst (s.tlbFill_sameIssue _ _) (s.tlbDrop_sameIssue _ _ _)
  | none =>
    obtain ⟨u, r⟩ := walked
    cases r with
    | ok pa t => exact .ite_fst hw (hw.trans (u.tlbDrop_sameIssue _ _ _))
    | served _ _ _ => exact hw
    | trap _ => exact hw
    | again _ => exact hw

theorem State.setDirty_sameIssue (s : State) (c : Nat) (t : Tlb) : s.SameIssue (s.setDirty c t) := by
  unfold State.setDirty
  dsimp only
  split
  · exact .refl s
  · split
    · exact ⟨rfl, rfl⟩
    · exact .trans ⟨rfl, rfl⟩ (State.homeWrite_sameIssue _ _ _)

theorem State.translate_sameIssue (s : State) (c : Nat) (asid : BitVec 16) (va : Nat) (a : AccessKind) :
    s.SameIssue (s.translate c asid va a).1 := by
  unfold State.translate State.translateWith
  refine .ite_fst (.refl s) (.ite_fst (.refl s) ?_)
  have hl := s.lookup_sameIssue c asid va
  split
  · next h =>
    rw [h] at hl
    exact .ite_fst (hl.trans (State.tlbDrop_sameIssue _ _ _ _)) (.ite_fst hl (.ite_fst hl
      (.ite (hl.trans (State.setDirty_sameIssue _ _ _)) hl)))
  · exact hl

theorem State.fetchIc_sameIssue (s : State) (c n : Nat) : s.SameIssue (s.fetchIc c n) := ⟨rfl, rfl⟩

theorem State.fetchWord_sameIssue (s : State) (c : Nat) (asid : BitVec 16) (va : Nat) : s.SameIssue (s.fetchWord c asid va).1 := by
  have ht := s.translate_sameIssue c asid va .fetch
  unfold State.fetchWord
  split
  · next h =>
    rw [h] at ht
    dsimp only
    split
    · exact ht
    · split
      · exact ht.trans (State.fetchIc_sameIssue _ _ _)
      · exact ht
  all_goals
    next h =>
    rw [h] at ht
    exact ht

/-- The word at an offset of a plane, none from the region's end on (R52, R70). -/
def State.wordAt (s : State) (gid p off k : Nat) (t : State) : State × Fetched :=
  let g := s.group gid
  if off + 4 * k < g.regionLen then t.fetchWord g.cx.core g.cx.asid (g.codeVa p (off + 4 * k)) else (t, .words [])

theorem State.wordAt_sameIssue (s : State) (gid p off k : Nat) (t : State) : t.SameIssue (s.wordAt gid p off k t).1 := by
  unfold State.wordAt
  dsimp only
  split
  · exact t.fetchWord_sameIssue _ _ _
  · exact .refl t

/-- Words with the next one after them (R70). -/
def State.wordsAt (s : State) (gid p off k : Nat) (ws : List CodeWord) (t : State) : State × Fetched :=
  match s.wordAt gid p off k t with
  | (t, .words v) => (t, .words (ws ++ v))
  | r => r

theorem State.wordsAt_sameIssue (s : State) (gid p off k : Nat) (ws : List CodeWord) (t : State) :
    t.SameIssue (s.wordsAt gid p off k ws t).1 := by
  have hw := s.wordAt_sameIssue gid p off k t
  unfold State.wordsAt
  split
  · next h =>
    rw [h] at hw
    exact hw
  · exact hw

/-- A fetch of an instruction, word by word (R70). -/
theorem State.fetchInstr_eq (s : State) (gid p off : Nat) : s.fetchInstr gid p off =
    match s.wordAt gid p off 0 s with
    | (t, .words [w0]) =>
      if (wordLS w0).toNat = 2 then
        match s.wordsAt gid p off 1 [w0] t with
        | (u, .words [a, w1]) => if (wordLS w1).toNat == 1 then s.wordsAt gid p off 2 [a, w1] u else (u, .words [a, w1])
        | r => r
      else if (wordLS w0).toNat == 1 then s.wordsAt gid p off 1 [w0] t
      else (t, .words [w0])
    | r => r := rfl

theorem State.fetchInstr_sameIssue (s : State) (gid p off : Nat) : s.SameIssue (s.fetchInstr gid p off).1 := by
  have h0 := s.wordAt_sameIssue gid p off 0 s
  rw [State.fetchInstr_eq]
  split
  · next t w0 e0 =>
    rw [e0] at h0
    have h1 := h0.trans (s.wordsAt_sameIssue gid p off 1 [w0] t)
    split
    · split
      · next u a w1 e1 =>
        rw [e1] at h1
        split
        · exact h1.trans (s.wordsAt_sameIssue gid p off 2 [a, w1] u)
        · exact h1
      · exact h1
    · split
      · exact h1
      · exact h0
  · exact h0

/-! ### What precedes the plane issue of a split whose lanes lie in one plane -/

/-- A group that has a split exists. -/
theorem State.isSome_of_split {s : State} {gid ent : Nat} {p : Split} (h : (s.group gid).splits.find? ent = some p) :
    (s.groups.find? gid).isSome = true := by
  cases hg : s.groups.find? gid with
  | some _ => rfl
  | none =>
    have hnil : (s.group gid).splits = [] := by
      unfold State.group
      rw [hg]
      rfl
    rw [hnil] at h
    cases h

/-- One plane alone agrees with itself (R55). -/
theorem planeCheck_one (x : Nat × List CodeWord) : planeCheck [x] = none := by
  simp [planeCheck]

/-- Checks 1 and 2 of R94 at an offset in the region, for lanes of one plane whose words can be fetched. -/
theorem State.fetchChecked_one {s t : State} {pl : Nat} {ws : List CodeWord} (hocc : s.grp.occupied s.spl.owned = [pl])
    (hoff : s.spl.off < s.grp.regionLen) (hf : s.fetchInstr s.cur.gid pl s.spl.off = (t, .words ws)) :
    s.fetchChecked = (t, .planes [(pl, ws)]) := by
  unfold State.fetchChecked
  simp only [Nat.not_le.2 hoff, if_false, hocc, State.fetchPlanes, hf, planeCheck_one]
  rfl

/-- The split that an issue decision has chosen, where it is READY, is not resumed from the deferred area and is not at a loop's end. -/
theorem State.prepare_one {s t : State} {gid ent pl : Nat} {p : Split} {ws : List CodeWord}
    (hp : (s.openIssue gid ent).grp.splits.find? ent = some p) (hst : p.st = .ready) (hres : p.resumed = false) (hloop : p.atLoopEnd = false)
    (hocc : (s.openIssue gid ent).grp.occupied p.owned = [pl]) (hoff : p.off < (s.openIssue gid ent).grp.regionLen)
    (hf : ((s.openIssue gid ent).modSpl fun p => { p with resumed := false }).fetchInstr gid pl p.off = (t, .words ws)) :
    s.prepare gid ent = (t, .planes [(pl, ws)]) := by
  generalize hs0 : s.openIssue gid ent = s0 at *
  have hgid : s0.cur.gid = gid := by rw [← hs0]; rfl
  have hent : s0.cur.ent = ent := by rw [← hs0]; rfl
  subst hgid hent
  have hspl : s0.spl = p := by
    unfold State.spl Group.split
    rw [hp]
    rfl
  have hg := State.isSome_of_split hp
  have hgrp := s0.grp_modSpl (fun p => { p with resumed := false }) hg
  have hspl1 := s0.spl_modSpl (fun p => { p with resumed := false }) hg (by rw [hp]; rfl)
  have hp' : (s0.group s0.cur.gid).splits.find? s0.cur.ent = some p := hp
  unfold State.prepare
  simp only [hs0, hp', hloop, Bool.false_eq_true, if_false, hspl, hst, ne_eq, not_true_eq_false, or_self, hres]
  refine State.fetchChecked_one ?_ ?_ ?_
  · rw [hgrp, hspl1, hspl]
    exact hocc
  · rw [hgrp, hspl1, hspl]
    exact hoff
  · rw [hspl1, hspl]
    exact hf

/-! ### The plane issue -/

/-- What the meaning of an instruction leaves of the issue's count of cycles and of lower planes (R191, R199). -/
def State.issuedPlane (v : State) (i : Instr) : State :=
  v.modCur fun k => { k with
    lower := k.lower || decide (v.cur.flow = .run)
    cycles := k.cycles + (if v.cur.flow = .stall then 0 else if twoCycles i then 2 else 1) }

/-- An outcome after which the part goes on with a change of the state. -/
def onNext (r : Host.Outcome State Fault Refusal) (f : State → State) : Host.Outcome State Fault Refusal :=
  match r with
  | .next v => .next (f v)
  | r => r

/-- One plane issue of words that decode, with active lanes or once for the split, is the meaning of the instruction on them (R56, R66). -/
theorem State.issuePlane_decoded (s : State) {pl : Nat} {ws : List CodeWord} {m h : Mask} {next : Nat} {always : Bool} {c : Coded} {n : Nat}
    (hd : decodeWords ws = .ok (c, n)) (hm : m ≠ 0 ∨ always = true) :
    s.issuePlane exec pl ws m h next always =
      onNext (exec c.instr (s.atPlane pl m (if helperRuns c.instr then h else 0) c.pre next)) fun v => v.issuedPlane c.instr := by
  have h1 : ¬(m = 0 ∧ h = 0 ∧ (!always) = true) := by
    rintro ⟨rfl, -, h3⟩
    simp_all
  have h2 : ¬(m = 0 ∧ (!helperRuns c.instr) = true ∧ (!always) = true) := by
    rintro ⟨rfl, -, h3⟩
    simp_all
  unfold State.issuePlane
  simp only [if_neg h1, hd, if_neg h2]
  rfl

/-- The active lanes of an issue in a plane: those of the split, or of a retry, within the plane where the words are plane-variant (R56). -/
def State.planeMask (s : State) (pl : Nat) (ws : List CodeWord) (x : Mask) : Mask :=
  if planeVariant ws then x &&& s.grp.lanesIn pl else x

/-- The issues of a plane-variant instruction of one plane, from RPL on, are one plane issue (R56, R193). -/
theorem issuePlanes_one {s : State} {next rpl pl : Nat} {x h : Mask} {ws : List CodeWord} (hrpl : rpl ≤ pl) :
    State.issuePlanes exec next rpl x h [(pl, ws)] s = s.issuePlane exec pl ws (x &&& s.grp.lanesIn pl) (h &&& s.grp.lanesIn pl) next false := by
  unfold State.issuePlanes
  rw [if_neg (Nat.not_lt.2 hrpl)]
  dsimp only
  generalize s.issuePlane exec pl ws (x &&& s.grp.lanesIn pl) (h &&& s.grp.lanesIn pl) next false = r
  cases r <;> simp [State.issuePlanes]

/-- The split that issues, set to make its plane issues (R193). -/
def State.startPlanes (s : State) (next : Nat) : State :=
  (s.modSpl fun p => { p with rpl := 0, part := none }).modCur fun c => { c with next := next }

/-- The issues of an instruction in one plane, of a split that has left no plane issue behind (R56). -/
theorem State.issueAll_plane {s : State} {pl : Nat} {ws : List CodeWord} (hpart : s.spl.part = none) :
    s.issueAll exec [(pl, ws)] =
      let next := s.spl.off + 4 * wordCount ws
      let x := s.spl.retry.getD s.spl.exec
      let h := if s.spl.retry.isSome then 0 else s.spl.hlp
      if planeVariant ws then State.issuePlanes exec next s.spl.rpl x h [(pl, ws)] (s.startPlanes next)
      else (s.startPlanes next).issuePlane exec pl ws x h next true := by
  unfold State.issueAll State.startPlanes
  cases hr : s.spl.retry <;> simp only [hpart, hr] <;> rfl

/-- The issues of words that decode, of a split whose lanes lie in one plane, are one plane issue (R56, R193). -/
theorem State.issueAll_one {s : State} {pl : Nat} {ws : List CodeWord} {c : Coded} {n : Nat} (hg : (s.groups.find? s.cur.gid).isSome = true)
    (hpart : s.spl.part = none) (hd : decodeWords ws = .ok (c, n))
    (hv : planeVariant ws = true → s.planeMask pl ws (s.spl.retry.getD s.spl.exec) ≠ 0 ∧ s.spl.rpl ≤ pl) :
    s.issueAll exec [(pl, ws)] =
      onNext (exec c.instr ((s.startPlanes (s.spl.off + 4 * wordCount ws)).atPlane pl (s.planeMask pl ws (s.spl.retry.getD s.spl.exec))
        (if helperRuns c.instr then s.planeMask pl ws (if s.spl.retry.isSome then 0 else s.spl.hlp) else 0) c.pre (s.spl.off + 4 * wordCount ws)))
        fun v => v.issuedPlane c.instr := by
  have hlanes (next : Nat) : (s.startPlanes next).grp.lanesIn pl = s.grp.lanesIn pl := by
    rw [show (s.startPlanes next).grp = _ from s.grp_modSpl _ hg]
    rfl
  rw [State.issueAll_plane hpart]
  dsimp only
  unfold State.planeMask at hv ⊢
  split
  · next hvar =>
    obtain ⟨hm, hrpl⟩ := hv hvar
    rw [if_pos hvar] at hm
    rw [issuePlanes_one hrpl, hlanes, State.issuePlane_decoded _ hd (.inl hm)]
  · exact State.issuePlane_decoded _ hd (.inr rfl)

/-- The step of an issue decision that the agenda names (R197; log 2). -/
theorem step_of_agenda {s : State} {turn : Turn} {rest : List Turn} (h : s.agenda = turn :: rest) :
    step s = ({ s with agenda := rest } : State).take turn := by
  unfold step State.nextTurn
  rw [h]

/-- The issue of words that decode, of a split whose lanes lie in one plane: its pipe, its W, its plane with the active and helper lanes, and its
prefix (R19, R56, R66). -/
def State.decodedIssue (t : State) (pl : Nat) (ws : List CodeWord) (c : Coded) : State :=
  let next := t.spl.off + 4 * wordCount ws
  let h := t.planeMask pl ws (if t.spl.retry.isSome then 0 else t.spl.hlp)
  ((t.modCur fun k => { k with uni := wordP (ws.headD 0), w := t.stallOf [(pl, ws)] }).startPlanes next).atPlane pl
    (t.planeMask pl ws (t.spl.retry.getD t.spl.exec)) (if helperRuns c.instr then h else 0) c.pre next

/-- The issue decision for a split whose lanes lie in one plane and whose words decode (R52, R56, R66, R94). -/
theorem State.issueWith_one {s t : State} {gid ent pl : Nat} {ws : List CodeWord} {c : Coded} {n : Nat}
    (hp : s.prepare gid ent = (t, .planes [(pl, ws)])) (hg : (t.groups.find? t.cur.gid).isSome = true) (hpart : t.spl.part = none)
    (hd : decodeWords ws = .ok (c, n)) (hv : planeVariant ws = true → t.planeMask pl ws (t.spl.retry.getD t.spl.exec) ≠ 0 ∧ t.spl.rpl ≤ pl) :
    s.issueWith exec gid ent = onNext (exec c.instr (t.decodedIssue pl ws c)) fun v =>
      ((v.issuedPlane c.instr).closeIssue (wordP (ws.headD 0)) (t.stallOf [(pl, ws)]) t.spl.rpl).tickOn := by
  obtain ⟨w0, ws', rfl⟩ : ∃ w0 ws', ws = w0 :: ws' := by
    cases ws with
    | nil => cases hd
    | cons w0 ws' => exact ⟨w0, ws', rfl⟩
  have hall : (t.modCur fun k => { k with uni := wordP w0, w := t.stallOf [(pl, w0 :: ws')] }).issueAll exec [(pl, w0 :: ws')]
      = onNext (exec c.instr (t.decodedIssue pl (w0 :: ws') c)) fun v => v.issuedPlane c.instr := State.issueAll_one hg hpart hd hv
  unfold State.issueWith
  simp only [hp, hall]
  cases exec c.instr (t.decodedIssue pl (w0 :: ws') c) <;> rfl

/-! ### The word that a fetch finds -/

/-- A fetch through an entry of the core's TLB that stands and admits it finds the frame's address, and nothing changes (R316, R322, R324, R325). -/
theorem State.translate_hit {s : State} {c : Nat} {asid : BitVec 16} {va : Nat} {e : Tlb} (hva : va < 2 ^ 56)
    (hen : (s.reg (dieOfCore c) 0x000).getLsbD 0 = true) (hf : (s.core c).tlb.find? (fun x => x.covers asid va) = some e)
    (hk : e.kind = kImmutable ∨ (e.kind = kPrivate ∧ dieOfPa (e.frame % 2 ^ 44) = dieOfCore c)) (hx : e.x = true)
    (hgen : e.gen = s.sliceGen (dieOfPa (e.frame % 2 ^ 44)) asid) :
    s.translate c asid va .fetch = (s, .ok (e.frame + (va - e.base)) e) := by
  have hfind : s.tlbFind c asid va = some e := by
    unfold State.tlbFind
    rw [hf]
  have hfill : s.tlbFill c e = s := if_pos (List.contains_iff_mem.2 (List.mem_of_find?_eq_some hf))
  have hlook : s.lookup c asid va = (s, .ok (e.frame + (va - e.base)) e) := by
    unfold State.lookup
    simp only [hfind, ← hgen, beq_self_eq_true, Bool.or_true, if_true, hfill]
  have hhost : e.kind ≠ kHost := by
    rcases hk with h | ⟨h, -⟩ <;> rw [h] <;> decide
  have hadm : kindAdmits e.kind (dieOfPa (e.frame % 2 ^ 44) == dieOfCore c) .fetch = true := by
    rcases hk with h | ⟨h, hd⟩
    · simp [kindAdmits, h]
    · unfold kindAdmits
      rw [h, hd]
      simp
  unfold State.translate State.translateWith
  rw [if_neg (Nat.not_le.2 hva)]
  simp only [hen, hlook, hhost, hadm, Tlb.permits, hx, AccessKind.writes]
  rfl

/-- The word that a fetch finds is the one at home, or that of the instruction cache where it holds a copy (R97; log 52). -/
theorem State.codeWord_cases (s : State) (c pa : Nat) :
    let w := BitVec.ofNat 32 (s.homeN pa 4)
    let l := s.line (.ic c) (pa / 64)
    let o := BitVec.ofNat 32 (ofBytes ((List.range 4).map fun i => l.byte (pa % 64 + i)))
    s.codeWord c pa = w ∨ (l.holds (pa % 64) 4 = true ∧ s.codeWord c pa = o) := by
  intro w l o
  unfold State.codeWord
  dsimp only
  split
  · next h =>
    simp only [Bool.and_eq_true] at h
    exact .inr ⟨h.1.1, rfl⟩
  · exact .inl rfl

/-- An instruction of one word is its word (R70). -/
theorem State.fetchInstr_short {s t : State} {gid p off : Nat} {w : CodeWord} (hoff : off < (s.group gid).regionLen)
    (hf : s.fetchWord (s.group gid).cx.core (s.group gid).cx.asid ((s.group gid).codeVa p off) = (t, .words [w]))
    (h1 : (wordLS w).toNat ≠ 1) (h2 : (wordLS w).toNat ≠ 2) : s.fetchInstr gid p off = (t, .words [w]) := by
  have h0 : s.wordAt gid p off 0 s = (t, .words [w]) := by
    unfold State.wordAt
    simp only [Nat.mul_zero, Nat.add_zero, if_pos hoff, hf]
  rw [State.fetchInstr_eq, h0]
  simp [h1, h2]

/-- A fetch that translates, of a word that the instruction cache holds (R303). -/
theorem State.fetchWord_held {s : State} {c : Nat} {asid : BitVec 16} {va ga : Nat} {e : Tlb} (ht : s.translate c asid va .fetch = (s, .ok ga e))
    (h : (s.line (.ic c) (ga % 2 ^ 44 / 64)).holds (ga % 2 ^ 44 % 64) 4 = true) :
    s.fetchWord c asid va = (s, .words [s.codeWord c (ga % 2 ^ 44)]) := by
  unfold State.fetchWord
  rw [ht]
  exact if_pos h

/-- A fetch that translates, of a word that the instruction cache does not hold: the line is fetched (R97, R303). -/
theorem State.fetchWord_missing {s : State} {c : Nat} {asid : BitVec 16} {va ga : Nat} {e : Tlb} (ht : s.translate c asid va .fetch = (s, .ok ga e))
    (h : (s.line (.ic c) (ga % 2 ^ 44 / 64)).holds (ga % 2 ^ 44 % 64) 4 = false) (hr : s.memReady (ga % 2 ^ 44) = true) :
    s.fetchWord c asid va = (s.fetchIc c (ga % 2 ^ 44 / 64), .words [s.codeWord c (ga % 2 ^ 44)]) := by
  unfold State.fetchWord
  rw [ht]
  exact (if_neg (by rw [h]; simp)).trans (if_pos hr)

/-- Settles O57, clause by clause. -/
theorem stepRunsDecoded : Obligations.StepRunsDecoded := by
  unfold Obligations.StepRunsDecoded
  refine ⟨?_, ?_, ?_, ?_⟩
  · intro s gid ent rest p pl ws c n t ha hmay s0 s1 hp hst hres hpart hloop hocc hoff hf hd q x y m h w u hv
    have hprep : ({ s with agenda := rest } : State).prepare gid ent = (t, .planes [(pl, ws)]) := State.prepare_one hp hst hres hloop hocc hoff hf
    have hg0 : (s0.groups.find? gid).isSome = true := State.isSome_of_split hp
    have hsame : s1.SameIssue t := by
      have := s1.fetchInstr_sameIssue gid pl p.off
      rwa [hf] at this
    obtain ⟨hgroups, hcur⟩ := hsame
    have hg : (t.groups.find? t.cur.gid).isSome = true := by
      rw [hgroups, hcur]
      exact s0.issuing_modGrp _ hg0
    have hpart' : t.spl.part = none := by
      have hspl : t.spl = s1.spl := by
        unfold State.spl State.grp State.group
        rw [hgroups, hcur]
      have hs0 : s0.spl = p := congrArg (fun o => Option.getD o default) hp
      rw [hspl, s0.spl_modSpl _ hg0 (Option.isSome_of_eq_some hp), hs0]
      exact hpart
    rw [step_of_agenda ha]
    refine (if_pos hmay).trans ((State.issueWith_one hprep hg hpart' hd hv).trans ?_)
    unfold onNext
    rfl
  · intro s gid ent rest ha hmay
    rw [step_of_agenda ha]
    exact if_neg (by rw [hmay]; simp)
  · intro s gid pl off e g c va pa w l held o hoff hva hen hf hk hx hgen
    have ht := State.translate_hit hva hen hf hk hx hgen
    have hcode : s.codeWord c pa = w ∨ (held = true ∧ s.codeWord c pa = o) := s.codeWord_cases c pa
    refine ⟨fun hh => ?_, fun hh hr => ?_⟩
    · have hw := State.fetchWord_held ht hh
      refine ⟨?_, fun how h1 h2 => ?_⟩
      · rcases hcode with h | ⟨-, h⟩
        · exact .inl (hw.trans (by rw [h]))
        · exact .inr (hw.trans (by rw [h]))
      · have h : s.codeWord c pa = w := hcode.elim id fun h => h.2.trans how
        exact State.fetchInstr_short hoff (hw.trans (by rw [h])) h1 h2
    · have h : s.codeWord c pa = w := hcode.resolve_right fun h => Bool.false_ne_true (hh.symm.trans h.1)
      have hw : s.fetchWord c g.cx.asid va = (s.fetchIc c (pa / 64), .words [w]) := (State.fetchWord_missing ht hh hr).trans (by rw [h])
      exact ⟨hw, State.fetchInstr_short hoff hw⟩
  · intro s i rest ha hev
    rw [step_of_agenda ha]
    exact if_pos hev

end Sys2Proof.Machine
end

section
/-! PROOFS. EXIT and the instructions without operands to check (O16). -/

namespace Sys2Proof.Machine

/-! ### What leaving the split table does to the issuing group -/

/-- A group that the issuing split's exit has changed: the lanes of a mask have exited, and the split owns them no more (R63, R179). -/
def Group.exiting (g : Group) (e : Nat) (x : Mask) : Group :=
  { g with exited := g.exited ||| x }.modSplit e fun p => { p with owned := p.owned &&& ~~~x, exec := 0, hlp := if x = 0 then p.hlp else 0 }

/-- A group without one of its splits, whose handler ends where that split ran it (R63, R192). -/
def Group.dropping (g : Group) (e : Nat) : Group :=
  let g := if g.handler = some e then { g with handler := none, aside := [], asideIid := none, tcause := g.tcause &&& ~~~(1#64 <<< 15) } else g
  { g with splits := g.splits.erase e }

/-- Two changes of one group are one. -/
theorem State.modGroup_modGroup (s : State) (k : Nat) (f g : Group → Group) : (s.modGroup k f).modGroup k g = s.modGroup k (g ∘ f) := by
  unfold State.modGroup
  rw [show ({ s with groups := s.groups.modify k f } : State).groups = s.groups.modify k f from rfl, Tab.modify_modify]

/-- EXIT of a split that owns other lanes leaves it with them; one of a split that does not takes it out of the split table (R63, R179). -/
theorem State.exitLanes_eq {s : State} (hi : s.Issuing) : s.exitLanes =
    if s.spl.owned &&& ~~~s.spl.exec = 0 then
      ((((s.modGrp fun g => (g.exiting s.cur.ent s.spl.exec).dropping s.cur.ent).resumeDeferred s.cur.gid 16).endIfDone s.cur.gid).setFlow .gone)
    else s.modGrp fun g => g.exiting s.cur.ent s.spl.exec := by
  have hspl : (s.modGrp fun g => g.exiting s.cur.ent s.spl.exec).spl.owned = s.spl.owned &&& ~~~s.spl.exec := by
    unfold State.spl
    rw [s.grp_modGrp _ hi.1]
    exact congrArg Split.owned (Group.split_modSplit_self { s.grp with exited := s.grp.exited ||| s.spl.exec } s.cur.ent _ hi.2)
  unfold State.exitLanes
  dsimp only
  rw [State.modGroup_modGroup]
  refine ite_congr (by rw [← hspl]; rfl) (fun _ => ?_) fun _ => rfl
  unfold State.dropSplit State.freeSplit
  rw [State.modGroup_modGroup, State.modGroup_modGroup]
  rfl

/-- A group whose oldest deferred entry has resumed as a split, which takes an entry of the split table unless no lane is left to it (R60). -/
def Group.resuming (g : Group) (e : Nat) (p : Split) : Group :=
  { g with
    defHead := (g.defHead + 1) % max g.cx.defCap 1
    defCount := g.defCount - 1
    splits := if p.owned = 0 then g.splits else g.splits.insert e p }

/-- Deferred splits resume one by one while an entry is free (R60). -/
theorem State.resumeDeferred_succ (s : State) (gid n : Nat) : s.resumeDeferred gid (n + 1) =
    match (s.group gid).freeEntry with
    | none => s
    | some e =>
      if (s.group gid).defCount = 0 then s
      else (s.modGroup gid fun g => g.resuming e (s.deferredSplit (s.group gid))).resumeDeferred gid n := rfl

/-- Without deferred splits none resumes (R60). -/
theorem State.resumeDeferred_none {s : State} {gid : Nat} (h : (s.group gid).defCount = 0) (n : Nat) : s.resumeDeferred gid n = s := by
  cases n with
  | zero => rfl
  | succ n =>
    rw [State.resumeDeferred_succ]
    split
    · rfl
    · exact if_pos h

/-- A group that is as another, but for its splits, live and deferred. -/
def Group.SameButSplits (g h : Group) : Prop := h = { g with defHead := h.defHead, defCount := h.defCount, splits := h.splits }

theorem Group.SameButSplits.trans {g h k : Group} (hg : g.SameButSplits h) (hh : h.SameButSplits k) : g.SameButSplits k := by
  unfold Group.SameButSplits at hg hh ⊢
  rw [hh, hg]

/-- Deferred splits resume in their group alone, of which only the splits change (R60). -/
theorem State.resumeDeferred_frame {s : State} {gid : Nat} (h : (s.groups.find? gid).isSome = true) (n : Nat) :
    s.resumeDeferred gid n = { s with groups := (s.resumeDeferred gid n).groups }
      ∧ (s.group gid).SameButSplits ((s.resumeDeferred gid n).group gid) := by
  induction n generalizing s with
  | zero => exact ⟨rfl, rfl⟩
  | succ n ih =>
    rw [State.resumeDeferred_succ]
    split
    · exact ⟨rfl, rfl⟩
    · next e _ =>
      split
      · exact ⟨rfl, rfl⟩
      · have hself := s.group_modGroup_self gid (fun g => g.resuming e (s.deferredSplit (s.group gid))) h
        obtain ⟨hs, hg⟩ := ih (s := s.modGroup gid fun g => g.resuming e (s.deferredSplit (s.group gid)))
          (by rw [State.find?_modGroup, if_pos rfl, Option.isSome_map]; exact h)
        exact ⟨hs, .trans (by rw [hself]; rfl) hg⟩

/-- A group of which a lane is left does not end (R63). -/
theorem State.endIfDone_of_alive {s : State} {gid : Nat} (h : (s.group gid).exited ≠ BitVec.allOnes 32) : s.endIfDone gid = s :=
  if_neg fun hc => h hc.1

/-! ### EXIT -/

/-- A split that owns other lanes goes on with them. -/
theorem State.exitLanes_partial {s : State} (hi : s.Issuing) (h : s.spl.owned &&& ~~~s.spl.exec ≠ 0) :
    OnlyGroup s s.exitLanes ∧ s.exitLanes.grp = { s.grp with exited := s.grp.exited ||| s.spl.exec, splits := s.exitLanes.grp.splits }
      ∧ s.exitLanes.spl = { s.spl with owned := s.spl.owned &&& ~~~s.spl.exec, exec := 0, hlp := if s.spl.exec = 0 then s.spl.hlp else 0 } := by
  rw [State.exitLanes_eq hi, if_neg h]
  have hgrp := s.grp_modGrp (fun g => g.exiting s.cur.ent s.spl.exec) hi.1
  refine ⟨⟨rfl, fun g hg => Tab.find?_modify_ne _ _ hg, memoryKept_of_groups _ _ rfl⟩, ?_, ?_⟩
  · rw [hgrp]
    rfl
  · show (s.modGrp fun g => g.exiting s.cur.ent s.spl.exec).grp.split s.cur.ent = _
    rw [hgrp]
    exact Group.split_modSplit_self { s.grp with exited := s.grp.exited ||| s.spl.exec } s.cur.ent _ hi.2

/-- The issuing group once its split has left the split table, before deferred splits resume. -/
theorem State.grp_exiting {s : State} (hi : s.Issuing) :
    (s.modGrp fun g => (g.exiting s.cur.ent s.spl.exec).dropping s.cur.ent).group s.cur.gid = (s.grp.exiting s.cur.ent s.spl.exec).dropping s.cur.ent :=
  s.grp_modGrp _ hi.1

theorem Group.exiting_exited (g : Group) (e : Nat) (x : Mask) : (g.exiting e x).exited = g.exited ||| x := rfl

theorem Group.dropping_exited (g : Group) (e : Nat) : (g.dropping e).exited = g.exited := by
  unfold Group.dropping
  dsimp only
  split <;> rfl

theorem Group.dropping_of_handler {g : Group} {e : Nat} (h : g.handler = some e) : g.dropping e =
    { g with handler := none, aside := [], asideIid := none, tcause := g.tcause &&& ~~~(1#64 <<< 15), splits := g.splits.erase e } := by
  unfold Group.dropping
  rw [if_pos h]

theorem Group.dropping_of_other {g : Group} {e : Nat} (h : g.handler ≠ some e) : g.dropping e = { g with splits := g.splits.erase e } := by
  unfold Group.dropping
  rw [if_neg h]

/-- Leaving the split table keeps how many splits are deferred, and whether the group has ended. -/
theorem Group.dropping_keeps (g : Group) (e : Nat) : (g.dropping e).defCount = g.defCount ∧ (g.dropping e).ended = g.ended := by
  unfold Group.dropping
  dsimp only
  split <;> exact ⟨rfl, rfl⟩

/-- EXIT of a split that owns no other lane, where no split is deferred: its group is without it, and ends where no lane is left. -/
theorem State.exitLanes_gone {s : State} (hi : s.Issuing) (h : s.spl.owned &&& ~~~s.spl.exec = 0) (hd : s.grp.defCount = 0) :
    s.exitLanes = ((s.modGrp fun g => (g.exiting s.cur.ent s.spl.exec).dropping s.cur.ent).endIfDone s.cur.gid).setFlow .gone := by
  have hdef : ((s.grp.exiting s.cur.ent s.spl.exec).dropping s.cur.ent).defCount = 0 := by
    rw [(Group.dropping_keeps _ _).1]
    exact hd
  rw [State.exitLanes_eq hi, if_pos h, State.resumeDeferred_none (by rw [s.grp_exiting hi]; exact hdef)]

/-- A split that owns no other lane leaves the split table, and its group goes on with the other splits. -/
theorem State.exitLanes_leaves {s : State} (hi : s.Issuing) (h : s.spl.owned &&& ~~~s.spl.exec = 0)
    (hx : s.grp.exited ||| s.spl.exec ≠ BitVec.allOnes 32) (hd : s.grp.defCount = 0) (hh : s.grp.handler ≠ some s.cur.ent) :
    s.exitLanes = { s with groups := s.exitLanes.groups, cur := { s.cur with flow := .gone } }
      ∧ (∀ g, g ≠ s.cur.gid → s.exitLanes.groups.find? g = s.groups.find? g) ∧ s.exitLanes.grp.exited = s.grp.exited ||| s.spl.exec
      ∧ s.exitLanes.grp.splits.find? s.cur.ent = none ∧ ∀ e, e ≠ s.cur.ent → s.exitLanes.grp.splits.find? e = s.grp.splits.find? e := by
  have hgrp : ((s.modGrp fun g => (g.exiting s.cur.ent s.spl.exec).dropping s.cur.ent).setFlow .gone).grp
      = { s.grp.exiting s.cur.ent s.spl.exec with splits := (s.grp.exiting s.cur.ent s.spl.exec).splits.erase s.cur.ent } :=
    (s.grp_exiting hi).trans (Group.dropping_of_other hh)
  rw [State.exitLanes_gone hi h hd, State.endIfDone_of_alive (by rw [s.grp_exiting hi, Group.dropping_exited]; exact hx), hgrp]
  exact ⟨rfl, fun g hg => Tab.find?_modify_ne _ _ hg, rfl, Tab.find?_erase_self _ _,
    fun e he => (Tab.find?_erase_ne _ he).trans (Tab.find?_modify_ne _ _ he)⟩

/-- The handler's split that owns no other lane ends its handler with it, whichever deferred splits resume. -/
theorem State.exitLanes_handler {s : State} (hi : s.Issuing) (h : s.spl.owned &&& ~~~s.spl.exec = 0)
    (hx : s.grp.exited ||| s.spl.exec ≠ BitVec.allOnes 32) (hh : s.grp.handler = some s.cur.ent) :
    s.exitLanes.grp.handler = none ∧ s.exitLanes.grp.aside = [] ∧ s.exitLanes.grp.tcause = s.grp.tcause &&& ~~~(1#64 <<< 15)
      ∧ s.exitLanes.grp.exited = s.grp.exited ||| s.spl.exec ∧ MemoryKept s s.exitLanes := by
  have hgrp := s.grp_exiting hi
  rw [Group.dropping_of_handler (by exact hh)] at hgrp
  rw [State.exitLanes_eq hi, if_pos h]
  generalize hu : (s.modGrp fun g => (g.exiting s.cur.ent s.spl.exec).dropping s.cur.ent) = u at *
  have hkept : u = { s with groups := u.groups } := by rw [← hu]; rfl
  have hsome : (u.groups.find? s.cur.gid).isSome = true := by rw [← hu]; exact s.issuing_modGrp _ hi.1
  obtain ⟨hv, hsame⟩ := u.resumeDeferred_frame hsome 16
  generalize u.resumeDeferred s.cur.gid 16 = v at *
  have hvs : v = { s with groups := v.groups } := by rw [hv, hkept]
  have hsame' : v.group s.cur.gid = _ := hsame
  rw [hgrp] at hsame'
  rw [State.endIfDone_of_alive (by rw [hsame']; exact hx)]
  have hvg : (v.setFlow .gone).grp = v.group s.cur.gid := by
    show v.group v.cur.gid = _
    rw [hvs]
  rw [hvg, hsame']
  exact ⟨rfl, rfl, rfl, rfl, memoryKept_of_groups s v hvs⟩

/-- A group of which no lane is left ends (R63). -/
theorem State.exitLanes_ends {s : State} (hi : s.Issuing) (h : s.spl.owned &&& ~~~s.spl.exec = 0)
    (hx : s.grp.exited ||| s.spl.exec = BitVec.allOnes 32) (he : s.grp.ended = false) (hd : s.grp.defCount = 0) :
    s.exitLanes.cur.flow = .gone ∧ s.exitLanes.grp.ended = true ∧ s.exitLanes.grp.splits = [] ∧ s.exitLanes.grp.v = [] ∧ s.exitLanes.grp.u = []
      ∧ s.exitLanes.grp.m = [] ∧ s.exitLanes.mem = s.mem ∧ s.exitLanes.blocks = s.blocks := by
  have hgrp := s.grp_exiting hi
  rw [State.exitLanes_gone hi h hd]
  generalize hu : (s.modGrp fun g => (g.exiting s.cur.ent s.spl.exec).dropping s.cur.ent) = u at *
  have hsome : (u.groups.find? s.cur.gid).isSome = true := by rw [← hu]; exact s.issuing_modGrp _ hi.1
  have hend : u.endIfDone s.cur.gid = u.endGroup s.cur.gid := by
    refine if_pos ?_
    rw [hgrp, Group.dropping_exited, (Group.dropping_keeps _ _).2]
    exact ⟨hx, by rw [show (s.grp.exiting s.cur.ent s.spl.exec).ended = s.grp.ended from rfl, he]; rfl⟩
  have hcur : u.cur.gid = s.cur.gid := by rw [← hu]; rfl
  have hfin : ((u.endGroup s.cur.gid).setFlow .gone).grp = _ :=
    (congrArg (fun k => (u.endGroup s.cur.gid).group k) hcur).trans (u.group_modGroup_self s.cur.gid _ hsome)
  rw [hend, hfin]
  exact ⟨rfl, rfl, rfl, rfl, rfl, rfl, by rw [← hu]; rfl, by rw [← hu]; rfl⟩

/-- Settles O16: EXIT by the lanes that are left to its split and its group, and the others by their meanings. -/
theorem exitAndSimpleEffects : Obligations.ExitAndSimpleEffects := by
  unfold Obligations.ExitAndSimpleEffects
  constructor
  · intro s hi x
    exact ⟨fun h => ⟨_, rfl, State.exitLanes_partial hi h⟩, fun h hx hd hh => ⟨_, rfl, State.exitLanes_leaves hi h hx hd hh⟩,
      fun h hx hh => ⟨_, rfl, State.exitLanes_handler hi h hx hh⟩, fun h hx he hd => ⟨_, rfl, State.exitLanes_ends hi h hx he hd⟩⟩
  · intro s hi quads
    refine ⟨rfl, rfl, fun _ => rfl, rfl, fun hs ha => ?_, fun hsa hw => ?_⟩
    · exact congrArg Host.Outcome.next (if_neg (by simp [hs, ha]))
    · exact congrArg Host.Outcome.next (if_pos (by simpa [hw] using hsa))

end Sys2Proof.Machine
end


section
/-! PROOFS. Storage errors and self-tests: the requests that the retirement of a core makes, and a state in which a live block of the retired core is
not asked to stop (R224, R293, R352). -/

namespace Sys2Proof.Machine

/-- The blocks asked to stop are found through the casts that the state lists: of a co-resident pour of which none is listed, none is found. -/
theorem State.together_of_no_casts {s : State} {cast : Nat} (hr : (s.launch (s.castOf cast).launch).coRes = true) (hc : s.casts = []) :
    s.together cast = [] := by
  simp [State.together, hr, hc]

/-- A request of pre-emption asks nothing of a state whose blocks' casts find no cast. -/
theorem State.ask_of_together_nil {s : State} (h : ∀ p ∈ s.blocks, s.together p.2.cast = []) (f : Nat → Block → Bool) : s.ask f = s := by
  have hcs : ((s.blocks.filter fun b => s.blockLive b.2 && f b.1 b.2).map (·.2.cast)).eraseDups.flatMap s.together = [] := by
    rw [List.flatMap_eq_nil_iff]
    intro c hc
    obtain ⟨p, hp, rfl⟩ := List.mem_map.mp (List.mem_eraseDups.mp hc)
    exact h p (List.mem_filter.mp hp |>.1)
  simp [State.ask, hcs]

/-- The retirement of a core leaves the blocks of such a state as they are, its cluster having other cores in use. -/
theorem State.retireCore_blocks {s : State} {c : Nat} (h : ∀ p ∈ s.blocks, s.together p.2.cast = [])
    (hk : ∃ k ∈ coresOf (clusterOfCore c), k ≠ c ∧ (s.core k).retired = false) : (s.retireCore c).blocks = s.blocks := by
  obtain ⟨k, hmem, hne, hin⟩ := hk
  generalize hu : (s.modCore c fun k => { k with retired := true, mbox := [] }) = u
  have hask : (u.ask fun _ b => b.core == c) = u := State.ask_of_together_nil (by rw [← hu]; exact h) _
  have hall : ¬ ((coresOf (clusterOfCore c)).all fun k => (u.core k).retired) = true := by
    intro ha
    have hret := List.all_eq_true.mp ha k hmem
    rw [← hu, State.core, State.modCore, Tab.find?_insert_ne _ _ hne] at hret
    exact absurd (hret.symm.trans hin) (by decide)
  simp only [State.retireCore, hu, hask, if_neg hall]
  rw [← hu]
  rfl

/-- A state that lists a co-resident pour, and a block of it on core 0 with a live group, but not the block's cast. -/
def unlistedCast : State :=
  { State.reset with
    groups := [(0, default)]
    launches := [(0, { (default : Launch) with words := [0, 0, 0, 0x1000000000000000] })]
    blocks := [(0, { (default : Block) with groups := [0] })] }

/-- The block of `unlistedCast` is live, and it is on core 0. -/
theorem unlistedCast_live : unlistedCast.blockLive (unlistedCast.block 0) = true ∧ (unlistedCast.block 0).core = 0 := by decide

/-- No cast stops with that of the block. -/
theorem unlistedCast_together : ∀ p ∈ unlistedCast.blocks, unlistedCast.together p.2.cast = [] := by
  intro p hp
  obtain rfl := List.mem_singleton.mp hp
  exact State.together_of_no_casts (by decide) rfl

/-- A failed test of core 0 does not ask the block to stop. -/
theorem unlistedCast_selfTest : ((unlistedCast.selfTest (.core 0) false).block 0).asked = false := by
  have hb : (unlistedCast.selfTest (.core 0) false).blocks = (unlistedCast.retireCore 0).blocks := rfl
  rw [State.block, hb, State.retireCore_blocks unlistedCast_together ⟨1, by decide, by decide, rfl⟩]
  rfl

/-- Refutes O55: a failed test of a core asks its live blocks to stop only where their casts are listed; with those of a co-resident pour it asks the
blocks of the casts that the state lists (R293, R352), so in `unlistedCast`, whose block's cast is not listed, the live block of core 0 goes on. No run
from reset is claimed to reach that state: the statement speaks of every state. -/
theorem not_storageErrors : ¬ Obligations.StorageErrors := by
  unfold Obligations.StorageErrors
  rintro ⟨-, -, -, -, -, -, -, -, -, -, -, hcore, -⟩
  obtain ⟨-, hfail, -⟩ := (hcore unlistedCast 0).2 (by decide)
  obtain ⟨t, ht, -, -, -, hasked, -⟩ := hfail
  obtain rfl : unlistedCast.selfTest (.core 0) false = t := Host.Outcome.next.inj ht
  have h : ((unlistedCast.selfTest (.core 0) false).block 0).asked = true :=
    hasked 0 _ rfl unlistedCast_live.1 unlistedCast_live.2
  exact absurd (unlistedCast_selfTest.symm.trans h) (by decide)

end Sys2Proof.Machine
end

section
/-! PROOFS. The decoder reads back what the encoder writes (O59), and reads the words of the spec (O58). -/

namespace Sys2Proof

/-! ### The fields of each word read back (R72 to R76)

The words are appended parts; `-Nat.reduceAdd` keeps their widths as sums of the parts' widths, as the library's lemmas on appended bit vectors read
them. -/

@[simp] theorem wordP_shortLaneWord (w : BitVec 2) (f : ShortLane) : wordP (shortLaneWord w f) = false := by
  simp [-BitVec.getLsbD_eq_getElem, -Nat.reduceAdd, wordP, shortLaneWord, BitVec.getLsbD_append]
@[simp] theorem wordLS_shortLaneWord (w : BitVec 2) (f : ShortLane) : wordLS (shortLaneWord w f) = 0 := by
  simp (disch := omega) [-Nat.reduceAdd, wordLS, CodeWord.field, shortLaneWord, BitVec.extractLsb'_append_eq_of_le]
@[simp] theorem wordW_shortLaneWord (w : BitVec 2) (f : ShortLane) : wordW (shortLaneWord w f) = w := by
  simp (disch := omega) [-Nat.reduceAdd, wordW, CodeWord.field, shortLaneWord, BitVec.extractLsb'_append_eq_of_le,
    BitVec.extractLsb'_append_eq_of_add_le]
@[simp] theorem shortLaneOf_shortLaneWord (w : BitVec 2) (f : ShortLane) : shortLaneOf (shortLaneWord w f) = f := by
  simp (disch := omega) [-Nat.reduceAdd, shortLaneOf, CodeWord.field, shortLaneWord, BitVec.extractLsb'_append_eq_of_le,
    BitVec.extractLsb'_append_eq_of_add_le]

@[simp] theorem wordP_shortUniWord (w : BitVec 2) (f : ShortUni) : wordP (shortUniWord w f) = true := by
  simp [-BitVec.getLsbD_eq_getElem, -Nat.reduceAdd, wordP, shortUniWord, BitVec.getLsbD_append]
@[simp] theorem wordLS_shortUniWord (w : BitVec 2) (f : ShortUni) : wordLS (shortUniWord w f) = 0 := by
  simp (disch := omega) [-Nat.reduceAdd, wordLS, CodeWord.field, shortUniWord, BitVec.extractLsb'_append_eq_of_le]
@[simp] theorem wordW_shortUniWord (w : BitVec 2) (f : ShortUni) : wordW (shortUniWord w f) = w := by
  simp (disch := omega) [-Nat.reduceAdd, wordW, CodeWord.field, shortUniWord, BitVec.extractLsb'_append_eq_of_le,
    BitVec.extractLsb'_append_eq_of_add_le]
@[simp] theorem shortUniOf_shortUniWord (w : BitVec 2) (f : ShortUni) : shortUniOf (shortUniWord w f) = f := by
  simp (disch := omega) [-BitVec.getLsbD_eq_getElem, -Nat.reduceAdd, shortUniOf, CodeWord.field, shortUniWord, BitVec.getLsbD_append,
    BitVec.extractLsb'_append_eq_of_le, BitVec.extractLsb'_append_eq_of_add_le]

@[simp] theorem wordP_headWord (p : Bool) (w : BitVec 2) (f : Long) : wordP (headWord p w f) = p := by
  simp [-BitVec.getLsbD_eq_getElem, -Nat.reduceAdd, wordP, headWord, BitVec.getLsbD_append]
@[simp] theorem wordLS_headWord (p : Bool) (w : BitVec 2) (f : Long) : wordLS (headWord p w f) = 1 := by
  simp (disch := omega) [-Nat.reduceAdd, wordLS, CodeWord.field, headWord, BitVec.extractLsb'_append_eq_of_le,
    BitVec.extractLsb'_append_eq_of_add_le]
@[simp] theorem wordW_headWord (p : Bool) (w : BitVec 2) (f : Long) : wordW (headWord p w f) = w := by
  simp (disch := omega) [-Nat.reduceAdd, wordW, CodeWord.field, headWord, BitVec.extractLsb'_append_eq_of_le,
    BitVec.extractLsb'_append_eq_of_add_le]
@[simp] theorem wordP_tailWord (p : Bool) (f : Long) : wordP (tailWord p f) = p := by
  simp [-BitVec.getLsbD_eq_getElem, -Nat.reduceAdd, wordP, tailWord, BitVec.getLsbD_append]
@[simp] theorem wordLS_tailWord (p : Bool) (f : Long) : wordLS (tailWord p f) = 3 := by
  simp (disch := omega) [-Nat.reduceAdd, wordLS, CodeWord.field, tailWord, BitVec.extractLsb'_append_eq_of_le,
    BitVec.extractLsb'_append_eq_of_add_le]
@[simp] theorem longOf_headWord_tailWord (p : Bool) (w : BitVec 2) (f : Long) : longOf (headWord p w f) (tailWord p f) = f := by
  simp (disch := omega) [-Nat.reduceAdd, longOf, CodeWord.field, headWord, tailWord, BitVec.extractLsb'_append_eq_of_le,
    BitVec.extractLsb'_append_eq_of_add_le]

@[simp] theorem wordP_prefixWord (p : Bool) (q : Prefix) : wordP (prefixWord p q) = p := by
  simp [-BitVec.getLsbD_eq_getElem, -Nat.reduceAdd, wordP, prefixWord, BitVec.getLsbD_append]
@[simp] theorem wordLS_prefixWord (p : Bool) (q : Prefix) : wordLS (prefixWord p q) = 2 := by
  simp (disch := omega) [-Nat.reduceAdd, wordLS, CodeWord.field, prefixWord, BitVec.extractLsb'_append_eq_of_le,
    BitVec.extractLsb'_append_eq_of_add_le]
@[simp] theorem prefixOf_prefixWord (p : Bool) (q : Prefix) : prefixOf (prefixWord p q) = some q := by
  simp (disch := omega) [-BitVec.getLsbD_eq_getElem, -Nat.reduceAdd, prefixOf, CodeWord.field, prefixWord, BitVec.getLsbD_append,
    BitVec.extractLsb'_append_eq_of_le, BitVec.extractLsb'_append_eq_of_add_le]

/-! The fields that the class of a word depends on (R81). -/

@[simp] theorem field_op_shortLaneWord (w : BitVec 2) (f : ShortLane) : CodeWord.field (shortLaneWord w f) 22 5 = f.op :=
  congrArg ShortLane.op (shortLaneOf_shortLaneWord w f)
@[simp] theorem field_op_shortUniWord (w : BitVec 2) (f : ShortUni) : CodeWord.field (shortUniWord w f) 22 5 = f.op :=
  congrArg ShortUni.op (shortUniOf_shortUniWord w f)
@[simp] theorem field_f_shortUniWord (w : BitVec 2) (f : ShortUni) : CodeWord.field (shortUniWord w f) 0 5 = f.f :=
  congrArg ShortUni.f (shortUniOf_shortUniWord w f)
@[simp] theorem field_op_headWord (p : Bool) (w : BitVec 2) (f : Long) : CodeWord.field (headWord p w f) 18 9 = f.op :=
  congrArg Long.op (longOf_headWord_tailWord p w f)

/-! ### The first word of an unprefixed instruction -/

/-- The short word or head that an instruction starts with. -/
def Raw.first (w : BitVec 2) : Raw → CodeWord
  | .sl f => shortLaneWord w f
  | .su f => shortUniWord w f
  | .ll f => headWord false w f
  | .ul f => headWord true w f

theorem Raw.words_eq_first_cons (w : BitVec 2) (raw : Raw) : raw.words w = raw.first w :: (raw.words w).tail := by
  cases raw <;> rfl

@[simp] theorem Raw.wordP_first (w : BitVec 2) (raw : Raw) : wordP (raw.first w) = raw.pipe := by
  cases raw <;> simp [Raw.first, Raw.pipe]

/-- No unprefixed instruction starts with a word that `decodeWords` takes for one of R76. -/
theorem Raw.wordLS_first_ne (w : BitVec 2) (raw : Raw) : (wordLS (raw.first w)).toNat ≠ 2 := by
  cases raw <;> simp [Raw.first]

/-- The stall count does not enter into the class of a word (R81). -/
theorem Raw.prefixClassOf_first (w v : BitVec 2) (raw : Raw) : prefixClassOf (raw.first w) = prefixClassOf (raw.first v) := by
  cases raw <;> simp [Raw.first, prefixClassOf]

theorem Instr.prefixClass_of_toRaw {i : Instr} {raw : Raw} (h : i.toRaw = some raw) (w : BitVec 2) :
    i.prefixClass = prefixClassOf (raw.first w) := by
  rw [raw.prefixClassOf_first w 0]
  unfold Instr.prefixClass
  rw [h]
  cases raw <;> rfl

/-- An instruction that starts with the all-zero word is the short VADD of v0 with W = 0 (R89). -/
theorem Raw.parse_of_first_zero {w : BitVec 2} {raw : Raw} (h : raw.first w = 0) : w = 0 ∧ raw.parse = some (.vaddShort ⟨0, 0, 0⟩) := by
  have hLS : wordLS (raw.first w) = 0 := by rw [h]; rfl
  have hP : wordP (raw.first w) = false := by rw [h]; rfl
  cases raw with
  | sl f =>
    have hw : w = wordW 0 := (wordW_shortLaneWord w f).symm.trans (congrArg wordW h)
    have hf : f = shortLaneOf 0 := (shortLaneOf_shortLaneWord w f).symm.trans (congrArg shortLaneOf h)
    subst hw hf
    exact ⟨rfl, rfl⟩
  | su f => simp [Raw.first] at hP
  | ll f => simp [Raw.first] at hLS
  | ul f => simp [Raw.first] at hLS

/-! ### The fields of an instruction name it -/

open Laws in
/-- The fields that the encoder writes for an instruction name that instruction; an event of the part has none. -/
theorem Instr.parse_toRaw (i : Instr) : ParseBack.Statement i := by
  cases i with
  | vaddShort o => exact ParseBack.vaddShort o
  | vsubShort o => exact ParseBack.vsubShort o
  | vaddi o => exact ParseBack.vaddi o
  | vmulShort o => exact ParseBack.vmulShort o
  | vandShort o => exact ParseBack.vandShort o
  | vorShort o => exact ParseBack.vorShort o
  | vxorShort o => exact ParseBack.vxorShort o
  | vshli o => exact ParseBack.vshli o
  | vshri o => exact ParseBack.vshri o
  | vsrai o => exact ParseBack.vsrai o
  | vminShort o => exact ParseBack.vminShort o
  | vmaxShort o => exact ParseBack.vmaxShort o
  | vadds o => exact ParseBack.vadds o
  | vmuls o => exact ParseBack.vmuls o
  | faddShort o => exact ParseBack.faddShort o
  | fsubShort o => exact ParseBack.fsubShort o
  | fmulShort o => exact ParseBack.fmulShort o
  | fadds o => exact ParseBack.fadds o
  | fmuls o => exact ParseBack.fmuls o
  | fminShort o => exact ParseBack.fminShort o
  | fmaxShort o => exact ParseBack.fmaxShort o
  | ffmaShort o => exact ParseBack.ffmaShort o
  | ldsShort o => exact ParseBack.ldsShort o
  | stsShort o => exact ParseBack.stsShort o
  | vmovsShort o => exact ParseBack.vmovsShort o
  | smovShort o => exact ParseBack.smovShort o
  | saddShort o => exact ParseBack.saddShort o
  | ssubShort o => exact ParseBack.ssubShort o
  | smulShort o => exact ParseBack.smulShort o
  | sandShort o => exact ParseBack.sandShort o
  | sorShort o => exact ParseBack.sorShort o
  | sxorShort o => exact ParseBack.sxorShort o
  | sshlShort o => exact ParseBack.sshlShort o
  | sshrShort o => exact ParseBack.sshrShort o
  | ssraShort o => exact ParseBack.ssraShort o
  | sminShort o => exact ParseBack.sminShort o
  | smaxShort o => exact ParseBack.smaxShort o
  | sminn o => exact ParseBack.sminn o
  | smaxn o => exact ParseBack.smaxn o
  | scmpShort o => exact ParseBack.scmpShort o
  | brs o => exact ParseBack.brs o
  | msave o => exact ParseBack.msave o
  | mload o => exact ParseBack.mload o
  | mand o => exact ParseBack.mand o
  | mandn o => exact ParseBack.mandn o
  | mor o => exact ParseBack.mor o
  | mxor o => exact ParseBack.mxor o
  | waitcntShort o => exact ParseBack.waitcntShort o
  | bwaitShort o => exact ParseBack.bwaitShort o
  | bcloseShort o => exact ParseBack.bcloseShort o
  | mwaitShort o => exact ParseBack.mwaitShort o
  | nop => exact ParseBack.nop
  | vadd o => exact ParseBack.vadd o
  | vsub o => exact ParseBack.vsub o
  | vmul o => exact ParseBack.vmul o
  | vmulh o => exact ParseBack.vmulh o
  | vmad o => exact ParseBack.vmad o
  | vand o => exact ParseBack.vand o
  | vor o => exact ParseBack.vor o
  | vxor o => exact ParseBack.vxor o
  | vnot o => exact ParseBack.vnot o
  | vshl o => exact ParseBack.vshl o
  | vshr o => exact ParseBack.vshr o
  | vsra o => exact ParseBack.vsra o
  | vrot o => exact ParseBack.vrot o
  | vmin o => exact ParseBack.vmin o
  | vmax o => exact ParseBack.vmax o
  | vabs o => exact ParseBack.vabs o
  | vneg o => exact ParseBack.vneg o
  | vclz o => exact ParseBack.vclz o
  | vpopc o => exact ParseBack.vpopc o
  | vbrev o => exact ParseBack.vbrev o
  | vbfx o => exact ParseBack.vbfx o
  | vbfi o => exact ParseBack.vbfi o
  | vsel o => exact ParseBack.vsel o
  | vcmp o => exact ParseBack.vcmp o
  | vcmpv o => exact ParseBack.vcmpv o
  | vmov o => exact ParseBack.vmov o
  | vmovs o => exact ParseBack.vmovs o
  | vidx o => exact ParseBack.vidx o
  | vpack o => exact ParseBack.vpack o
  | vunpk o => exact ParseBack.vunpk o
  | fadd o => exact ParseBack.fadd o
  | fsub o => exact ParseBack.fsub o
  | fmul o => exact ParseBack.fmul o
  | ffma o => exact ParseBack.ffma o
  | fmin o => exact ParseBack.fmin o
  | fmax o => exact ParseBack.fmax o
  | fabs o => exact ParseBack.fabs o
  | fneg o => exact ParseBack.fneg o
  | fcmp o => exact ParseBack.fcmp o
  | fcmpv o => exact ParseBack.fcmpv o
  | fclass o => exact ParseBack.fclass o
  | fscale o => exact ParseBack.fscale o
  | frnd o => exact ParseBack.frnd o
  | fcvt o => exact ParseBack.fcvt o
  | icvt o => exact ParseBack.icvt o
  | ftoi o => exact ParseBack.ftoi o
  | fdot o => exact ParseBack.fdot o
  | frcp o => exact ParseBack.frcp o
  | frsq o => exact ParseBack.frsq o
  | fexp2 o => exact ParseBack.fexp2 o
  | flog2 o => exact ParseBack.flog2 o
  | fsin o => exact ParseBack.fsin o
  | fcos o => exact ParseBack.fcos o
  | ftanh o => exact ParseBack.ftanh o
  | vshf o => exact ParseBack.vshf o
  | vshfi o => exact ParseBack.vshfi o
  | qswp o => exact ParseBack.qswp o
  | qbc o => exact ParseBack.qbc o
  | vbal o => exact ParseBack.vbal o
  | vvote o => exact ParseBack.vvote o
  | vred o => exact ParseBack.vred o
  | vscan o => exact ParseBack.vscan o
  | vconf o => exact ParseBack.vconf o
  | visect o => exact ParseBack.visect o
  | vtopk o => exact ParseBack.vtopk o
  | vmrank o => exact ParseBack.vmrank o
  | ld o => exact ParseBack.ld o
  | st o => exact ParseBack.st o
  | lds o => exact ParseBack.lds o
  | sts o => exact ParseBack.sts o
  | ldc o => exact ParseBack.ldc o
  | stc o => exact ParseBack.stc o
  | atom o => exact ParseBack.atom o
  | atoms o => exact ParseBack.atoms o
  | atomc o => exact ParseBack.atomc o
  | ldf o => exact ParseBack.ldf o
  | radd o => exact ParseBack.radd o
  | rmin o => exact ParseBack.rmin o
  | rmax o => exact ParseBack.rmax o
  | ror o => exact ParseBack.ror o
  | rwo o => exact ParseBack.rwo o
  | rarr o => exact ParseBack.rarr o
  | rget o => exact ParseBack.rget o
  | cradd o => exact ParseBack.cradd o
  | crrd o => exact ParseBack.crrd o
  | mma o => exact ParseBack.mma o
  | oadd o => exact ParseBack.oadd o
  | mld o => exact ParseBack.mld o
  | mst o => exact ParseBack.mst o
  | mzero o => exact ParseBack.mzero o
  | hpack o => exact ParseBack.hpack o
  | msts o => exact ParseBack.msts o
  | plsetv o => exact ParseBack.plsetv o
  | plget o => exact ParseBack.plget o
  | sadd o => exact ParseBack.sadd o
  | ssub o => exact ParseBack.ssub o
  | smul o => exact ParseBack.smul o
  | smulh o => exact ParseBack.smulh o
  | sdiv o => exact ParseBack.sdiv o
  | srem o => exact ParseBack.srem o
  | sand o => exact ParseBack.sand o
  | sor o => exact ParseBack.sor o
  | sxor o => exact ParseBack.sxor o
  | snot o => exact ParseBack.snot o
  | sshl o => exact ParseBack.sshl o
  | sshr o => exact ParseBack.sshr o
  | ssra o => exact ParseBack.ssra o
  | smin o => exact ParseBack.smin o
  | smax o => exact ParseBack.smax o
  | sclz o => exact ParseBack.sclz o
  | sctz o => exact ParseBack.sctz o
  | spopc o => exact ParseBack.spopc o
  | sbfx o => exact ParseBack.sbfx o
  | sbfi o => exact ParseBack.sbfi o
  | ssel o => exact ParseBack.ssel o
  | scmp o => exact ParseBack.scmp o
  | smov o => exact ParseBack.smov o
  | smovi o => exact ParseBack.smovi o
  | sinsi o => exact ParseBack.sinsi o
  | sld o => exact ParseBack.sld o
  | sst o => exact ParseBack.sst o
  | satom o => exact ParseBack.satom o
  | br o => exact ParseBack.br o
  | brd o => exact ParseBack.brd o
  | jmp o => exact ParseBack.jmp o
  | jmpr o => exact ParseBack.jmpr o
  | call o => exact ParseBack.call o
  | callr o => exact ParseBack.callr o
  | ret o => exact ParseBack.ret o
  | loop o => exact ParseBack.loop o
  | lbreak o => exact ParseBack.lbreak o
  | rcv o => exact ParseBack.rcv o
  | rcvw o => exact ParseBack.rcvw o
  | exit => exact ParseBack.exit
  | trap o => exact ParseBack.trap o
  | tret => exact ParseBack.tret
  | plset o => exact ParseBack.plset o
  | plmask o => exact ParseBack.plmask o
  | mskop o => exact ParseBack.mskop o
  | qhlp => exact ParseBack.qhlp
  | waitcnt o => exact ParseBack.waitcnt o
  | bclose o => exact ParseBack.bclose o
  | bwait o => exact ParseBack.bwait o
  | mwait o => exact ParseBack.mwait o
  | bar o => exact ParseBack.bar o
  | cbar o => exact ParseBack.cbar o
  | barv o => exact ParseBack.barv o
  | bwaitp o => exact ParseBack.bwaitp o
  | fence o => exact ParseBack.fence o
  | fencee => exact ParseBack.fencee
  | waita o => exact ParseBack.waita o
  | arrst o => exact ParseBack.arrst o
  | rflush => exact ParseBack.rflush
  | mbsend o => exact ParseBack.mbsend o
  | mbrecv o => exact ParseBack.mbrecv o
  | mbpush o => exact ParseBack.mbpush o
  | mbpop o => exact ParseBack.mbpop o
  | mbsteal o => exact ParseBack.mbsteal o
  | sleep o => exact ParseBack.sleep o
  | ltile o => exact ParseBack.ltile o
  | lgath o => exact ParseBack.lgath o
  | lscat o => exact ParseBack.lscat o
  | lcbld o => exact ParseBack.lcbld o
  | tsend o => exact ParseBack.tsend o
  | sload o => exact ParseBack.sload o
  | sstore o => exact ParseBack.sstore o
  | ckpt o => exact ParseBack.ckpt o
  | spec o => exact ParseBack.spec o
  | spcommit o => exact ParseBack.spcommit o
  | spdrop o => exact ParseBack.spdrop o
  | tfset o => exact ParseBack.tfset o
  | arrinit o => exact ParseBack.arrinit o
  | crclr o => exact ParseBack.crclr o
  | mclr o => exact ParseBack.mclr o
  | hprobe o => exact ParseBack.hprobe o
  | hins o => exact ParseBack.hins o
  | hdel o => exact ParseBack.hdel o
  | hadv o => exact ParseBack.hadv o
  | hswap o => exact ParseBack.hswap o
  | hfence o => exact ParseBack.hfence o
  | hstat o => exact ParseBack.hstat o
  | hbind o => exact ParseBack.hbind o
  | getsr o => exact ParseBack.getsr o
  | setsr o => exact ParseBack.setsr o
  | pour o => exact ParseBack.pour o
  | dgon o => exact ParseBack.dgon o
  | dgoff => exact ParseBack.dgoff
  | dgfold o => exact ParseBack.dgfold o
  | dgchk o => exact ParseBack.dgchk o
  | yield => exact ParseBack.yield
  | _ => nofun

/-! ### The decoder on the words of a well-formed instruction -/

/-- What a well-formed instruction is: it has fields, it is prefixed only as its class allows, and it does not start with the all-zero word. -/
theorem Coded.fields_of_wf {c : Coded} (h : c.wf = true) :
    ∃ raw, c.instr.toRaw = some raw ∧ c.instr.wf = true ∧ raw.first c.w ≠ 0
      ∧ ∀ p, c.pre = some p → ∃ k, prefixClassOf (raw.first c.w) = some k ∧ k.allows p = true := by
  simp only [Coded.wf, Bool.and_eq_true] at h
  obtain ⟨⟨⟨hwf, hsome⟩, hpre⟩, hzero⟩ := h
  obtain ⟨raw, hraw⟩ := Option.isSome_iff_exists.1 hsome
  refine ⟨raw, hraw, hwf, fun h0 => ?_, fun p hp => ?_⟩
  · obtain ⟨hw, hi⟩ := Raw.parse_of_first_zero h0
    have hi' : c.instr = .vaddShort ⟨0, 0, 0⟩ := Option.some.inj ((c.instr.parse_toRaw raw hraw).symm.trans hi)
    simp [hw, hi'] at hzero
  · rw [← Instr.prefixClass_of_toRaw hraw c.w]
    cases hk : c.instr.prefixClass with
    | none => simp [hp, hk] at hpre
    | some k => exact ⟨k, rfl, by simpa [hp, hk] using hpre⟩

/-- The check of the unused fields passes for the fields that the encoder writes (R80). -/
theorem decodeBody_finish_toRaw {i : Instr} {raw : Raw} (hr : i.toRaw = some raw) (hwf : i.wf = true) (w : BitVec 2) (n : Nat) :
    decodeBody.finish raw w n = .ok (w, i, n) := by
  simp [decodeBody.finish, i.parse_toRaw raw hr, hwf, hr]

/-- The words of an unprefixed instruction, whatever precedes and follows them (checks 4 and 5 of R94). -/
theorem decodeBody_words {i : Instr} {raw : Raw} {w : BitVec 2} (hr : i.toRaw = some raw) (hwf : i.wf = true) (h0 : raw.first w ≠ 0)
    (k : Nat) (rest : List CodeWord) : decodeBody k (raw.words w ++ rest) = .ok (w, i, (raw.words w).length) := by
  have hfin := decodeBody_finish_toRaw hr hwf w
  cases raw with
  | sl f => simpa [Raw.words, decodeBody, show shortLaneWord w f ≠ 0#32 from h0] using hfin 1
  | su f => simpa [Raw.words, decodeBody, show shortUniWord w f ≠ 0#32 from h0] using hfin 1
  | ll f => simpa [Raw.words, decodeBody, show headWord false w f ≠ 0#32 from h0] using hfin 2
  | ul f => simpa [Raw.words, decodeBody, show headWord true w f ≠ 0#32 from h0] using hfin 2

/-- Unprefixed words. -/
theorem decodeWords_unprefixed {h : CodeWord} {rest : List CodeWord} (hls : (wordLS h).toNat ≠ 2) {w : BitVec 2} {i : Instr} {n : Nat}
    (hb : decodeBody 0 (h :: rest) = .ok (w, i, n)) : decodeWords (h :: rest) = .ok (⟨none, w, i⟩, n) := by
  simp only [decodeWords, if_neg hls, hb]

/-- Words prefixed as the class of the word that follows allows (R81, R82). -/
theorem decodeWords_prefixed {p : Prefix} {h : CodeWord} {rest : List CodeWord} {k : PrefixClass} (hk : prefixClassOf h = some k)
    (ha : k.allows p = true) {w : BitVec 2} {i : Instr} {n : Nat} (hb : decodeBody 1 (h :: rest) = .ok (w, i, n)) :
    decodeWords (prefixWord (wordP h) p :: h :: rest) = .ok (⟨some p, w, i⟩, n + 1) := by
  simp [decodeWords, hk, ha, hb]

theorem Coded.encode_unprefixed {i : Instr} {raw : Raw} (hr : i.toRaw = some raw) (w : BitVec 2) :
    (⟨none, w, i⟩ : Coded).encode = raw.words w := by
  simp [Coded.encode, hr]

theorem Coded.encode_prefixed {i : Instr} {raw : Raw} (hr : i.toRaw = some raw) (w : BitVec 2) (p : Prefix) :
    (⟨some p, w, i⟩ : Coded).encode = prefixWord raw.pipe p :: raw.words w := by
  simp [Coded.encode, hr]

/-- Settles O59: the fields of every word read back, they name the instruction, and it is prefixed as the class of its first word allows. -/
theorem decodeEncode : Obligations.DecodeEncode := by
  unfold Obligations.DecodeEncode
  intro c rest hc
  obtain ⟨raw, hraw, hwf, h0, hpre⟩ := Coded.fields_of_wf hc
  obtain ⟨pre, w, i⟩ := c
  obtain ⟨tail, hwords⟩ : ∃ tail, raw.words w = raw.first w :: tail := ⟨_, raw.words_eq_first_cons w⟩
  have hbody (k : Nat) : decodeBody k (raw.first w :: (tail ++ rest)) = .ok (w, i, (raw.first w :: tail).length) := by
    rw [← List.cons_append, ← hwords]
    exact decodeBody_words hraw hwf h0 k rest
  cases pre with
  | none =>
    rw [Coded.encode_unprefixed hraw, hwords]
    exact decodeWords_unprefixed (raw.wordLS_first_ne w) (hbody 0)
  | some p =>
    obtain ⟨k, hk, ha⟩ := hpre p rfl
    rw [Coded.encode_prefixed hraw, hwords, ← raw.wordP_first w]
    exact decodeWords_prefixed hk ha (hbody 1)

/-- Settles O58: the decoder, run on each word. -/
theorem decodesSpecWords : Obligations.DecodesSpecWords := by
  unfold Obligations.DecodesSpecWords
  exact ⟨rfl, rfl, rfl, rfl, rfl, rfl, rfl, rfl, rfl, rfl, rfl, rfl, rfl, rfl, rfl, rfl, rfl, rfl, rfl, rfl, rfl⟩

end Sys2Proof
end

section
/-! PROOFS. Branches, jumps, calls and loops: where a control transfer goes, and the trap of a bad target (O10). -/

namespace Sys2Proof.Machine

/-! ### The checks of a target (R86, R87) -/

/-- Planes whose words at an offset can be fetched, and have another LS field, pass the scan. -/
theorem State.scanPlanes_ok {s : State} {g : Group} {off ls cause : Nat} {planes : List Nat}
    (h : ∀ p ∈ planes, ∃ t w, s.fetchWord g.cx.core g.cx.asid (g.codeVa p off) = (t, .words [w]) ∧ (wordLS w).toNat ≠ ls) :
    s.scanPlanes g off ls cause planes = .ok := by
  unfold State.scanPlanes
  rw [if_neg, List.find?_eq_none.2]
  · intro p hp
    obtain ⟨t, w, hf, -⟩ := h p hp
    simp [hf]
  · rw [List.any_eq_true]
    rintro ⟨p, hp, hls⟩
    obtain ⟨t, w, hf, hne⟩ := h p hp
    simp [hf, hne] at hls

/-- A target whose words the statement names passes the checks of a control transfer. -/
theorem State.TargetOk.mayGo {s : State} {m : Mask} {target : Int} (h : s.TargetOk m target) : s.MayGo m target := by
  obtain ⟨h0, h4, hlen, hwords⟩ := h
  have htail : s.scanPlanes s.grp target.toNat 3 0x04 (s.grp.occupied m) = .ok := State.scanPlanes_ok fun p hp => (hwords p hp).1
  have hprefix (hne : target ≠ 0) : s.scanPlanes s.grp (target.toNat - 4) 2 0x03 (s.grp.occupied m) = .ok :=
    State.scanPlanes_ok fun p hp => (hwords p hp).2 hne
  unfold State.MayGo State.goCheck State.transfer
  rw [if_neg (by omega), htail]
  by_cases hne : target = 0
  · simp [hne]
  · simp [hne, hprefix hne]

/-- A split whose target passes its checks moves. -/
theorem State.moveTo_of_mayGo {s : State} {target : Int} (h : s.MayGo s.spl.owned target) : s.moveTo target = s.movedTo target := by
  have h' : s.transfer s.grp (s.grp.occupied s.spl.owned) target = .ok := h
  simp only [State.moveTo, State.transferTo, h']
  rfl

/-- A split whose target fails its checks traps, with the target as the detail (R189). -/
theorem State.moveTo_of_goFault {s : State} {target : Int} {cause : Nat} (h : s.goFault s.spl.owned target = some cause) :
    s.moveTo target = s.trapExec cause (BitVec.ofInt 64 target) := by
  have h' : s.transfer s.grp (s.grp.occupied s.spl.owned) target = .bad cause := by
    unfold State.goFault State.goCheck at h
    split at h
    · next hc => cases h; exact hc
    · cases h
  simp only [State.moveTo, State.transferTo, h']
  rfl

/-! ### The split and the issue after a move -/

theorem State.movedTo_spl {s : State} (hi : s.Issuing) (target : Int) : (s.movedTo target).spl = { s.spl with off := target.toNat } :=
  s.spl_modSpl _ hi.1 hi.2

theorem State.Issuing.modSpl {s : State} (hi : s.Issuing) (f : Split → Split) : (s.modSpl f).Issuing := by
  refine ⟨s.issuing_modGrp _ hi.1, ?_⟩
  rw [s.grp_modSpl f hi.1]
  have := hi.2
  simpa [Group.modSplit, State.modSpl, State.modGrp, State.modGroup] using this

theorem State.Issuing.movedTo {s : State} (hi : s.Issuing) (target : Int) : (s.movedTo target).Issuing :=
  hi.modSpl fun p => { p with off := target.toNat }

/-- A write of a uniform register leaves the split that issues as it is. -/
theorem State.writeU_spl {s : State} (hi : s.Issuing) (r : Nat) (x : Word) (lat : Nat) : (s.writeU r x lat).spl = s.spl := by
  have hg : (s.writeU r x lat).grp = s.putU s.grp r x lat s.spl.owned := s.grp_modGrp _ hi.1
  unfold State.spl
  rw [hg]
  rfl

/-! ### What each control transfer does once its registers have passed their checks -/

theorem State.Clear.guarded_eq {s : State} {lanes : Mask} {uses : List Use} (hc : s.Clear lanes uses) (body : State → State) :
    s.guarded lanes uses body = body s := by
  obtain ⟨c1, c2, c3, c4⟩ := hc
  exact s.guarded_clear _ _ _ c1 c2 c3 c4

theorem bcondUses_eq (c : BCond) : bcondUses c = condUses c := by cases c <;> rfl

theorem State.bcond_eq {s : State} {c : BCond} {lanes : Mask} (hc : s.Clear lanes (condUses c)) : s.bcond c = s.condHolds c := by
  cases c with
  | sc => exact s.readSc_of_any _ hc.2.1 rdSc (by simp [condUses]) rfl
  | nsc => exact congrArg (!·) (s.readSc_of_any _ hc.2.1 rdSc (by simp [condUses]) rfl)
  | _ => rfl

theorem State.branch_clear {s : State} {c : BCond} (hc : s.Clear s.cur.mask (condUses c)) (target : Int) :
    s.branch c target = if s.condHolds c = true then s.moveTo target else s := by
  unfold State.branch
  rw [bcondUses_eq, hc.guarded_eq, State.bcond_eq hc]

theorem exec_br {s : State} {o : Branch} (hc : s.Clear s.cur.mask (condUses o.cond)) :
    exec (.br o) s = .next (if s.condHolds o.cond = true then s.moveTo (s.cur.next + 4 * o.disp.toInt) else s) :=
  congrArg _ (State.branch_clear hc _)

theorem exec_brs {s : State} {o : ShBr} (hc : s.Clear s.cur.mask (condUses o.cond)) :
    exec (.brs o) s = .next (if s.condHolds o.cond = true then s.moveTo (s.cur.next + 4 * o.disp.toInt) else s) :=
  congrArg _ (State.branch_clear hc _)

theorem exec_brd {s : State} {o : BranchDiv} (hc : s.Clear s.cur.mask [rdUlo o.a]) :
    exec (.brd o) s = .next (s.divideAt
      (s.spl.exec &&& (if o.not then ~~~((s.grp.ureg o.a.toNat).setWidth 32) else (s.grp.ureg o.a.toNat).setWidth 32))
      (s.cur.next + 4 * o.disp.toInt)) := by
  refine congrArg _ ((hc.guarded_eq _).trans ?_)
  rw [readU_named hc o.a (by simp [rdUlo])]
  rfl

theorem exec_jmpr {s : State} {o : OneU} (hc : s.Clear s.cur.mask [rdUlo o.a]) :
    exec (.jmpr o) s = .next (s.moveTo ((s.grp.ureg o.a.toNat).toNat % 2 ^ 32 : Nat)) := by
  refine congrArg _ ((hc.guarded_eq _).trans ?_)
  rw [readU_named hc o.a (by simp [rdUlo])]

theorem exec_call {s : State} {o : CallRel} (hc : s.Clear s.cur.mask [wrU o.d]) :
    exec (.call o) s = .next (s.callTo o.d (s.cur.next + 4 * o.disp.toInt)) :=
  congrArg _ (hc.guarded_eq _)

theorem exec_callr {s : State} {o : TwoU} (hc : s.Clear s.cur.mask [rdUlo o.a, wrU o.d]) :
    exec (.callr o) s = .next (s.callTo o.d ((s.grp.ureg o.a.toNat).toNat % 2 ^ 32 : Nat)) := by
  refine congrArg _ ((hc.guarded_eq _).trans ?_)
  rw [readU_named hc o.a (by simp [rdUlo])]

theorem exec_ret {s : State} {o : OneU} (hc : s.Clear s.cur.mask [rdU o.a]) :
    exec (.ret o) s = .next (if wbits (s.grp.ureg o.a.toNat) 34 32 = s.spl.loops.length
      then s.moveTo ((s.grp.ureg o.a.toNat).toNat % 2 ^ 32 : Nat) else s.trapExec 0x09 (BitVec.ofNat 64 s.spl.loops.length)) := by
  refine congrArg _ ((hc.guarded_eq _).trans ?_)
  dsimp only
  rw [readU_named hc o.a (by simp [rdU]), ite_not]

theorem exec_loop {s : State} {o : LoopOp} (hc : s.Clear s.cur.mask [rdUlo o.a]) :
    exec (.loop o) s = .next (
      let n : BitVec 32 := (s.grp.ureg o.a.toNat).setWidth 32
      let le : Int := s.cur.next + 4 * o.disp.toInt
      if n = 0 then s.moveTo le
      else if 4 ≤ s.spl.loops.length then s.trapExec 0x09 4
      else s.modSpl fun p => { p with loops := ⟨s.cur.next % 2 ^ 26, (le % 2 ^ 26).toNat, n⟩ :: p.loops }) := by
  refine congrArg _ ((hc.guarded_eq _).trans ?_)
  rw [readU_named hc o.a (by simp [rdUlo])]
  rfl

theorem exec_lbreak {s : State} {o : CondOnly} {l : Loop} {rest : List Loop} (hc : s.Clear s.cur.mask (condUses o.cond))
    (hl : s.spl.loops = l :: rest) :
    exec (.lbreak o) s = .next (if s.condHolds o.cond = true then
      if (s.moveTo l.le).cur.flow = .moved then (s.moveTo l.le).modSpl fun p => { p with loops := rest } else s.moveTo l.le
      else s) := by
  have hc' := hc
  rw [← bcondUses_eq] at hc'
  refine congrArg _ ((hc'.guarded_eq _).trans ?_)
  simp only [hl, State.bcond_eq hc]

/-! ### Calls (R171) -/

/-- A call whose target passes its checks moves the split. -/
theorem State.callTo_moves {s : State} (hi : s.Issuing) {target : Int} (h : s.MayGo s.spl.owned target) (d : UReg) :
    (s.callTo d target).cur.flow = .moved ∧ (s.callTo d target).spl.off = target.toNat := by
  have hcall : s.callTo d target = (s.movedTo target).writeU d.toNat s.linkWord 2 := by
    unfold State.callTo
    rw [State.moveTo_of_mayGo h]
    exact if_pos rfl
  rw [hcall]
  refine ⟨rfl, ?_⟩
  rw [State.writeU_spl (hi.movedTo target), State.movedTo_spl hi]

/-- A call whose target fails its checks traps and writes no link word. -/
theorem State.callTo_traps {s : State} (hi : s.Issuing) (hm : s.MayTrap) {target : Int} {cause : Nat}
    (h : s.goFault s.spl.owned target = some cause) (d : UReg) : s.callTo d target = s.trapExec cause (BitVec.ofInt 64 target) := by
  have hflow : (s.trapExec cause (BitVec.ofInt 64 target)).cur.flow = .trapped := by
    obtain ⟨⟨ht, -⟩, -⟩ := State.takeTrap_entered hi hm cause (BitVec.ofInt 64 target) s.spl.exec
    exact (congrArg (fun t : State => t.cur.flow) ht :)
  unfold State.callTo
  dsimp only
  rw [State.moveTo_of_goFault h, if_neg (by simp [hflow])]

/-! ### The clauses of the statement -/

/-- A branch as a whole (R169): it moves where its condition holds, and does nothing where it fails. -/
theorem branch_moves {s : State} {i : Instr} {c : BCond} {target : Int}
    (h : exec i s = .next (if s.condHolds c = true then s.moveTo target else s)) :
    (s.condHolds c = true → s.MayGo s.spl.owned target → exec i s = .next (s.movedTo target))
      ∧ (s.condHolds c = false → exec i s = .next s) :=
  ⟨fun hc hg => by rw [h, if_pos hc, State.moveTo_of_mayGo hg], fun hc => by rw [h, if_neg (by simp [hc])]⟩

/-- An instruction that only moves the split (R169). -/
theorem move_moves {s : State} {i : Instr} {target : Int} (h : exec i s = .next (s.moveTo target)) (hg : s.MayGo s.spl.owned target) :
    exec i s = .next (s.movedTo target) := by
  rw [h, State.moveTo_of_mayGo hg]

/-- An instruction that moves the split to a target that fails its checks enters the trap (R86, R87, R191). -/
theorem move_traps {s : State} {i : Instr} {target : Int} {cause : Nat} (hi : s.Issuing) (hm : s.MayTrap)
    (hf : s.goFault s.spl.owned target = some cause) (h : exec i s = .next (s.moveTo target)) :
    Completes i s fun t => TrapEntered s t cause s.cur.off (BitVec.ofInt 64 target) s.spl.exec :=
  ⟨_, h.trans (congrArg _ (State.moveTo_of_goFault hf)), (State.takeTrap_entered hi hm _ _ _).1⟩

/-- A call to a target that fails its checks enters the trap. -/
theorem call_traps {s : State} {i : Instr} {d : UReg} {target : Int} {cause : Nat} (hi : s.Issuing) (hm : s.MayTrap)
    (hf : s.goFault s.spl.owned target = some cause) (h : exec i s = .next (s.callTo d target)) :
    Completes i s fun t => TrapEntered s t cause s.cur.off (BitVec.ofInt 64 target) s.spl.exec :=
  ⟨_, h.trans (congrArg _ (State.callTo_traps hi hm hf d)), (State.takeTrap_entered hi hm _ _ _).1⟩

/-- BRD of no lane and of every lane of EXEC (R170). -/
theorem brd_moves {s : State} {o : BranchDiv} (hc : s.Clear s.cur.mask [rdUlo o.a]) :
    let m : Mask := (s.grp.ureg o.a.toNat).setWidth 32
    let taken := s.spl.exec &&& (if o.not then ~~~m else m)
    (taken = 0 → exec (.brd o) s = .next s)
      ∧ (taken ≠ 0 → taken = s.spl.exec → s.MayGo s.spl.owned (s.cur.next + 4 * o.disp.toInt) →
        exec (.brd o) s = .next (s.movedTo (s.cur.next + 4 * o.disp.toInt))) := by
  intro m taken
  have h : exec (.brd o) s = .next (s.divideAt taken (s.cur.next + 4 * o.disp.toInt)) := exec_brd hc
  refine ⟨fun h0 => ?_, fun h0 hall hg => ?_⟩
  · rw [h]
    exact congrArg _ (if_pos h0)
  · rw [h, ← State.moveTo_of_mayGo hg]
    exact congrArg _ ((if_neg h0).trans (if_pos hall))

/-- LOOP with a count where there is room: a level more, and the split goes on (R173). -/
theorem loop_pushes {s : State} {o : LoopOp} (hi : s.Issuing) (hc : s.Clear s.cur.mask [rdUlo o.a])
    (h0 : (s.grp.ureg o.a.toNat).setWidth 32 ≠ (0 : BitVec 32)) (h4 : s.spl.loops.length < 4) :
    Completes (.loop o) s fun t => t.spl.loops.length = s.spl.loops.length + 1 ∧ t.spl.off = s.spl.off ∧ t.cur = s.cur := by
  refine ⟨_, (exec_loop hc).trans (congrArg _ ((if_neg h0).trans (if_neg (by omega)))), ?_⟩
  dsimp only
  rw [s.spl_modSpl _ hi.1 hi.2]
  exact ⟨rfl, rfl, rfl⟩

/-- LBREAK whose condition holds, to an end that passes its checks: the split moves there and the level is popped (R175). -/
theorem lbreak_pops {s : State} {o : CondOnly} {l : Loop} {rest : List Loop} (hi : s.Issuing)
    (hc : s.Clear s.cur.mask (condUses o.cond)) (hl : s.spl.loops = l :: rest) (hh : s.condHolds o.cond = true)
    (hg : s.MayGo s.spl.owned l.le) :
    Completes (.lbreak o) s fun t => t.cur.flow = .moved ∧ t.spl.off = l.le ∧ t.spl.loops = rest := by
  have h : exec (.lbreak o) s = .next ((s.movedTo l.le).modSpl fun p => { p with loops := rest }) := by
    rw [exec_lbreak hc hl, if_pos hh, State.moveTo_of_mayGo hg]
    exact congrArg _ (if_pos rfl)
  obtain ⟨h1, h2⟩ := hi.movedTo l.le
  refine ⟨_, h, rfl, ?_⟩
  rw [State.spl_modSpl _ _ h1 h2, State.movedTo_spl hi]
  exact ⟨rfl, rfl⟩

/-- Settles O10: every transfer is a move of the split, which goes where the target passes its checks and traps where it fails them. -/
theorem branchResult : Obligations.BranchResult := by
  unfold Obligations.BranchResult
  refine ⟨fun s hi => ?_, fun s hi => ?_, fun s target cause hi hm hf => ?_⟩
  · exact ⟨fun o hc => branch_moves (exec_br hc), fun o hc => branch_moves (exec_brs hc), fun o hg => move_moves rfl hg,
      fun o hc hg => move_moves (exec_jmpr hc) hg⟩
  · refine ⟨fun o hc => ?_, fun o hc => ?_, fun o hc => ?_, fun o hg => move_moves rfl hg.mayGo, fun o => ⟨fun hc hg => ?_, fun hc hd hg => ?_⟩,
      fun o hc hg => ⟨_, exec_call hc, State.callTo_moves hi hg.mayGo _⟩, fun o hc hg => ⟨_, exec_callr hc, State.callTo_moves hi hg.mayGo _⟩,
      fun o hc => ⟨fun h0 hg => move_moves ((exec_loop hc).trans (congrArg _ (if_pos h0))) hg.mayGo, fun h0 h4 => loop_pushes hi hc h0 h4⟩,
      fun o l rest hc hl => ⟨fun hh hg => lbreak_pops hi hc hl hh hg.mayGo, fun hh => ?_⟩⟩
    · obtain ⟨hmoves, hstays⟩ := branch_moves (exec_br hc)
      exact ⟨fun hh hg => hmoves hh hg.mayGo, hstays⟩
    · obtain ⟨hmoves, hstays⟩ := branch_moves (exec_brs hc)
      exact ⟨fun hh hg => hmoves hh hg.mayGo, hstays⟩
    · obtain ⟨hnone, hall⟩ := brd_moves hc
      exact ⟨hnone, fun h0 he hg => hall h0 he hg.mayGo⟩
    · exact move_moves (exec_jmpr hc) hg.mayGo
    · exact move_moves ((exec_ret hc).trans (congrArg _ (if_pos hd))) hg.mayGo
    · rw [exec_lbreak hc hl, if_neg (by simp [hh])]
  · refine ⟨fun o hc hh ht => ?_, fun o hc hh ht => ?_, fun o ht => ?_, fun o hc ht => ?_, fun o hc ht => ?_, fun o hc ht => ?_⟩
    · exact move_traps hi hm hf (by rw [exec_br hc, if_pos hh, ht])
    · exact move_traps hi hm hf (by rw [exec_brs hc, if_pos hh, ht])
    · exact move_traps hi hm hf (by rw [ht]; rfl)
    · exact move_traps hi hm hf (by rw [exec_jmpr hc, ht])
    · exact call_traps hi hm hf (by rw [exec_call hc, ht])
    · exact call_traps hi hm hf (by rw [exec_callr hc, ht])

end Sys2Proof.Machine
end



section
/-! PROOFS. What a write at home leaves of the state, and what the work of a drained die keeps as it passes on (R433, R440). -/

namespace Sys2Proof.Machine

/-! ### What a write at home leaves -/

/-- The fields that no write at home changes. -/
def State.besideStores (s : State) : State := { s with mem := [], mpois := [], mdirty := [], dies := [], hostMsgs := [] }

/-- A state differs from another by what writes at home do: to memory and its marks, to the watches that they fire and in messages to the host. -/
def State.Stored (s t : State) : Prop := t.besideStores = s.besideStores ∧ ∀ d, t.draining d = s.draining d

theorem State.Stored.refl (s : State) : s.Stored s := ⟨rfl, fun _ => rfl⟩

theorem State.Stored.trans {s t u : State} (h : s.Stored t) (h' : t.Stored u) : s.Stored u :=
  ⟨h'.1.trans h.1, fun d => (h'.2 d).trans (h.2 d)⟩

/-- A field that no write at home changes. -/
theorem State.Stored.field {α : Type} {s t : State} (h : s.Stored t) (f : State → α) (hf : ∀ u : State, f u.besideStores = f u) : f t = f s := by
  rw [← hf t, h.1, hf s]

theorem State.Stored.ite {c : Prop} [Decidable c] {s t u : State} (ht : s.Stored t) (hu : s.Stored u) : s.Stored (if c then t else u) := by
  split
  · exact ht
  · exact hu

theorem State.die_modDie (s : State) (d e : Nat) (f : Die → Die) : (s.modDie d f).die e = if e = d then f (s.die d) else s.die e := by
  split
  · subst_vars
    simp [State.die]
  · simp [State.die, Tab.find?_insert_ne _ _ ‹_›]

theorem State.draining_setReg (s : State) (d e : Nat) {o : Nat} (v : Word) (h : o ≠ 0x090) : (s.setReg d o v).draining e = s.draining e := by
  simp only [State.draining, State.reg, State.setReg, State.die_modDie]
  split
  · subst_vars
    simp only [Die.reg, Die.setReg, Tab.getD, Tab.setD]
    split
    · rw [Tab.find?_erase_ne _ h.symm]
    · rw [Tab.find?_insert_ne _ _ h.symm]
  · rfl

theorem State.setReg_stored (s : State) (d : Nat) {o : Nat} (v : Word) (h : o ≠ 0x090) : s.Stored (s.setReg d o v) :=
  ⟨rfl, fun e => s.draining_setReg d e v h⟩

theorem State.evalWatch_stored (s : State) (w : Nat) : s.Stored (s.evalWatch w) := by
  unfold State.evalWatch
  refine .ite (.refl s) (.ite (.refl s) (.trans (.trans (s.setReg_stored _ _ ?_) (State.setReg_stored _ _ _ ?_)) ⟨rfl, fun _ => rfl⟩)) <;> omega

theorem State.fireWatches_stored (s : State) (pa n : Nat) : s.Stored (s.fireWatches pa n) := by
  unfold State.fireWatches
  refine List.foldlRecOn _ _ (motive := s.Stored) (.refl s) fun t ht p _ => ?_
  exact .ite (.ite (ht.trans (t.evalWatch_stored _)) ht) ht

theorem State.homeWrite_stored (s : State) (pa : Nat) (bs : List Byte) : s.Stored (s.homeWrite pa bs) :=
  State.Stored.trans (t := State.touch { s with mem := _, mpois := _ } _ _) ⟨rfl, fun _ => rfl⟩ (State.fireWatches_stored _ _ _)

/-! ### The save slot of a block -/

theorem State.plainWalk_stored (s : State) (d : Nat) (asid : BitVec 16) (va : Nat) (wr : Bool) (ok : Tlb → Bool) :
    s.Stored (s.plainWalk d asid va wr ok).1 := by
  unfold State.plainWalk
  extract_lets ast
  split
  · exact .refl s
  · generalize s.walk d ast va = r
    cases r with
    | fail _ _ => exact .refl s
    | wait => exact .refl s
    | leaf a e sh =>
      dsimp only
      split
      · exact .refl s
      · exact .ite (.refl s) (s.homeWrite_stored _ _)

theorem State.slotFrames_stored (s : State) (d : Nat) (asid : BitVec 16) (va : Nat) (wr : Bool) (n : Nat) :
    s.Stored (s.slotFrames d asid va wr n).1 := by
  induction n with
  | zero => exact .refl s
  | succ n ih =>
    rw [State.slotFrames]
    split
    · rename_i t l hl
      rw [hl] at ih
      have hw := t.plainWalk_stored d asid (va + 4096 * n) wr (slotPage d)
      split <;> rename_i hp <;> rw [hp] at hw <;> exact ih.trans hw
    · exact ih

/-- A block is written into its save slot by writes at home, and it is written where the slot's pages translate. -/
theorem State.writeSlot_stored (s : State) (b : Nat) : s.Stored (s.writeSlot b).1
    ∧ (s.writeSlot b).2 = (s.slotPages (s.block b).launch (dieOfCore (s.block b).core) ((s.block b).slot.getD 0) true).2.isSome := by
  have hp : s.Stored (s.slotPages (s.block b).launch (dieOfCore (s.block b).core) ((s.block b).slot.getD 0) true).1 :=
    State.slotFrames_stored ..
  unfold State.writeSlot
  dsimp only
  split
  · rename_i t ht
    rw [ht] at hp ⊢
    exact ⟨hp, rfl⟩
  · rename_i t fs ht
    rw [ht] at hp ⊢
    exact ⟨List.foldlRecOn _ _ (motive := s.Stored) hp fun u hu f _ => hu.trans (u.homeWrite_stored _ _), rfl⟩

/-! ### The work of a drained die passes on (R440) -/

/-- What decides to which die work passes is as before: which dies drain, the casts, and the records of the launches. -/
structure State.SamePlan (s t : State) : Prop where
  draining : ∀ d, t.draining d = s.draining d
  casts : t.casts = s.casts
  words : ∀ n, (t.launch n).words = (s.launch n).words

theorem State.SamePlan.refl (s : State) : s.SamePlan s := ⟨fun _ => rfl, rfl, fun _ => rfl⟩

theorem State.SamePlan.trans {s t u : State} (h : s.SamePlan t) (h' : t.SamePlan u) : s.SamePlan u :=
  ⟨fun d => (h'.draining d).trans (h.draining d), h'.casts.trans h.casts, fun n => (h'.words n).trans (h.words n)⟩

/-- Writes at home change no plan. -/
theorem State.Stored.samePlan {s t : State} (h : s.Stored t) : s.SamePlan t :=
  ⟨h.2, h.field State.casts fun _ => rfl, fun n => congrArg Launch.words (h.field (State.launch · n) fun _ => rfl)⟩

/-- A cast's launch is co-resident or not by its record. -/
theorem State.SamePlan.coRes {s t : State} (h : s.SamePlan t) (n : Nat) : (t.launch n).coRes = (s.launch n).coRes := by
  simp only [Launch.coRes, Launch.at4, Launch.word, h.words n]

theorem State.SamePlan.castOf {s t : State} (h : s.SamePlan t) (c : Nat) : t.castOf c = s.castOf c := by
  simp only [State.castOf, h.casts]

/-- The die to which a launch's work passes follows from its record and from which dies drain. -/
theorem State.SamePlan.nextDie {s t : State} (h : s.SamePlan t) (n d : Nat) : t.nextDie (t.launch n) d = s.nextDie (s.launch n) d := by
  simp only [State.nextDie, Launch.dies, Launch.at4, Launch.word, h.words n, h.draining]

theorem Tab.find?_map_snd {α : Type} (t : Tab α) (f : Nat × α → Nat × α) (hf : ∀ p, (f p).1 = p.1) (i : Nat) :
    Tab.find? (t.map f) i = (Tab.find? t i).map fun x => (f (i, x)).2 := by
  induction t with
  | nil => rfl
  | cons p t ih =>
    obtain ⟨k, v⟩ := p
    rw [List.map_cons, show f (k, v) = (k, (f (k, v)).2) from Prod.ext (hf _) rfl]
    simp only [Tab.find?, ih]
    split
    · subst_vars
      rfl
    · rfl

/-- The unplaced ranges of a launch pass from a die, as `moveWork` passes them. -/
def State.passRanges (s : State) (d : Nat) (p : Nat × Launch) : Nat × Launch :=
  let dst := s.nextDie p.2 d
  let move (r : Nat × Nat × Nat) : Nat × Nat × Nat := if r.1 = d then (dst, r.2) else r
  if p.2.coRes || dst == d || !(p.2.ranges.any fun r => r.1 == d) then p
  else (p.1, { p.2 with ranges := p.2.ranges.map move, sent := p.2.sent.filter (· != dst), reported := p.2.reported.filter (· != dst) })

/-- A saved cast passes from a die, as `moveWork` passes it. -/
def State.passSaved (s : State) (d : Nat) (v : Nat × Saved) : State :=
  let n := (s.castOf v.2.cast).launch
  let l := s.launch n
  let dst := s.nextDie l d
  if v.2.die ≠ d ∨ l.coRes ∨ dst = d then s
  else { s with saved := s.saved.insert v.1 { v.2 with die := dst } }.modLaunch n fun l =>
    { l with sent := l.sent.filter (· != dst), reported := l.reported.filter (· != dst) }

/-- The work of a drained die passes on range by range, then cast by cast. -/
theorem State.moveWork_of_draining {s : State} {d : Nat} (h : s.draining d = true) :
    s.moveWork d = s.saved.foldl (fun t v => t.passSaved d v) { s with launches := s.launches.map (s.passRanges d) } := by
  unfold State.moveWork
  rw [h]
  rfl

theorem State.passRanges_samePlan (s : State) (d : Nat) : s.SamePlan { s with launches := s.launches.map (s.passRanges d) } := by
  have hpass : ∀ p, (s.passRanges d p).1 = p.1 ∧ (s.passRanges d p).2.words = p.2.words := by
    intro p
    unfold State.passRanges
    dsimp only
    split <;> exact ⟨rfl, rfl⟩
  refine ⟨fun _ => rfl, rfl, fun n => ?_⟩
  simp only [State.launch, Tab.find?_map_snd _ _ fun p => (hpass p).1]
  cases s.launches.find? n with
  | none => rfl
  | some l => exact (hpass (n, l)).2

theorem State.modLaunch_samePlan (s : State) (n : Nat) {f : Launch → Launch} (hf : ∀ l, (f l).words = l.words) : s.SamePlan (s.modLaunch n f) := by
  refine ⟨fun _ => rfl, rfl, fun m => ?_⟩
  simp only [State.launch, State.modLaunch, Tab.find?_modify]
  split
  · cases s.launches.find? m with
    | none => rfl
    | some l => exact hf l
  · rfl

theorem State.passSaved_samePlan (s : State) (d : Nat) (v : Nat × Saved) : s.SamePlan (s.passSaved d v) := by
  unfold State.passSaved
  dsimp only
  split
  · exact .refl s
  · refine .trans ?_ (State.modLaunch_samePlan _ _ fun _ => rfl)
    exact ⟨fun _ => rfl, rfl, fun _ => rfl⟩

theorem State.passSaved_blocks (s : State) (d : Nat) (v : Nat × Saved) : (s.passSaved d v).blocks = s.blocks := by
  unfold State.passSaved
  dsimp only
  split <;> rfl

/-- Work that passes on changes no plan, and no block. -/
theorem State.moveWork_keeps (s : State) (d : Nat) : s.SamePlan (s.moveWork d) ∧ (s.moveWork d).blocks = s.blocks := by
  by_cases h : s.draining d = true
  · rw [State.moveWork_of_draining h]
    exact List.foldlRecOn _ _ (motive := fun t => s.SamePlan t ∧ t.blocks = s.blocks) ⟨s.passRanges_samePlan d, rfl⟩ fun t ht v _ =>
      ⟨ht.1.trans (t.passSaved_samePlan d v), (t.passSaved_blocks d v).trans ht.2⟩
  · unfold State.moveWork
    rw [if_pos (by simpa using h)]
    exact ⟨.refl s, rfl⟩

/-- A saved cast of the die that another die can take is found under its name, for that die. -/
theorem State.passSaved_find? {s : State} {d k : Nat} {w : Saved} (hw : w.die = d) (hc : (s.launch (s.castOf w.cast).launch).coRes = false)
    (hn : s.nextDie (s.launch (s.castOf w.cast).launch) d ≠ d) :
    (s.passSaved d (k, w)).saved.find? k = some { w with die := s.nextDie (s.launch (s.castOf w.cast).launch) d } := by
  unfold State.passSaved
  dsimp only
  rw [if_neg (by simp [hw, hc, hn])]
  exact Tab.find?_insert_self _ _ _

/-- Of the saved casts listed under one name the last that passes on is the one that is found there. -/
theorem State.moveWork_saved_of_last {s : State} {d k : Nat} {w : Saved} {pre : List (Nat × Saved)} (hd : s.draining d = true)
    (hs : s.saved = pre ++ [(k, w)]) (hw : w.die = d) (hc : (s.launch (s.castOf w.cast).launch).coRes = false)
    (hn : s.nextDie (s.launch (s.castOf w.cast).launch) d ≠ d) : ∃ v, (s.moveWork d).saved.find? k = some v ∧ v.cast = w.cast := by
  have hp := s.passRanges_samePlan d
  rw [State.moveWork_of_draining hd]
  generalize ({ s with launches := s.launches.map (s.passRanges d) } : State) = u at hp ⊢
  rw [hs, List.foldl_append]
  generalize ht : pre.foldl (fun t v => t.passSaved d v) u = t
  have hp : s.SamePlan t := by
    rw [← ht]
    exact List.foldlRecOn _ _ (motive := s.SamePlan) hp fun u hu v _ => hu.trans (u.passSaved_samePlan d v)
  rw [← hp.castOf, ← hp.coRes] at hc
  rw [← hp.castOf, ← hp.nextDie] at hn
  exact ⟨_, State.passSaved_find? hw hc hn, rfl⟩

end Sys2Proof.Machine
end


section
/-! PROOFS. The saving of a cast on a drained die, and a state in which the name that the saved cast takes is listed once more, out of order (R356,
R440). -/

namespace Sys2Proof.Machine

/-! ### The saving of a cast (R356) -/

/-- Writes at home end no block, and begin none. -/
theorem State.Stored.liveBlocks {s t : State} (h : s.Stored t) (cast : Nat) : t.liveBlocks cast = s.liveBlocks cast := by
  have hb := h.field State.blocks fun _ => rfl
  have hg := h.field State.groups fun _ => rfl
  simp only [State.liveBlocks, State.blockLive, State.anyAlive, hb, hg]

/-- What the dies note beside their registers drains none of them. -/
theorem State.draining_of_map_dies {s u : State} {f : Nat × Die → Nat × Die} (hu : u.dies = s.dies.map f)
    (hf : ∀ y, (f y).1 = y.1 ∧ (f y).2.regs = y.2.regs) (d : Nat) : u.draining d = s.draining d := by
  simp only [State.draining, State.reg, State.die, hu, Tab.find?_map_snd _ _ fun y => (hf y).1]
  cases s.dies.find? d with
  | none => rfl
  | some y => simp only [Option.map_some, Option.getD_some, Die.reg, (hf (d, y)).2]

/-- A cast of one block that writes its save slot is listed under the next name, and then the work of its die passes on. -/
theorem State.saveCast_of_one {s t : State} {cast b : Nat} {x : Block} (hs : s.liveBlocks cast = [(b, x)])
    (hw : (s.releaseAt x.core .die).writeSlot b = (t, true)) (ht : t.liveBlocks cast = [(b, x)]) :
    ∃ (u : State) (v : Saved), s.saveCast cast = u.moveWork (dieOfCore x.core) ∧ u.saved = t.saved.insert t.uid v ∧ t.SamePlan u := by
  unfold State.saveCast
  simp only [hs, List.foldl_cons, List.foldl_nil, hw, if_true, ht, List.map_cons, List.map_nil, List.isEmpty_cons, Bool.false_eq_true, if_false]
  exact ⟨_, _, rfl, rfl, State.draining_of_map_dies rfl fun _ => ⟨rfl, rfl⟩, rfl, fun _ => rfl⟩

/-- A stopped block whose casts are quiet is saved with them. -/
theorem State.preemptBlock_of_quiet {s : State} {b : Nat} {x : Block} (hx : s.blocks.find? b = some x) (hl : s.blockLive x = true)
    (hs : x.stopping = true) (hq : (s.together x.cast).all s.castQuiesced = true) :
    s.preemptBlock b = (s.together x.cast).foldl (fun t c => t.saveCast c) s := by
  unfold State.preemptBlock
  simp only [hx, hl, hs, hq, Bool.not_true, Bool.false_eq_true, if_false, if_true]

/-! ### A saved cast whose name is listed twice -/

/-- A saved cast of cast 7 on die 0. -/
def savedOther : Saved := { (default : Saved) with cast := 7 }

/-- Block 2 of cast 1, stopped on core 0 of die 0, which drains; the mask of its launch names die 1 too, and its save slot lies in a PRIVATE page of
2 GiB at 0 whose tables are in memory. The saved casts, out of order, list name 4, the next one, for cast 7. -/
def nameListed : State :=
  { State.reset with
    level := 3, uid := 4
    groups := [(3, default)]
    launches := [(0, { (default : Launch) with words := List.replicate 13 0 ++ [3] })]
    blocks := [(2, { (default : Block) with cast := 1, groups := [3], stopping := true, slot := some 0 })]
    saved := [(5, savedOther), (4, savedOther)]
    dies := [(0, { Die.reset with regs := [(0x000, 1), (0x090, 1)] })]
    mem := [(0, 0x01), (2, 0x02), (0x20000, 0x01), (0x20002, 0x04), (0x40000, 0x0F), (0x40001, 0x03)] }

theorem nameListed_stopped : nameListed.blocks.find? 2 = some (nameListed.block 2) ∧ nameListed.blockLive (nameListed.block 2) = true
    ∧ (nameListed.block 2).stopping = true ∧ nameListed.together (nameListed.block 2).cast = [(nameListed.block 2).cast]
    ∧ nameListed.liveBlocks (nameListed.block 2).cast = [(2, nameListed.block 2)] := by decide

theorem nameListed_quiet : nameListed.castQuiesced 1 = true := by decide

theorem nameListed_slot : ((nameListed.releaseAt 0 .die).slotPages 0 0 0 true).2.isSome = true := by decide

/-- Die 0 drains, and the work of cast 7's launch passes from it. -/
theorem nameListed_passes : nameListed.draining 0 = true ∧ (nameListed.launch (nameListed.castOf 7).launch).coRes = false
    ∧ nameListed.nextDie (nameListed.launch (nameListed.castOf 7).launch) 0 ≠ 0 := by decide

/-- Nothing of core 0 is cached, so the release before the saving writes nothing. -/
theorem nameListed_release : nameListed.releaseAt 0 .die = nameListed := rfl

/-- After the saving of cast 1, cast 7 is found under the name that cast 1 took. -/
theorem nameListed_saveCast : ∃ v, (nameListed.saveCast 1).saved.find? 4 = some v ∧ v.cast = 7 := by
  obtain ⟨-, -, -, -, hlive⟩ := nameListed_stopped
  obtain ⟨hstored, hok⟩ := nameListed.writeSlot_stored 2
  have hw : (nameListed.releaseAt 0 .die).writeSlot 2 = ((nameListed.writeSlot 2).1, true) :=
    Prod.ext (by rw [nameListed_release]) (by rw [nameListed_release, hok]; exact nameListed_slot)
  generalize (nameListed.writeSlot 2).1 = t at hstored hw
  obtain ⟨u, v, hu, hsaved, hplan⟩ := State.saveCast_of_one hlive hw ((hstored.liveBlocks _).trans hlive)
  have hp : nameListed.SamePlan u := hstored.samePlan.trans hplan
  have hl : u.saved = [(4, v), (5, savedOther)] ++ [(4, savedOther)] := by
    rw [hsaved, hstored.field State.saved fun _ => rfl, hstored.field State.uid fun _ => rfl]
    rfl
  obtain ⟨hd, hc, hn⟩ := nameListed_passes
  obtain ⟨w, hw, hcast⟩ := State.moveWork_saved_of_last (d := 0) ((hp.draining 0).trans hd) hl rfl
    (by rw [hp.castOf, hp.coRes]; exact hc) (by rw [hp.castOf, hp.nextDie]; exact hn)
  exact ⟨w, by rw [← hw]; exact congrArg (fun u : State => u.saved.find? 4) hu, hcast⟩

/-- Refutes O43, in the last clause of BLOCK_PREEMPT: the statement looks the saved cast up under the name that it took, with no premise on the names that
the state lists already. In `nameListed`, whose table of saved casts is out of order and lists the next name, the work of the drained die passes on
together with the other cast of that name, which is then the one found. No run from reset is claimed to reach that state: the statement speaks of every
state. -/
theorem not_reservationAndPreemption : ¬ Obligations.ReservationAndPreemption := by
  unfold Obligations.ReservationAndPreemption
  rintro ⟨-, -, h⟩
  obtain ⟨hfind, hlive, hstop, htogether, hblocks⟩ := nameListed_stopped
  obtain ⟨-, -, -, -, -, hsave⟩ := h nameListed 2 _ hfind hlive
  have hquiet : (nameListed.together (nameListed.block 2).cast).all nameListed.castQuiesced = true := by
    rw [htogether]
    exact (Bool.and_true _).trans nameListed_quiet
  have hsaved : nameListed.preemptBlock 2 = nameListed.saveCast 1 := by
    rw [State.preemptBlock_of_quiet hfind hlive hstop hquiet, htogether, List.foldl_cons, List.foldl_nil,
      show (nameListed.block 2).cast = 1 from rfl]
  obtain ⟨t, ht, -, -, v, hv, hcast, -⟩ := hsave hstop hquiet htogether hblocks nameListed_slot
  obtain ⟨w, hw, hother⟩ := nameListed_saveCast
  obtain rfl : nameListed.preemptBlock 2 = t := Host.Outcome.next.inj ht
  rw [hsaved] at hv
  obtain rfl : w = v := Option.some.inj (hw.symm.trans hv)
  exact absurd (hother.symm.trans hcast) (by decide)

end Sys2Proof.Machine
end


section
/-! PROOFS. DIE_DRAIN, and a state in which a live block of the drained die is not asked to stop (R293, R352, R440). -/

namespace Sys2Proof.Machine

/-- A die that begins to drain asks no block to stop where every block is of a co-resident pour and no cast is listed. -/
theorem State.setDrain_blocks_of_no_casts {s : State} {d : Nat} (hc : s.casts = [])
    (hb : ∀ p ∈ s.blocks, (s.launch (s.castOf p.2.cast).launch).coRes = true) : (s.setDrain d true).blocks = s.blocks := by
  unfold State.setDrain
  extract_lets v
  split
  · rfl
  · rw [if_pos rfl]
    generalize hu : (if d = 0 then s.copyWatches 0 23 else s).setReg d 0x090 (v ||| 1) = u
    have hs : u.blocks = s.blocks ∧ u.casts = s.casts ∧ u.launches = s.launches := by
      rw [← hu]
      split <;> exact ⟨rfl, rfl, rfl⟩
    obtain ⟨hblocks, hcasts, hlaunches⟩ := hs
    obtain ⟨hplan, hkept⟩ := u.moveWork_keeps d
    rw [State.ask_of_together_nil, hkept, hblocks]
    intro p hp
    rw [hkept, hblocks] at hp
    refine State.together_of_no_casts ?_ (hplan.casts.trans (hcasts.trans hc))
    rw [hplan.castOf, hplan.coRes, State.launch, State.castOf, hlaunches, hcasts]
    exact hb p hp

/-- `unlistedCast` with a link up, through which the host drains die 0. -/
def unlistedLinked : State := { unlistedCast with links := [0] }

theorem unlistedLinked_coRes : ∀ p ∈ unlistedLinked.blocks, (unlistedLinked.launch (unlistedLinked.castOf p.2.cast).launch).coRes = true := by
  intro p hp
  obtain rfl := List.mem_singleton.mp hp
  decide

/-- Refutes O52, in the clause of DIE_DRAIN: it asks the die's live blocks to stop with the casts that the state lists of a co-resident pour (R293, R352),
so in `unlistedLinked`, whose block's cast is not listed, the live block of die 0 goes on. No run from reset is claimed to reach that state: the statement speaks
of every state. -/
theorem not_controllerRequests : ¬ Obligations.ControllerRequests := by
  unfold Obligations.ControllerRequests
  intro h
  obtain ⟨-, -, -, h⟩ := h unlistedLinked 0 0 0
  obtain ⟨-, -, -, -, hdrain, -⟩ := h ⟨by decide, by decide⟩
  obtain ⟨t, ht, -, -, -, ⟨hasked, -⟩, -⟩ := hdrain (by decide)
  obtain rfl : unlistedLinked.setDrain 0 true = t := Host.Outcome.next.inj ht
  obtain ⟨y, hy, -, -, hstops⟩ := hasked 0 _ rfl
  rw [State.setDrain_blocks_of_no_casts rfl unlistedLinked_coRes] at hy
  obtain rfl := Option.some.inj hy
  exact absurd (hstops unlistedCast_live.1 rfl).1 (by decide)

end Sys2Proof.Machine
end
